-- ==== Sys2Proof/Word.lean ====
section
/-!
DEFINITION. The words of the Silvel Z9: register names, flags, parcels, 64-bit and 128-bit values, and the
plainest arithmetic over them (00_scope.md R5, R7).
-/
namespace Sys2Proof

/-- A g register number, g0 .. g63 (R151). -/
abbrev Reg := BitVec 6
/-- A flag number, f0 .. f7 (R176). -/
abbrev Flag := BitVec 3
/-- A parcel of the instruction stream (R41). -/
abbrev Parcel := BitVec 16
/-- A format code: type code × 8 + width code (R47, R49). -/
abbrev Code := BitVec 6
/-- A 64-bit word. -/
abbrev W64 := BitVec 64

/-- `v[hi:lo]` of R7, as a number. -/
def bits (v hi lo : Nat) : Nat := (v / 2 ^ lo) % 2 ^ (hi + 1 - lo)

/-- Bit `i` of a number. -/
def bitAt (v i : Nat) : Bool := v.testBit i

/-- `Sext(v, n)` of R7, for a number `v < 2^n`. -/
def sext (v n : Nat) : Int := if v.testBit (n - 1) then (v : Int) - (2 ^ n : Nat) else v

/-- The 64-bit two's-complement word of an integer: arithmetic exact, then narrowed (R7). -/
def w64 (i : Int) : W64 := BitVec.ofInt 64 i

/-- ⌈a / b⌉. -/
def ceilDiv (a b : Nat) : Nat := (a + b - 1) / b

end Sys2Proof
end

