-- ==== Sys2Proof/Syntax.lean ====
section
/-!
DEFINITION. The instructions of Zallia and the steps of the machine: one constructor per row of
spec/opcode_table.json (02_instruction_words.md, 95_what_each_step_holds.md). An instruction row carries what its
prefixes say and its operands; an event row carries the unit it is about.
-/
namespace Sys2Proof

/-- What the prefix parcels say besides the operands (R43, R50): XQ present, its stall count, guard enable, invert and
flag; XP present; XR present; the number of XI parcels. -/
structure Pre where
  xq : Bool := false
  h : BitVec 4 := 0
  gen : Bool := false
  inv : Bool := false
  flag : Flag := 0
  xp : Bool := false
  xr : Bool := false
  nxi : Nat := 0
  deriving DecidableEq, Repr

/-- Parcels of the instruction, prefixes and base (R41). -/
def Pre.parcels (q : Pre) : Nat := q.xq.toNat + q.xp.toNat + q.xr.toNat + q.nxi + 1

/-- A bank of a cluster's local memory (R127, R128). -/
structure BankAt where
  cluster : Nat
  bank : Nat
  deriving DecidableEq, Repr

/-- A unit that carries packets, at its queue of class 0 or at that of the other classes (R88). -/
structure ClassQueue where
  unit : Nat
  zero : Bool
  deriving DecidableEq, Repr

/-- A thread evicted, and whether its save fails (R299, R341). -/
structure Eviction where
  tid : Nat
  fails : Bool
  deriving DecidableEq, Repr

/-- What a PRESS presses of a bolt, one block or the whole, and the thread whose save fails, if one does (R341, R346). -/
structure PressOf where
  block : Option Nat := .none
  fail : Option Nat := .none
  deriving DecidableEq, Repr

/-- What an error is found in (R342): the local memory of a cluster (R130), a register of a thread, the DRAM that a slice reads, a packet on
its way, a context restored. A number goes with it: the local address, the thread, the line, the packet's number, the thread.
(assumption 44, DEDUCED) -/
inductive EccError where
  | cluster (cl : Nat)
  | register
  | dram (slice : Nat)
  | packet
  | restored
  deriving DecidableEq, Repr

/-- A peer module, and the grant that it names (R82). -/
structure PeerGrant where
  peer : Nat
  grant : Nat
  deriving DecidableEq, Repr

/-- The data of a peer module's request, and the value that a CAS compares with (R82, R105). -/
structure PeerData where
  data : BitVec 512
  cmp : BitVec 128
  deriving DecidableEq, Repr

/-- What MODULE_RESET loads (R372): the hypervisor and the discovery image, what they bring into memory, Rolnis's root table and the
capability it starts under. (assumption 48, DESIGN CHOICE) -/
structure BootLoad where
  hypervisor : List (BitVec 8)
  discovery : List (BitVec 8)
  mem : List Host.Cell
  root : Nat
  entry : BitVec 128
  deriving DecidableEq, Repr

/-- A bolt's system image, the system cores that run it, and the capability it starts under (R371, R372). -/
structure BoltImage where
  bytes : List (BitVec 8)
  sys : List Nat
  entry : BitVec 128
  deriving DecidableEq, Repr

/-- The clusters that two bolts share in time, and the nominal length in ticks of the slice that begins (R358). -/
structure TimeShare where
  clusters : List Nat
  slice : Nat
  deriving DecidableEq, Repr

/-- What the kernels of two modules do with a grant that a packet carries (R82): nothing; the exporter makes it; the importer binds it to a
slot. -/
inductive GrantAct where
  | none
  | make (grant bolt base len : Nat)
  | bind (bolt slot peer grant len : Nat) (rd w at_ : Bool)
  deriving DecidableEq, Repr

/-- A flit of a grant or recall packet, with what it has the kernels do (R82, R375). -/
structure GrantFlit where
  bits : BitVec 256
  act : GrantAct
  deriving DecidableEq, Repr

/-- What a CHECKPOINT does (R378): it saves bolts, or restores those of a checkpoint from what came back of their swatches, with the system
cores that each is given, as pairs of bolt and core (R371). -/
inductive CheckpointAct where
  | save (bolts : List Nat)
  | restore (k : Nat) (mem : List Host.Cell) (sys : List (Nat × Nat))
  deriving DecidableEq, Repr

/-- How a module joins the fabric (R377): by how much its GTIME steps, whether it is the reference, and the lane to the reference. -/
structure JoinAct where
  step : Nat
  reference : Bool
  lane : Nat
  deriving DecidableEq, Repr

/-- The instructions and the machine's own steps. -/
inductive Instr where
  /-- ADD (R202): Writes the 64-bit wrapping sum of two registers into gd. -/
  | add (q : Pre) (d x y : Reg)
  /-- SUB (R202): Writes the 64-bit wrapping difference of two registers into gd. -/
  | sub (q : Pre) (d x y : Reg)
  /-- ADC (R202): Adds two registers and f7, writes the sum and sets f7 to the carry out. -/
  | adc (q : Pre) (d x y : Reg)
  /-- SBC (R202): Subtracts a register and f7, writes the difference and sets f7 to the borrow. -/
  | sbc (q : Pre) (d x y : Reg)
  /-- AND (R202): Writes the bitwise AND of two registers. -/
  | and (q : Pre) (d x y : Reg)
  /-- OR (R202): Writes the bitwise OR of two registers. -/
  | or (q : Pre) (d x y : Reg)
  /-- XOR (R202): Writes the bitwise exclusive OR of two registers. -/
  | xor (q : Pre) (d x y : Reg)
  /-- ANDN (R202): Writes x AND NOT y. -/
  | andn (q : Pre) (d x y : Reg)
  /-- SHL (R202): Shifts a register left by y mod 64. -/
  | shl (q : Pre) (d x y : Reg)
  /-- SHR (R202): Shifts a register right logically by y mod 64. -/
  | shr (q : Pre) (d x y : Reg)
  /-- SAR (R202): Shifts a register right arithmetically by y mod 64. -/
  | sar (q : Pre) (d x y : Reg)
  /-- ROR (R202): Rotates a register right by y mod 64. -/
  | ror (q : Pre) (d x y : Reg)
  /-- MUL (R202): Writes the low 64 bits of the product. -/
  | mul (q : Pre) (d x y : Reg)
  /-- MULH (R202): Writes the high 64 bits of the signed product. -/
  | mulh (q : Pre) (d x y : Reg)
  /-- MULHN (R202): Writes the high 64 bits of the unsigned product. -/
  | mulhn (q : Pre) (d x y : Reg)
  /-- MULW (R202): Writes the full signed 128-bit product into gd. -/
  | mulw (q : Pre) (d x y : Reg)
  /-- DIV (R203): Writes the signed quotient truncated toward zero, with defined corner cases. -/
  | div (q : Pre) (d x y : Reg)
  /-- DIVN (R203): Writes the unsigned quotient. -/
  | divn (q : Pre) (d x y : Reg)
  /-- REM (R203): Writes the signed remainder with the sign of the dividend. -/
  | rem (q : Pre) (d x y : Reg)
  /-- REMN (R203): Writes the unsigned remainder. -/
  | remn (q : Pre) (d x y : Reg)
  /-- MIN (R202): Writes the signed minimum of two registers. -/
  | min (q : Pre) (d x y : Reg)
  /-- MAX (R202): Writes the signed maximum of two registers. -/
  | max (q : Pre) (d x y : Reg)
  /-- MINN (R202): Writes the unsigned minimum of two registers. -/
  | minn (q : Pre) (d x y : Reg)
  /-- MAXN (R202): Writes the unsigned maximum of two registers. -/
  | maxn (q : Pre) (d x y : Reg)
  /-- CLZ (R202): Writes the count of leading zero bits of gs. -/
  | clz (q : Pre) (d s : Reg)
  /-- CTZ (R202): Writes the count of trailing zero bits of gs. -/
  | ctz (q : Pre) (d s : Reg)
  /-- POPC (R202): Writes the number of set bits of gs. -/
  | popc (q : Pre) (d s : Reg)
  /-- BREV (R202): Writes gs with its 64 bits reversed. -/
  | brev (q : Pre) (d s : Reg)
  /-- MOV (R164): Copies gs with its tag into gd. -/
  | mov (q : Pre) (d s : Reg)
  /-- SEL (R204): Writes x when f0 is set, otherwise y. -/
  | sel (q : Pre) (d x y : Reg)
  /-- EXTS (R204): Sign-extends the low W bits of gs. -/
  | exts (q : Pre) (f : Code) (d s : Reg)
  /-- EXTZ (R204): Zero-extends the low W bits of gs. -/
  | extz (q : Pre) (f : Code) (d s : Reg)
  /-- CMP_EQ (R206): Sets flag k when gs equals gt. -/
  | cmpEq (q : Pre) (k : Flag) (x y : Reg)
  /-- CMP_LT (R206): Sets flag k when gs is less than gt as signed integers. -/
  | cmpLt (q : Pre) (k : Flag) (x y : Reg)
  /-- CMP_LTN (R206): Sets flag k when gs is less than gt as unsigned integers. -/
  | cmpLtn (q : Pre) (k : Flag) (x y : Reg)
  /-- CMP_TST (R206): Sets flag k when gs AND gt is non-zero. -/
  | cmpTst (q : Pre) (k : Flag) (x y : Reg)
  /-- BFX (R205): Extracts a bit field of gs described by gt, sign- or zero-extended. -/
  | bfx (q : Pre) (d s t : Reg)
  /-- BFI (R205): Inserts the low bits of gs into a field of gd described by gt. -/
  | bfi (q : Pre) (d s t : Reg)
  /-- ADDI (R208): Adds a sign-extended immediate to gd. -/
  | addi (q : Pre) (d : Reg) (i : W64)
  /-- ANDI (R208): ANDs gd with a sign-extended immediate. -/
  | andi (q : Pre) (d : Reg) (i : W64)
  /-- ORI (R208): ORs gd with a sign-extended immediate. -/
  | ori (q : Pre) (d : Reg) (i : W64)
  /-- XORI (R208): Exclusive-ORs gd with a sign-extended immediate. -/
  | xori (q : Pre) (d : Reg) (i : W64)
  /-- SHLI (R208): Shifts gd left by the immediate's low six bits. -/
  | shli (q : Pre) (d : Reg) (i : W64)
  /-- SHRI (R208): Shifts gd right logically by the immediate's low six bits. -/
  | shri (q : Pre) (d : Reg) (i : W64)
  /-- SARI (R208): Shifts gd right arithmetically by the immediate's low six bits. -/
  | sari (q : Pre) (d : Reg) (i : W64)
  /-- LI (R208): Loads a sign-extended immediate into gd. -/
  | li (q : Pre) (d : Reg) (i : W64)
  /-- HOLD (R209): Delays the thread's next instruction by n cycles and changes no state. -/
  | hold (q : Pre) (i : W64)
  /-- JMP (R211): Jumps to a parcel offset relative to the instruction. -/
  | jmp (q : Pre) (i : W64)
  /-- BF (R211): Branches when flag k is clear. -/
  | bf (q : Pre) (k : Flag) (i : W64)
  /-- BT (R211): Branches when flag k is set. -/
  | bt (q : Pre) (k : Flag) (i : W64)
  /-- CALL (R211): Writes the return address into g1 and jumps relative. -/
  | call (q : Pre) (i : W64)
  /-- JR (R211): Jumps to the address in gs. -/
  | jr (q : Pre) (s : Reg)
  /-- CALLR (R211): Writes the return address into g1 and jumps to the address in gs. -/
  | callr (q : Pre) (s : Reg)
  /-- RET (R211): Jumps to the address in g1. -/
  | ret (q : Pre)
  /-- LOOP (R212): Decrements the count register and branches back over the body while the count exceeds 1. -/
  | loop (q : Pre) (d : Reg) (i : W64)
  /-- FAND (R207): Writes the AND of two flags. -/
  | fand (q : Pre) (d x y : Flag)
  /-- FOR (R207): Writes the OR of two flags. -/
  | flagOr (q : Pre) (d x y : Flag)
  /-- FXOR (R207): Writes the exclusive OR of two flags. -/
  | fxor (q : Pre) (d x y : Flag)
  /-- FNOT (R207): Writes the complement of a flag. -/
  | fnot (q : Pre) (d s : Flag)
  /-- RDC (R181): Reads a control register, or a banked z register while HANDLER is set, into gd. -/
  | rdc (q : Pre) (d : Reg) (i : W64)
  /-- WRC (R181): Writes gd into a control register under the rules of its entry. -/
  | wrc (q : Pre) (d : Reg) (i : W64)
  /-- LDL (R135): Loads from the block's local window at a displacement from a local capability. -/
  | ldl (q : Pre) (f : Code) (d s : Reg) (i : W64)
  /-- LDL_INDEX (R135): Loads from the local window at a scaled register index. -/
  | ldlIndex (q : Pre) (f : Code) (d s t : Reg)
  /-- STL (R135): Stores into the local window at a displacement, nibble writes being indivisible read-modify-writes. -/
  | stl (q : Pre) (f : Code) (d s : Reg) (i : W64)
  /-- STL_INDEX (R135): Stores into the local window at a scaled register index. -/
  | stlIndex (q : Pre) (f : Code) (d s t : Reg)
  /-- LDG (R110): Loads from global memory at a displacement under POL, blocking only its thread. -/
  | ldg (q : Pre) (f : Code) (d s : Reg) (i : W64)
  /-- LDG_POLICY (R110): Loads from global memory using the policy word in gt. -/
  | ldgPolicy (q : Pre) (f : Code) (d s t : Reg) (i : W64)
  /-- LDG_INDEX (R110): Loads from global memory at a scaled register index. -/
  | ldgIndex (q : Pre) (f : Code) (d s t : Reg)
  /-- STG (R110): Posts a counted global store at a displacement. -/
  | stg (q : Pre) (f : Code) (d s : Reg) (i : W64)
  /-- STG_POLICY (R110): Posts a global store using the policy word in gt. -/
  | stgPolicy (q : Pre) (f : Code) (d s t : Reg) (i : W64)
  /-- STG_INDEX (R110): Posts a global store at a scaled register index. -/
  | stgIndex (q : Pre) (f : Code) (d s t : Reg)
  /-- CINC (R164): Moves a capability's cursor by an immediate, clearing the tag when it leaves the representable region. -/
  | cinc (q : Pre) (d s : Reg) (i : W64)
  /-- CINC_REG (R164): Moves a capability's cursor by the value in gt. -/
  | cincReg (q : Pre) (d s t : Reg)
  /-- CSETB (R164): Derives a capability whose bounds start at the cursor with an immediate length. -/
  | csetb (q : Pre) (d s : Reg) (i : W64)
  /-- CSETB_REG (R164): Derives a capability whose bounds start at the cursor with the length in gt. -/
  | csetbReg (q : Pre) (d s t : Reg)
  /-- CPERM (R164): Derives a capability with permissions masked by an immediate, keeping its kind. -/
  | cperm (q : Pre) (d s : Reg) (i : W64)
  /-- CPERM_REG (R164): Derives a capability with permissions masked by gt. -/
  | cpermReg (q : Pre) (d s t : Reg)
  /-- CGET_BASE (R164): Returns the decoded base of a capability. -/
  | cgetBase (q : Pre) (d s : Reg)
  /-- CGET_TOP (R164): Returns the decoded top of a capability. -/
  | cgetTop (q : Pre) (d s : Reg)
  /-- CGET_PERM (R164): Returns the permission bits of a capability. -/
  | cgetPerm (q : Pre) (d s : Reg)
  /-- CGET_TAG (R164): Returns the tag bit of a register. -/
  | cgetTag (q : Pre) (d s : Reg)
  /-- FADD (R214): Adds floating-point scalars or lanes, rounded under FRM. -/
  | fadd (q : Pre) (f : Code) (d x y : Reg)
  /-- FSUB (R214): Subtracts floating-point scalars or lanes. -/
  | fsub (q : Pre) (f : Code) (d x y : Reg)
  /-- FMUL (R214): Multiplies floating-point scalars or lanes. -/
  | fmul (q : Pre) (f : Code) (d x y : Reg)
  /-- FDIV (R214): Divides FP32 scalars, correctly rounded. -/
  | fdiv (q : Pre) (f : Code) (d x y : Reg)
  /-- FMA (R214): Computes gs times gt plus gd, rounded once. -/
  | fma (q : Pre) (f : Code) (d s t : Reg)
  /-- FMS (R214): Computes gs times gt minus gd, rounded once. -/
  | fms (q : Pre) (f : Code) (d s t : Reg)
  /-- FNMA (R214): Computes the negated product minus gd, rounded once. -/
  | fnma (q : Pre) (f : Code) (d s t : Reg)
  /-- FNMS (R214): Computes the negated product plus gd, rounded once. -/
  | fnms (q : Pre) (f : Code) (d s t : Reg)
  /-- FMIN (R214): Writes the lesser floating-point value with defined NaN and zero ordering. -/
  | fmin (q : Pre) (f : Code) (d x y : Reg)
  /-- FMAX (R214): Writes the greater floating-point value with defined NaN and zero ordering. -/
  | fmax (q : Pre) (f : Code) (d x y : Reg)
  /-- FABS (R214): Clears the sign bit of each value. -/
  | fabs (q : Pre) (f : Code) (d s : Reg)
  /-- FNEG (R214): Inverts the sign bit of each value. -/
  | fneg (q : Pre) (f : Code) (d s : Reg)
  /-- FCMP_EQ (R215): Writes a flag or lane masks for equality. -/
  | fcmpEq (q : Pre) (f : Code) (d x y : Reg)
  /-- FCMP_LT (R215): Writes a flag or lane masks for less-than. -/
  | fcmpLt (q : Pre) (f : Code) (d x y : Reg)
  /-- FCMP_LE (R215): Writes a flag or lane masks for less-or-equal. -/
  | fcmpLe (q : Pre) (f : Code) (d x y : Reg)
  /-- FCMP_UN (R215): Writes a flag or lane masks for unordered operands. -/
  | fcmpUn (q : Pre) (f : Code) (d x y : Reg)
  /-- FCVT (R218): Converts a scalar or vector lanes from the source format in t to the destination format in XP. -/
  | fcvt (q : Pre) (f : Code) (vec : Bool) (d s : Reg) (src : Code)
  /-- FRCP (R219): Writes the correctly rounded reciprocal. -/
  | frcp (q : Pre) (f : Code) (d s : Reg)
  /-- FRSQ (R219): Writes the correctly rounded reciprocal square root. -/
  | frsq (q : Pre) (f : Code) (d s : Reg)
  /-- FEXP2 (R219): Writes the correctly rounded power of two. -/
  | fexp2 (q : Pre) (f : Code) (d s : Reg)
  /-- FLOG2 (R219): Writes the correctly rounded base-2 logarithm. -/
  | flog2 (q : Pre) (f : Code) (d s : Reg)
  /-- FSIG (R219): Writes the correctly rounded logistic sigmoid. -/
  | fsig (q : Pre) (f : Code) (d s : Reg)
  /-- FSQRT (R219): Writes the correctly rounded square root. -/
  | fsqrt (q : Pre) (f : Code) (d s : Reg)
  /-- FTANH (R219): Writes the correctly rounded hyperbolic tangent. -/
  | ftanh (q : Pre) (f : Code) (d s : Reg)
  /-- SCALE (R220): Multiplies each element by a valid FP32 scale from gt, faulting precisely on an invalid scale. -/
  | scale (q : Pre) (f : Code) (d s t : Reg)
  /-- VRED_ADD (R221): Reduces the lanes of a group by a pairwise addition tree. -/
  | vredAdd (q : Pre) (f : Code) (d s : Reg)
  /-- VRED_MIN (R221): Reduces the lanes of a group to their minimum by a tree. -/
  | vredMin (q : Pre) (f : Code) (d s : Reg)
  /-- VRED_MAX (R221): Reduces the lanes of a group to their maximum by a tree. -/
  | vredMax (q : Pre) (f : Code) (d s : Reg)
  /-- VRED_ADDX (R221): Writes the exact sum of all lanes rounded once. -/
  | vredAddx (q : Pre) (f : Code) (d s : Reg)
  /-- VBCAST (R222): Broadcasts a scalar register into every lane of a group. -/
  | vbcast (q : Pre) (f : Code) (d s : Reg)
  /-- VPERM (R222): Permutes lanes by the indices in group t. -/
  | vperm (q : Pre) (f : Code) (d s t : Reg)
  /-- VSHUF (R222): Interleaves the low halves of two groups. -/
  | vshuf (q : Pre) (f : Code) (d s t : Reg)
  /-- VSLIDE (R222): Slides lanes by a signed count, filling with zero. -/
  | vslide (q : Pre) (f : Code) (d s t : Reg)
  /-- VSEL (R222): Selects lanes or bits from two groups under the mask held in gd. -/
  | vsel (q : Pre) (f : Code) (d s t : Reg)
  /-- VIADD (R223): Adds integer lanes modulo the lane width. -/
  | viadd (q : Pre) (f : Code) (d x y : Reg)
  /-- VISUB (R223): Subtracts integer lanes modulo the lane width. -/
  | visub (q : Pre) (f : Code) (d x y : Reg)
  /-- VIMUL (R223): Multiplies integer lanes modulo the lane width. -/
  | vimul (q : Pre) (f : Code) (d x y : Reg)
  /-- VIMAC (R223): Adds the lane products of gs and gt to gd. -/
  | vimac (q : Pre) (f : Code) (d s t : Reg)
  /-- VAND (R223): ANDs two 512-bit groups. -/
  | vand (q : Pre) (f : Code) (d x y : Reg)
  /-- VOR (R223): ORs two 512-bit groups. -/
  | vor (q : Pre) (f : Code) (d x y : Reg)
  /-- VXOR (R223): Exclusive-ORs two 512-bit groups. -/
  | vxor (q : Pre) (f : Code) (d x y : Reg)
  /-- VSHL (R223): Shifts each lane left or right by a signed per-lane count. -/
  | vshl (q : Pre) (f : Code) (d x y : Reg)
  /-- VLDL (R136): Loads 64 bytes of the local window into a register group. -/
  | vldl (q : Pre) (f : Code) (d s : Reg) (i : W64)
  /-- VSTL (R136): Stores a register group as 64 bytes of the local window. -/
  | vstl (q : Pre) (f : Code) (d s : Reg) (i : W64)
  /-- VGATH (R137): Gathers lanes from local memory at indexed offsets after checking every lane. -/
  | vgath (q : Pre) (f : Code) (d s t : Reg)
  /-- VSCAT (R137): Scatters lanes to local memory at indexed offsets in ascending lane order. -/
  | vscat (q : Pre) (f : Code) (d s t : Reg)
  /-- ATOM_ADD (R113): Atomically adds at the home and returns the old value. -/
  | atomAdd (q : Pre) (m : BitVec 2) (d s t : Reg)
  /-- ATOM_MIN (R113): Atomically stores the signed minimum and returns the old value. -/
  | atomMin (q : Pre) (m : BitVec 2) (d s t : Reg)
  /-- ATOM_MAX (R113): Atomically stores the signed maximum and returns the old value. -/
  | atomMax (q : Pre) (m : BitVec 2) (d s t : Reg)
  /-- ATOM_MINN (R113): Atomically stores the unsigned minimum and returns the old value. -/
  | atomMinn (q : Pre) (m : BitVec 2) (d s t : Reg)
  /-- ATOM_MAXN (R113): Atomically stores the unsigned maximum and returns the old value. -/
  | atomMaxn (q : Pre) (m : BitVec 2) (d s t : Reg)
  /-- ATOM_AND (R113): Atomically ANDs at the home and returns the old value. -/
  | atomAnd (q : Pre) (m : BitVec 2) (d s t : Reg)
  /-- ATOM_OR (R113): Atomically ORs at the home and returns the old value. -/
  | atomOr (q : Pre) (m : BitVec 2) (d s t : Reg)
  /-- ATOM_XOR (R113): Atomically exclusive-ORs at the home and returns the old value. -/
  | atomXor (q : Pre) (m : BitVec 2) (d s t : Reg)
  /-- ATOM_XCHG (R113): Atomically exchanges memory with the operand. -/
  | atomXchg (q : Pre) (m : BitVec 2) (d s t : Reg)
  /-- ATOM_CAS (R113): Atomically compares with gd and stores the operand on equality, returning the old value. -/
  | atomCas (q : Pre) (m : BitVec 2) (d s t : Reg)
  /-- ATOM_MINP (R113): Atomically stores the unsigned minimum of packed weight-index words. -/
  | atomMinp (q : Pre) (d s t : Reg)
  /-- ATOM_ST4 (R113): Atomically replaces one nibble of a byte and returns the old byte. -/
  | atomSt4 (q : Pre) (d s t : Reg)
  /-- RED_ADD (R113): Posts an atomic add at the home with no result. -/
  | redAdd (q : Pre) (m : BitVec 2) (s t : Reg)
  /-- RED_MIN (R113): Posts an atomic signed minimum. -/
  | redMin (q : Pre) (m : BitVec 2) (s t : Reg)
  /-- RED_MAX (R113): Posts an atomic signed maximum. -/
  | redMax (q : Pre) (m : BitVec 2) (s t : Reg)
  /-- RED_MINN (R113): Posts an atomic unsigned minimum. -/
  | redMinn (q : Pre) (m : BitVec 2) (s t : Reg)
  /-- RED_MAXN (R113): Posts an atomic unsigned maximum. -/
  | redMaxn (q : Pre) (m : BitVec 2) (s t : Reg)
  /-- RED_AND (R113): Posts an atomic AND. -/
  | redAnd (q : Pre) (m : BitVec 2) (s t : Reg)
  /-- RED_OR (R113): Posts an atomic OR. -/
  | redOr (q : Pre) (m : BitVec 2) (s t : Reg)
  /-- RED_XOR (R113): Posts an atomic exclusive OR. -/
  | redXor (q : Pre) (m : BitVec 2) (s t : Reg)
  /-- RED_XCHG (R113): Posts an atomic store of the operand. -/
  | redXchg (q : Pre) (m : BitVec 2) (s t : Reg)
  /-- RED_MINP (R113): Posts an atomic unsigned minimum of packed weight-index words. -/
  | redMinp (q : Pre) (s t : Reg)
  /-- RED_ST4 (R113): Posts an atomic replacement of one nibble of a byte. -/
  | redSt4 (q : Pre) (s t : Reg)
  /-- GATH (R115): Reads up to eight words of one page at their homes into local memory, completing a token. -/
  | gath (q : Pre) (f : Code) (d s : Reg)
  /-- PREF_SLICE (R116): Installs up to 64 named lines in their home slices without faulting. -/
  | prefSlice (q : Pre) (s t : Reg) (i : W64)
  /-- PREF_STAGE (R116): Places up to 64 named lines in their homes' staging buffers for the core. -/
  | prefStage (q : Pre) (s t : Reg) (i : W64)
  /-- FENCE (R276): Orders earlier reads and writes before later accesses at a scope and acquires the thread's engine work. -/
  | fence (q : Pre) (sc : BitVec 3)
  /-- REL (R276): Releases the thread's earlier accesses at a scope, closing the phase at die scope or wider. -/
  | rel (q : Pre) (sc : BitVec 3)
  /-- ACQ (R276): Orders the thread's earlier reads before its later accesses at a scope. -/
  | acq (q : Pre) (sc : BitVec 3)
  /-- LDGV (R111): Loads 64 bytes of global memory into a register group. -/
  | ldgv (q : Pre) (d s : Reg) (i : W64)
  /-- STGV (R111): Stores a register group as 64 bytes of global memory. -/
  | stgv (q : Pre) (d s : Reg) (i : W64)
  /-- COPY_LIN (R146): Queues a linear copy of n bytes on the copy engine with a token. -/
  | copyLin (q : Pre) (d s : Reg)
  /-- COPY_2D (R146): Queues a strided two-dimensional copy on the copy engine. -/
  | copy2d (q : Pre) (d s : Reg)
  /-- COPY_LIST (R146): Queues an index-list gather or scatter on the copy engine. -/
  | copyList (q : Pre) (d s : Reg)
  /-- COPY_FILL (R146): Queues a fill of n bytes with an 8-byte pattern. -/
  | copyFill (q : Pre) (d s : Reg)
  /-- DLOAD (R124): Queues a copy-engine transfer into the OPEN Damask slice with a token. -/
  | dload (q : Pre) (d s : Reg)
  /-- DSEAL (R125): Starts sealing the Damask slice and stalls until it is SEALED. -/
  | dseal (q : Pre) (s : Reg)
  /-- DOPEN (R125): Starts opening the Damask slice and stalls until it is OPEN. -/
  | dopen (q : Pre) (s : Reg)
  /-- DSTAT (R125): Returns DSTATE. -/
  | dstat (q : Pre) (d : Reg)
  /-- DWIN (R126): Returns the wait and length of a bank group's next refresh window. -/
  | dwin (q : Pre) (d s : Reg)
  /-- RECV (R150): Removes the oldest message for the slot into a group, blocking while none is present. -/
  | recv (q : Pre) (d t : Reg)
  /-- SENDM (R149): Sends one to four words to a thread slot and returns the delivery status. -/
  | sendm (q : Pre) (d s t : Reg)
  /-- MFMT (R232): Returns the core's latest format word and enqueues an acceptable new one, or refuses it. -/
  | mfmt (q : Pre) (d s : Reg)
  /-- MM (R235): Checks and queues a matrix multiply-accumulate into the core's tile with a token. -/
  | mm (q : Pre) (d s : Reg)
  /-- MMZ (R235): Checks and queues a matrix multiply that first zeroes its tile region. -/
  | mmz (q : Pre) (d s : Reg)
  /-- MDRAIN (R239): Checks and queues a drain of a tile region to local memory in a chosen format. -/
  | mdrain (q : Pre) (d s : Reg)
  /-- MACC_LOAD (R240): Loads the whole tile from local memory, stalling until done. -/
  | maccLoad (q : Pre) (s : Reg)
  /-- MACC_STORE (R240): Stores the whole tile to local memory, stalling until done. -/
  | maccStore (q : Pre) (s : Reg)
  /-- MACC_CLEAR (R240): Zeroes the whole tile, stalling until done. -/
  | maccClear (q : Pre)
  /-- WALK (R254): Checks and queues a tree walk of up to 128 rows from a root with a token. -/
  | walk (q : Pre) (d s : Reg)
  /-- WRESUME (R254): Checks and queues a walk that resumes rows whose records are ACTIVE or FAULTED. -/
  | wresume (q : Pre) (d s : Reg)
  /-- WSTAT (R258): Queues a read of the context's walk record, answered at the queue head. -/
  | wstat (q : Pre) (d : Reg)
  /-- SORT (R262): Checks and queues a Sorter top-k routing pass with a token. -/
  | sort (q : Pre) (d s : Reg)
  /-- SORTC (R262): Checks and queues a Sorter pass that also lists mis-routed tokens. -/
  | sortc (q : Pre) (d s : Reg)
  /-- ALLOT (R166): Grows the thread's register allotment if the core has room. -/
  | allot (q : Pre) (d s : Reg)
  /-- SHRINK (R166): Shrinks the allotment after pending writes to released registers land. -/
  | shrink (q : Pre) (d s : Reg)
  /-- BIND (R169): Checks every element and binds g8-g15 to a read or write stream. -/
  | bind (q : Pre) (d s : Reg)
  /-- BINDP (R172): Binds g8-g15 to an in or out port of one side of the core. -/
  | bindp (q : Pre) (d : Reg) (port : BitVec 2) (out : Bool)
  /-- UNBIND (R174): Waits for write-stream elements, discards fetched ones and unbinds the register. -/
  | unbind (q : Pre) (d : Reg)
  /-- BSTAT (R175): Returns the kind and position of a bindable register without popping. -/
  | bstat (q : Pre) (d s : Reg)
  /-- LAUNCH (R290): Releases at module scope, validates a launch record, binds its groups and queues it for placement. -/
  | launch (q : Pre) (d s : Reg)
  /-- FORK (R294): Splits an iteration range over the issuer and recruits on idle cores. -/
  | fork (q : Pre) (s : Reg)
  /-- JOIN (R295): Waits for engine work, releases at module scope and retires or continues at the join cell. -/
  | join (q : Pre) (s : Reg)
  /-- BAR (R301): Arrives at a group barrier with a release, optionally requesting a counter gather. -/
  | bar (q : Pre) (d s : Reg)
  /-- BARX (R301): Arrives at a group barrier that leads into an exchange phase. -/
  | barx (q : Pre) (s : Reg)
  /-- XSEL (R303): Installs the route entries for the core's router and returns their count. -/
  | xsel (q : Pre) (d s t : Reg)
  /-- XSEND (R304): Places a word on the mesh at the current exchange cycle. -/
  | xsend (q : Pre) (s : Reg)
  /-- XEND (R305): Arrives at the end of the exchange phase. -/
  | xend (q : Pre)
  /-- WAITV (R306): Reads a global word and, if it equals gt, waits at the home for a write or a timeout. -/
  | waitv (q : Pre) (d s t : Reg)
  /-- YIELD (R307): Makes the thread the last choice among the core's ready threads for one round. -/
  | yield (q : Pre)
  /-- SEAM (R314): Forms a seam of cores along a row and copies the head's state into each member. -/
  | seam (q : Pre) (d s : Reg)
  /-- PANEL (R314): Forms a rectangular panel of seamed cores. -/
  | panel (q : Pre) (d s : Reg)
  /-- SEAMEND (R315): Ends the seam stream under the head's guard, retiring each member after a module release. -/
  | seamend (q : Pre)
  /-- SPOS (R316): Returns SEAMPOS. -/
  | spos (q : Pre) (d : Reg)
  /-- SRESUME (R319): Leaves a SEAMFRAY handler and restarts the stream from the lowest resume index. -/
  | sresume (q : Pre)
  /-- TRAP (R336): Completes and enters the handler with CAUSE TRAP and the function in TVAL. -/
  | trap (q : Pre) (fn : BitVec 10)
  /-- TRET (R330): Returns from a handler, restoring mode and exchange state and freeing the late fault's ring entry. -/
  | tret (q : Pre)
  /-- HCALL (R336): In user mode, completes and enters the handler with CAUSE HCALL. -/
  | hcall (q : Pre) (fn : BitVec 10)
  /-- HCALL_SYSTEM (R337): In supervisor mode, releases, sends a request to system software and waits for its reply. -/
  | hcallSystem (q : Pre) (fn : BitVec 10)
  /-- HCALL_RESIZE (R348): Asks Rolnis to resize the bolt to target cluster and slice counts by a deadline. -/
  | hcallResize (q : Pre)
  /-- HCALL_RETURN_SWATCH (R348): Returns a swatch of the bolt to Rolnis. -/
  | hcallReturnSwatch (q : Pre)
  /-- HCALL_ATTEST (R374): Writes a signed attestation report of the bolt. -/
  | hcallAttest (q : Pre)
  /-- HCALL_DAMASK_TEMPLATE (R350): Registers the bolt's Damask template. -/
  | hcallDamaskTemplate (q : Pre)
  /-- MARK (R338): Places a mark record in the trace ring and counts the marks event. -/
  | mark (q : Pre) (fn : BitVec 10)
  /-- XINV (R85): Drops translations, writes back and drops lines, and clears claims over a VA range in every slice of the bolt. -/
  | xinv (q : Pre) (d s : Reg)
  /-- IDLE (R339): Stops the thread's issue until a message, token, late fault or resume. -/
  | idle (q : Pre)
  /-- IDLE_WAKE (R339): An idle thread resumes issue when a message, token completion, late fault or bolt resume arrives. -/
  | idleWake (tid : Nat)
  /-- HCALL_REPLY (R337): System software's reply ends a supervisor HCALL wait, writing g4 and performing ACQ.module. -/
  | hcallReply (tid : Nat) (g4 : W64) (regs : List (Nat × W64)) (mem : List Host.Cell)
  /-- TRAP_ENTRY (R327): A thread enters its handler, setting CAUSE, TVAL, TPC, supervisor mode and HANDLER. -/
  | trapEntry (tid : Nat) (code : BitVec 8) (tval : W64)
  /-- LATE_FAULT_TAKEN (R329): At an instruction boundary with HANDLER clear, the thread takes its first recorded late fault. -/
  | lateFaultTaken (tid : Nat)
  /-- STORE_FAULT_ARRIVAL (R332): A store fault from a destination is queued in the core's store-fault queue, or sets the lost bit when full. -/
  | storeFaultArrival (n : Nat)
  /-- TOKEN_COMPLETION (R139): An engine's completion message writes the status word into the token register and may record a late fault. -/
  | tokenCompletion (n : Nat)
  /-- LOAD_REPLY (R57): A variable-latency value arrives and is written into its scoreboarded register. -/
  | loadReply (n : Nat)
  /-- MESSAGE_DELIVERY (R149): A message arrives at the target core and is enqueued or refused as full or unoccupied. -/
  | messageDelivery (n : Nat)
  /-- PORT_WORD_ARRIVAL (R173): A pushed word enters a neighbour's arrival queue for the opposite side. -/
  | portWordArrival (n : Nat)
  /-- STREAM_ELEMENT_FETCH (R171): A bound read stream fetches an element as a relaxed load. -/
  | streamElementFetch (tid : Nat) (r : Reg)
  /-- LOCAL_BANK_GRANT (R128): Each local memory bank grants one requester per cycle by fixed priority and core round-robin. -/
  | localBankGrant (bank : BankAt)
  /-- CHANNEL_PACKET_SEND (R87): A writer holding a channel's circulating token sends one packet and passes the token. -/
  | channelPacketSend (from_ : ClassQueue)
  /-- BRIDGE_FORWARD (R89): The far die-bridge port writes a crossing packet to the home's channel in per-source order. -/
  | bridgeForward (to_ : ClassQueue)
  /-- HOME_REQUEST (R92): A home slice performs one request for a line from its cache, staging buffer or DRAM. -/
  | homeRequest (slice : Nat)
  /-- RETRY_REISSUE (R282): A network interface reissues a request that was answered RETRY. -/
  | retryReissue (slice : Nat)
  /-- PHASE_ANSWER (R101): A destination answers once its arrival count for the closed phase reaches the sent count. -/
  | phaseAnswer (core : Nat) (dest : Nat)
  /-- PHASE_COMPLETE (R101): The last answer completes the phase, letting the waiting release complete. -/
  | phaseComplete (core : Nat)
  /-- PIN_RECALL (R282): 4,358 ticks after a pin began, the home sends a recall and the pinning core closes its phase. -/
  | pinRecall (slice : Nat) (line : Nat)
  /-- PIN_END (R282): When the recalled phase close completes the pin ends and recorded requesters are served in order. -/
  | pinEnd (slice : Nat) (line : Nat)
  /-- LOCAL_WINDOW_ACCESS (R80): A local-window access reaches the target cluster's network interface and is checked and performed. -/
  | localWindowAccess (at_ : ClassQueue)
  /-- FABRIC_EXPORT_REQUEST (R82): An exporter translates and performs a fabric-window request at its own home. -/
  | fabricExportRequest (from_ : PeerGrant) (off n op : Nat) (data : PeerData)
  /-- GRANT_RECALL (R83): An exporter recalls a grant and refuses later requests for it. -/
  | grantRecall (grant : Nat)
  /-- RECALL_ACK (R83): The importer acknowledges a recall after its accepted accesses finish, freeing the range. -/
  | recallAck (bolt slot : Nat)
  /-- RECALL_TIMEOUT (R83): After 100,000 ticks without acknowledgement the grant identifier is retired. -/
  | recallTimeout (grant : Nat)
  /-- REFRESH_START (R122): A bank group's 1,024-tick refresh window begins and B reads to it stall. -/
  | refreshStart (cluster : Nat) (group : BitVec 3)
  /-- REFRESH_END (R122): A refresh window ends and stalled reads and writes of the group continue. -/
  | refreshEnd (cluster : Nat) (group : BitVec 3)
  /-- DAMASK_SEALED (R120): A SEALING slice becomes SEALED once LOADS reaches zero. -/
  | damaskSealed (cluster : Nat)
  /-- DAMASK_OPENED (R120): An OPENING slice becomes OPEN once READS reaches zero. -/
  | damaskOpened (cluster : Nat)
  /-- COPY_ENGINE_UNIT (R146): The copy engine moves one 64-byte unit of an in-progress command, completing it after the last. -/
  | copyEngineUnit (cluster : Nat)
  /-- DLOAD_UNIT (R124): The copy engine writes one 64-byte unit into the Damask slice, completing or stopping on a fault. -/
  | dloadUnit (cluster : Nat)
  /-- GATH_COMPLETE (R115): The gathered words are written to local memory and the token completes. -/
  | gathComplete (cluster : Nat)
  /-- MFMT_CONTEXT_CHANGE (R232): A queued format change takes effect when it reaches the head of the core's queue. -/
  | mfmtContextChange (core : Nat)
  /-- WSTAT_AT_HEAD (R258): A WSTAT at the queue head writes the walk record into its register. -/
  | wstatAtHead (core : Nat)
  /-- ARRAY_GRANT (R226): The free array grants the next context in cyclic order and starts its request. -/
  | arrayGrant (cluster : Nat)
  /-- MATRIX_REQUEST_COMPLETE (R236): A granted array request writes its results, completes its token and may record a late fault. -/
  | matrixRequestComplete (core : Nat)
  /-- SORTER_ACCEPT (R259): The die's Sorter accepts a request from a context queue when it has a free place. -/
  | sorterAccept (core : Nat)
  /-- SORTER_RUN (R263): The Sorter performs an accepted request token by token and completes its token. -/
  | sorterRun (die : Nat)
  /-- BLOCK_PLACEMENT (R292): The launch unit places the next block of the head launch on a cluster it fits. -/
  | blockPlacement (bolt : Nat)
  /-- BARRIER_DEPART (R301): A waiting member departs a finished generation with an acquire. -/
  | barrierDepart (tid : Nat)
  /-- EXCHANGE_ENTER (R302): Once the members' copy engines are idle, every member enters the exchange phase at cycle 0. -/
  | exchangeEnter (bolt : Nat) (group : Nat)
  /-- EXCHANGE_WORD_HOP (R304): A router forwards an exchange word by its route entry or drops it. -/
  | exchangeWordHop (n : Nat)
  /-- EXCHANGE_END (R305): When every member has arrived and every word has landed, XEND completes and SSTEP advances. -/
  | exchangeEnd (bolt : Nat)
  /-- THREAD_EVICT (R299): A thread blocked beyond TICKS is saved into advertised room when a placement waits. -/
  | threadEvict (what : Eviction)
  /-- THREAD_RESTORE (R300): An evicted thread's wake condition fires and it is restored onto a free slot. -/
  | threadRestore (tid : Nat)
  /-- WAITV_WAKE (R306): A write to the watched line ends a WAITV wait and the word is read again. -/
  | waitvWake (tid : Nat)
  /-- WAITV_TIMEOUT (R306): After 65,536 ticks a WAITV wait ends and the word is read again. -/
  | waitvTimeout (tid : Nat)
  /-- SEAM_FORWARD (R309): A seam member executes the head's forwarded instruction at its fixed delay. -/
  | seamForward (tid : Nat)
  /-- SEAMFRAY (R318): When the fray drain completes, the head takes SEAMFRAY. -/
  | seamfray (tid : Nat)
  /-- SEAMEND_HEAD_COMPLETE (R315): When every other member has retired, the head acquires and continues unseamed. -/
  | seamendHeadComplete (tid : Nat)
  /-- PRESS (R346): At a chosen tick, a bolt or block halts, its packets are swept and its contexts saved. -/
  | press (bolt : Nat) (what : PressOf)
  /-- BOLT_RESUME (R346): Restores contexts, reinjects saved packets and restarts cores and seams. -/
  | boltResume (bolt : Nat)
  /-- TAKE_IN (R349): Rolnis starts removing clusters or slices from a bolt. -/
  | takeIn (bolt : Nat) (clusters slices : List Nat)
  /-- LET_OUT (R349): Rolnis adds free clusters or slices to a bolt, writing the Damask template. -/
  | letOut (bolt : Nat) (clusters slices : List Nat)
  /-- BLOCK_MIGRATE (R349): A block on a departing cluster moves at its next exchange boundary or on deadline. -/
  | blockMigrate (bolt block cluster : Nat)
  /-- SHADOW_FETCH (R351): A miss at a shadow home is held while the line is fetched from the old home. -/
  | shadowFetch (slice : Nat) (line : Nat)
  /-- SHADOW_LINE_ARRIVAL (R351): A fetched line arrives, the new home becomes home of record and held requests are performed. -/
  | shadowLineArrival (slice : Nat) (line : Nat)
  /-- SWEEPER (R351): An old home sends a remaining line of a changed home block to its new home. -/
  | sweeper (slice : Nat) (line : Nat)
  /-- SCRUB (R353): Quarantined resources are cleared and then released as free. -/
  | scrub (cluster : Option Nat) (slice : Option Nat)
  /-- RATE_RELEASE (R357): A held request is injected once its class bucket refills above zero. -/
  | rateRelease (cluster : Nat) (cls : BitVec 2)
  /-- THROTTLE_CHANGE (R358): A thermally struck region changes its clock in sixteenths and lost cycles accumulate. -/
  | throttleChange (cluster k : Nat)
  /-- TIMESHARE_SWITCH (R358): At the end of a bolt's time slice Rolnis presses it and gives the shared clusters to the next bolt. -/
  | timeshareSwitch (from_ to_ : Nat) (share : TimeShare)
  /-- WATCHDOG (R359): The eligible-cycle counter reaches its limit, sets FIRED and reports to Rolnis. -/
  | watchdog (bolt : Nat)
  /-- TRIGGER_MATCH (R362): A system-image event matches an armed trigger and its action is applied in each cluster. -/
  | triggerMatch (bolt : Nat) (kind : BitVec 3) (value : BitVec 32)
  /-- DEBUG_STOP (R364): With STOPREQ set, the bolt is pressed at its next exchange boundary and STOPPED set. -/
  | debugStop (bolt : Nat)
  /-- LOCAL_ECC_ERROR (R130): A local-memory read finds an ECC error, corrected and counted or stopping the owner bolt. -/
  | localEccError (what : EccError) (a : Nat) (fatal : Bool)
  /-- SLICE_TAG_PARITY_ERROR (R360): A slice tag parity error stops the bolts naming the slice and invalidates the set. -/
  | sliceTagParityError (slice : Nat) (set : Nat)
  /-- ENGINE_OUT_OF_SERVICE (R325): Rolnis marks an engine out of service or back in service after a hard error. -/
  | engineOutOfService (engine : BitVec 4) (unit : Nat) (out : Bool)
  /-- QCLASS_WRITE (R355): A write of QCLASS waits for earlier accesses when it changes the class. -/
  | qclassWrite (tid : Nat) (v : W64)
  /-- PERMT_WRITE (R345): A supervisor write to PERMT stores only bits naming clusters of the writer's bolt. -/
  | permtWrite (tid : Nat) (j : Nat) (v : W64)
  /-- WDOG_WRITE (R359): A write of WDOG arms the watchdog and resets its counter. -/
  | wdogWrite (tid : Nat) (v : W64)
  /-- RATE_WRITE (R357): A write of RATEn stores rate and burst clamped to Rolnis's ceiling. -/
  | rateWrite (tid : Nat) (j : Nat) (v : W64)
  /-- TRCTL_WRITE (R362): A supervisor write to TRCTL starts, stops, freezes or requests a debug stop. -/
  | trctlWrite (tid : Nat) (v : W64)
  /-- TRRING_WRITE (R361): A write to TRRING while capture is off sets BASE and clears WPTR and WRAP. -/
  | trringWrite (tid : Nat) (v : W64)
  /-- LPREG_WRITE (R133): A privileged write to a protection-unit region takes effect for later grants. -/
  | lpregWrite (tid : Nat) (j : Nat) (v : W64)
  /-- LAYOUT_TABLE_WRITE (R260): A write to a Sorter layout-table word under ownership and mode rules. -/
  | layoutTableWrite (tid : Nat) (j : Nat) (v : W64)
  /-- GROUP_TABLE_WRITE (R289): A supervisor write to a group-table word, ignored for entry 0 or bound entries. -/
  | groupTableWrite (tid : Nat) (j : Nat) (v : W64)
  /-- EVC_WRITE (R368): A write of an event counter stores the value, dropping that cycle's events. -/
  | evcWrite (tid : Nat) (j : Nat) (v : W64)
  /-- EVS_WRITE (R368): A write of an event selector takes effect from the next cycle. -/
  | evsWrite (tid : Nat) (j : Nat) (v : W64)
  /-- CONTROL_REGISTER_WRITE (R177): A write to a control or ring register with no behaviour of its own. -/
  | controlRegisterWrite (tid : Nat) (j : Nat) (v : W64)
  /-- MODULE_RESET (R372): Reset starts GTIME, holds compute cores, verifies and starts Rolnis and releases core (0, 0). -/
  | moduleReset (load : BootLoad)
  /-- SELF_TEST_RELEASE (R372): After both dies report maps, Rolnis runs the self-test on imaged cores, then resets and scrubs. -/
  | selfTestRelease
  /-- BOLT_CREATE (R372): Rolnis verifies a bolt's system image and creates the bolt, taking routers out of the boot state. -/
  | boltCreate (bolt : Nat) (image : BoltImage) (clusters slices swatches : List Nat) (root : Nat)
  /-- PROBE (R384): A boot-state router takes its first probe, sets its coordinates and parent, and forwards probes and a reply. -/
  | probe (core : Nat) (side : BitVec 2)
  /-- REPLY (R384): A boot-state router pushes a reply toward its parent side. -/
  | reply (core : Nat) (side : BitVec 2)
  /-- IMAGE_HEADER (R384): A boot-state router records an image header's count and forwards it. -/
  | imageHeader (core : Nat) (side : BitVec 2)
  /-- IMAGE_DATA (R385): A boot-state router forwards an image data word and writes it to its core's boot area. -/
  | imageData (core : Nat) (side : BitVec 2)
  /-- ACK (R384): A boot-state router pushes an ACK toward its parent side. -/
  | ack (core : Nat) (side : BitVec 2)
  /-- ACK_HOLDER_PUSH (R382): A router pushes the ACK in its holder to the parent side when there is room. -/
  | ackHolderPush (core : Nat)
  /-- MEMORY_REQUEST_FLIT (R376): A receiver delivers a memory-request packet from a fabric lane in sequence order. -/
  | memoryRequestFlit (lane : Nat) (flit : BitVec 256)
  /-- MEMORY_REPLY_FLIT (R376): A receiver delivers a memory-reply packet from a fabric lane. -/
  | memoryReplyFlit (lane : Nat) (flit : BitVec 256)
  /-- GRANT_OR_RECALL_FLIT (R376): A receiver delivers a grant or recall packet. -/
  | grantOrRecallFlit (lane : Nat) (flit : GrantFlit)
  /-- CHECKPOINT_DATA_FLIT (R376): A receiver delivers a checkpoint data packet. -/
  | checkpointDataFlit (lane : Nat) (flit : BitVec 256)
  /-- RESEND_REQUEST (R376): A resend request makes the sender resend a flit, retiring the lane after three failures. -/
  | resendRequest (lane : Nat) (flit : BitVec 256)
  /-- TIME_SYNC (R377): Every 2^20 ticks a module exchanges time-sync flits with the reference and slews GTIME. -/
  | timeSync (flit : Option (Nat × BitVec 256))
  /-- CHECKPOINT (R378): Rolnis presses bolts, streams their swatches with a signed manifest and resumes them. -/
  | checkpoint (act : CheckpointAct)
  /-- POWER_LIMIT_SET (R379): A power limit from the baseboard controller makes Rolnis throttle regions to stay within it. -/
  | powerLimitSet (watts : Nat)
  /-- ROLNIS_RESTART (R335): At the system image's request, Rolnis restarts an escalated thread at a stated PC in supervisor mode with HANDLER cleared, or retires it. -/
  | rolnisRestart (tid : Nat) (pc : Option W64)
  /-- BOLT_END (R313): Rolnis ends a bolt, releasing a seam that is held forever and the bolt's resources. -/
  | boltEnd (bolt : Nat)
  /-- SWATCH_ADD (R68): Rolnis adds a swatch to a bolt and sets its bit in every slice's swatch mask. -/
  | swatchAdd (bolt swatch : Nat)
  /-- DRAM_RESPONSE (R67): A DRAM channel returns a miss fill, or accepts a write-back or no-allocate merge, and the slice frees or installs the staging entry. -/
  | dramResponse (slice : Nat) (i : Nat)
  /-- RECOVERY_NEW_IMAGE (R373): A new image arrives over the management port or sideband while the module waits in recovery. -/
  | recoveryNewImage (image : List (BitVec 8))
  /-- FABRIC_JOIN (R377): A module joins the fabric and, if it owns no bolt, may step its GTIME forward once. -/
  | fabricJoin (act : JoinAct)
  /-- DISCARDED_WORD (R384): A boot-state router takes a word with an unaccepted OP or in an unaccepted state and discards it. -/
  | discardedWord (core : Nat) (side : BitVec 2)
  /-- DISCARDED_FLIT (R375): A received flit of TYPE 7 to 15 is discarded and counted. -/
  | discardedFlit (lane : Nat) (flit : BitVec 256)
  deriving DecidableEq, Repr

end Sys2Proof
end

