-- ==== Sys2Proof/WellFormed.lean ====
section
/-!
DEFINITION. Which instructions the encoding can say: the format codes each accepts (R48, R109, R114, R134, R136, R201, R204,
R217), the ranges of operands and immediates (R44, R45, R388), the prefixes (R43, R51).
-/
namespace Sys2Proof

/-! ## Format codes -/

/-- `.f32` (R48). -/
def okF32 (f : Code) : Bool := f == 19
/-- `.f32`, `.f32.v`, `.f16.v`, `.b16.v` (R201). -/
def okFloat (f : Code) : Bool := [19, 22, 18, 26].contains f.toNat
/-- Integer lane codes (R201). -/
def okIntLane (f : Code) : Bool := [3, 11, 2, 10, 1, 9].contains f.toNat
/-- Codes of FCMP (R201). (assumption 25, DEDUCED) -/
def okFcmp (f : Code) : Bool := okFloat f || okIntLane f
/-- Codes of VRED (R201). -/
def okVred (f : Code) : Bool := [22, 18, 26].contains f.toNat || okIntLane f
/-- Every lane code (R201). -/
def okLane (f : Code) : Bool := okVred f || f == 33
/-- Every lane code and `.v` (R201). -/
def okVector (f : Code) : Bool := okLane f || f == 54
/-- `.i4` to `.i32` (R204). -/
def okExts (f : Code) : Bool := decide (f.toNat ≤ 3)
/-- `.n4` to `.n32` (R204). -/
def okExtz (f : Code) : Bool := decide (8 ≤ f.toNat ∧ f.toNat ≤ 11)
/-- Codes of LDG and STG (R109). -/
def okGlobal (f : Code) : Bool :=
  [1, 2, 3, 4, 9, 10, 11, 12, 49, 50, 51, 52, 18, 26, 19, 53].contains f.toNat
/-- Codes of LDL and STL (R134). -/
def okLocal (f : Code) : Bool := okGlobal f || [0, 8, 48].contains f.toNat
/-- Codes of GATH (R114). -/
def okGath (f : Code) : Bool := [11, 12, 51, 52].contains f.toNat
/-- Formats of FCVT (R217). -/
def okFcvt (vec : Bool) (f : Code) : Bool :=
  [19, 18, 26, 33, 40, 1, 2, 3, 9, 10, 11].contains f.toNat || (!vec && [4, 12].contains f.toNat)
/-- The pairings of an ATOM or RED operation with its width (R104). -/
def okWidth (op : Nat) (m : BitVec 2) : Bool :=
  if op = 10 then m == 1 else if op = 11 then m == 0
  else m == 0 || m == 1 || (m == 2 && decide (5 ≤ op ∧ op ≤ 9))

/-! ## Operands and prefixes -/

/-- `i` is a sign-extended `n`-bit immediate (R44). -/
def fits (i : W64) (n : Nat) : Bool := w64 (sext (i.toNat % 2 ^ n) n) == i
/-- Prefix parcels: at most four (R51), and the fields of an absent XQ at zero. -/
def preOk (q : Pre) : Bool :=
  decide (q.parcels ≤ 5) && (q.xq || (q.h == 0 && !q.gen && !q.inv && q.flag == 0))
/-- Registers d and s without XR are g0 to g15 (R45). -/
def within (q : Pre) (d s : Reg) : Bool := q.xr || (decide (d.toNat < 16) && decide (s.toNat < 16))
/-- The two-address rule (R45). -/
def twoAddress (q : Pre) (d x y : Reg) : Bool := q.xr || (within q d y && x == d)
/-- The compare rule: without XR the second source is g0 (R199). -/
def compared (q : Pre) (x y : Reg) : Bool := q.xr || (decide (x.toNat < 16) && y == 0)
/-- Bindable names (R168). -/
def bindable (r : Reg) : Bool := decide (8 ≤ r.toNat ∧ r.toNat ≤ 15)

/-- Whether the row is a step of the machine rather than an instruction: it has no words. -/
def Instr.isEvent : Instr → Bool
  | .add .. => false
  | .sub .. => false
  | .adc .. => false
  | .sbc .. => false
  | .and .. => false
  | .or .. => false
  | .xor .. => false
  | .andn .. => false
  | .shl .. => false
  | .shr .. => false
  | .sar .. => false
  | .ror .. => false
  | .mul .. => false
  | .mulh .. => false
  | .mulhn .. => false
  | .mulw .. => false
  | .div .. => false
  | .divn .. => false
  | .rem .. => false
  | .remn .. => false
  | .min .. => false
  | .max .. => false
  | .minn .. => false
  | .maxn .. => false
  | .clz .. => false
  | .ctz .. => false
  | .popc .. => false
  | .brev .. => false
  | .mov .. => false
  | .sel .. => false
  | .exts .. => false
  | .extz .. => false
  | .cmpEq .. => false
  | .cmpLt .. => false
  | .cmpLtn .. => false
  | .cmpTst .. => false
  | .bfx .. => false
  | .bfi .. => false
  | .addi .. => false
  | .andi .. => false
  | .ori .. => false
  | .xori .. => false
  | .shli .. => false
  | .shri .. => false
  | .sari .. => false
  | .li .. => false
  | .hold .. => false
  | .jmp .. => false
  | .bf .. => false
  | .bt .. => false
  | .call .. => false
  | .jr .. => false
  | .callr .. => false
  | .ret .. => false
  | .loop .. => false
  | .fand .. => false
  | .flagOr .. => false
  | .fxor .. => false
  | .fnot .. => false
  | .rdc .. => false
  | .wrc .. => false
  | .ldl .. => false
  | .ldlIndex .. => false
  | .stl .. => false
  | .stlIndex .. => false
  | .ldg .. => false
  | .ldgPolicy .. => false
  | .ldgIndex .. => false
  | .stg .. => false
  | .stgPolicy .. => false
  | .stgIndex .. => false
  | .cinc .. => false
  | .cincReg .. => false
  | .csetb .. => false
  | .csetbReg .. => false
  | .cperm .. => false
  | .cpermReg .. => false
  | .cgetBase .. => false
  | .cgetTop .. => false
  | .cgetPerm .. => false
  | .cgetTag .. => false
  | .fadd .. => false
  | .fsub .. => false
  | .fmul .. => false
  | .fdiv .. => false
  | .fma .. => false
  | .fms .. => false
  | .fnma .. => false
  | .fnms .. => false
  | .fmin .. => false
  | .fmax .. => false
  | .fabs .. => false
  | .fneg .. => false
  | .fcmpEq .. => false
  | .fcmpLt .. => false
  | .fcmpLe .. => false
  | .fcmpUn .. => false
  | .fcvt .. => false
  | .frcp .. => false
  | .frsq .. => false
  | .fexp2 .. => false
  | .flog2 .. => false
  | .fsig .. => false
  | .fsqrt .. => false
  | .ftanh .. => false
  | .scale .. => false
  | .vredAdd .. => false
  | .vredMin .. => false
  | .vredMax .. => false
  | .vredAddx .. => false
  | .vbcast .. => false
  | .vperm .. => false
  | .vshuf .. => false
  | .vslide .. => false
  | .vsel .. => false
  | .viadd .. => false
  | .visub .. => false
  | .vimul .. => false
  | .vimac .. => false
  | .vand .. => false
  | .vor .. => false
  | .vxor .. => false
  | .vshl .. => false
  | .vldl .. => false
  | .vstl .. => false
  | .vgath .. => false
  | .vscat .. => false
  | .atomAdd .. => false
  | .atomMin .. => false
  | .atomMax .. => false
  | .atomMinn .. => false
  | .atomMaxn .. => false
  | .atomAnd .. => false
  | .atomOr .. => false
  | .atomXor .. => false
  | .atomXchg .. => false
  | .atomCas .. => false
  | .atomMinp .. => false
  | .atomSt4 .. => false
  | .redAdd .. => false
  | .redMin .. => false
  | .redMax .. => false
  | .redMinn .. => false
  | .redMaxn .. => false
  | .redAnd .. => false
  | .redOr .. => false
  | .redXor .. => false
  | .redXchg .. => false
  | .redMinp .. => false
  | .redSt4 .. => false
  | .gath .. => false
  | .prefSlice .. => false
  | .prefStage .. => false
  | .fence .. => false
  | .rel .. => false
  | .acq .. => false
  | .ldgv .. => false
  | .stgv .. => false
  | .copyLin .. => false
  | .copy2d .. => false
  | .copyList .. => false
  | .copyFill .. => false
  | .dload .. => false
  | .dseal .. => false
  | .dopen .. => false
  | .dstat .. => false
  | .dwin .. => false
  | .recv .. => false
  | .sendm .. => false
  | .mfmt .. => false
  | .mm .. => false
  | .mmz .. => false
  | .mdrain .. => false
  | .maccLoad .. => false
  | .maccStore .. => false
  | .maccClear .. => false
  | .walk .. => false
  | .wresume .. => false
  | .wstat .. => false
  | .sort .. => false
  | .sortc .. => false
  | .allot .. => false
  | .shrink .. => false
  | .bind .. => false
  | .bindp .. => false
  | .unbind .. => false
  | .bstat .. => false
  | .launch .. => false
  | .fork .. => false
  | .join .. => false
  | .bar .. => false
  | .barx .. => false
  | .xsel .. => false
  | .xsend .. => false
  | .xend .. => false
  | .waitv .. => false
  | .yield .. => false
  | .seam .. => false
  | .panel .. => false
  | .seamend .. => false
  | .spos .. => false
  | .sresume .. => false
  | .trap .. => false
  | .tret .. => false
  | .hcall .. => false
  | .hcallSystem .. => false
  | .hcallResize .. => false
  | .hcallReturnSwatch .. => false
  | .hcallAttest .. => false
  | .hcallDamaskTemplate .. => false
  | .mark .. => false
  | .xinv .. => false
  | .idle .. => false
  | .idleWake .. => true
  | .hcallReply .. => true
  | .trapEntry .. => true
  | .lateFaultTaken .. => true
  | .storeFaultArrival .. => true
  | .tokenCompletion .. => true
  | .loadReply .. => true
  | .messageDelivery .. => true
  | .portWordArrival .. => true
  | .streamElementFetch .. => true
  | .localBankGrant .. => true
  | .channelPacketSend .. => true
  | .bridgeForward .. => true
  | .homeRequest .. => true
  | .retryReissue .. => true
  | .phaseAnswer .. => true
  | .phaseComplete .. => true
  | .pinRecall .. => true
  | .pinEnd .. => true
  | .localWindowAccess .. => true
  | .fabricExportRequest .. => true
  | .grantRecall .. => true
  | .recallAck .. => true
  | .recallTimeout .. => true
  | .refreshStart .. => true
  | .refreshEnd .. => true
  | .damaskSealed .. => true
  | .damaskOpened .. => true
  | .copyEngineUnit .. => true
  | .dloadUnit .. => true
  | .gathComplete .. => true
  | .mfmtContextChange .. => true
  | .wstatAtHead .. => true
  | .arrayGrant .. => true
  | .matrixRequestComplete .. => true
  | .sorterAccept .. => true
  | .sorterRun .. => true
  | .blockPlacement .. => true
  | .barrierDepart .. => true
  | .exchangeEnter .. => true
  | .exchangeWordHop .. => true
  | .exchangeEnd .. => true
  | .threadEvict .. => true
  | .threadRestore .. => true
  | .waitvWake .. => true
  | .waitvTimeout .. => true
  | .seamForward .. => true
  | .seamfray .. => true
  | .seamendHeadComplete .. => true
  | .press .. => true
  | .boltResume .. => true
  | .takeIn .. => true
  | .letOut .. => true
  | .blockMigrate .. => true
  | .shadowFetch .. => true
  | .shadowLineArrival .. => true
  | .sweeper .. => true
  | .scrub .. => true
  | .rateRelease .. => true
  | .throttleChange .. => true
  | .timeshareSwitch .. => true
  | .watchdog .. => true
  | .triggerMatch .. => true
  | .debugStop .. => true
  | .localEccError .. => true
  | .sliceTagParityError .. => true
  | .engineOutOfService .. => true
  | .qclassWrite .. => true
  | .permtWrite .. => true
  | .wdogWrite .. => true
  | .rateWrite .. => true
  | .trctlWrite .. => true
  | .trringWrite .. => true
  | .lpregWrite .. => true
  | .layoutTableWrite .. => true
  | .groupTableWrite .. => true
  | .evcWrite .. => true
  | .evsWrite .. => true
  | .controlRegisterWrite .. => true
  | .moduleReset .. => true
  | .selfTestRelease .. => true
  | .boltCreate .. => true
  | .probe .. => true
  | .reply .. => true
  | .imageHeader .. => true
  | .imageData .. => true
  | .ack .. => true
  | .ackHolderPush .. => true
  | .memoryRequestFlit .. => true
  | .memoryReplyFlit .. => true
  | .grantOrRecallFlit .. => true
  | .checkpointDataFlit .. => true
  | .resendRequest .. => true
  | .timeSync .. => true
  | .checkpoint .. => true
  | .powerLimitSet .. => true
  | .rolnisRestart .. => true
  | .boltEnd .. => true
  | .swatchAdd .. => true
  | .dramResponse .. => true
  | .recoveryNewImage .. => true
  | .fabricJoin .. => true
  | .discardedWord .. => true
  | .discardedFlit .. => true

/-- Well-formed instructions: those some words say. HCALL_SYSTEM is HCALL's own words in supervisor mode, which the decoder
reads as HCALL. An event row has no words. (assumption 13, DEDUCED) -/
def Instr.wellFormed : Instr → Bool
  | .add q d x y => preOk q && q.nxi == 0 && twoAddress q d x y
  | .sub q d x y => preOk q && q.nxi == 0 && twoAddress q d x y
  | .adc q d x y => preOk q && q.nxi == 0 && twoAddress q d x y
  | .sbc q d x y => preOk q && q.nxi == 0 && twoAddress q d x y
  | .and q d x y => preOk q && q.nxi == 0 && twoAddress q d x y
  | .or q d x y => preOk q && q.nxi == 0 && twoAddress q d x y
  | .xor q d x y => preOk q && q.nxi == 0 && twoAddress q d x y
  | .andn q d x y => preOk q && q.nxi == 0 && twoAddress q d x y
  | .shl q d x y => preOk q && q.nxi == 0 && twoAddress q d x y
  | .shr q d x y => preOk q && q.nxi == 0 && twoAddress q d x y
  | .sar q d x y => preOk q && q.nxi == 0 && twoAddress q d x y
  | .ror q d x y => preOk q && q.nxi == 0 && twoAddress q d x y
  | .mul q d x y => preOk q && q.nxi == 0 && twoAddress q d x y
  | .mulh q d x y => preOk q && q.nxi == 0 && twoAddress q d x y
  | .mulhn q d x y => preOk q && q.nxi == 0 && twoAddress q d x y
  | .mulw q d x y => preOk q && q.nxi == 0 && twoAddress q d x y
  | .div q d x y => preOk q && q.nxi == 0 && twoAddress q d x y
  | .divn q d x y => preOk q && q.nxi == 0 && twoAddress q d x y
  | .rem q d x y => preOk q && q.nxi == 0 && twoAddress q d x y
  | .remn q d x y => preOk q && q.nxi == 0 && twoAddress q d x y
  | .min q d x y => preOk q && q.nxi == 0 && twoAddress q d x y
  | .max q d x y => preOk q && q.nxi == 0 && twoAddress q d x y
  | .minn q d x y => preOk q && q.nxi == 0 && twoAddress q d x y
  | .maxn q d x y => preOk q && q.nxi == 0 && twoAddress q d x y
  | .clz q d s => preOk q && q.nxi == 0 && within q d s
  | .ctz q d s => preOk q && q.nxi == 0 && within q d s
  | .popc q d s => preOk q && q.nxi == 0 && within q d s
  | .brev q d s => preOk q && q.nxi == 0 && within q d s
  | .mov q d s => preOk q && q.nxi == 0 && within q d s
  | .sel q d x y => preOk q && q.nxi == 0 && twoAddress q d x y
  | .exts q f d s => preOk q && q.nxi == 0 && within q d s && (q.xp || f == 3) && okExts f
  | .extz q f d s => preOk q && q.nxi == 0 && within q d s && (q.xp || f == 11) && okExtz f
  | .cmpEq q _ x y => preOk q && q.nxi == 0 && compared q x y
  | .cmpLt q _ x y => preOk q && q.nxi == 0 && compared q x y
  | .cmpLtn q _ x y => preOk q && q.nxi == 0 && compared q x y
  | .cmpTst q _ x y => preOk q && q.nxi == 0 && compared q x y
  | .bfx q _ _ _ => preOk q && q.nxi == 0 && q.xr
  | .bfi q _ _ _ => preOk q && q.nxi == 0 && q.xr
  | .addi q d i => preOk q && (q.xr || decide (d.toNat < 16)) && fits i (6 + 10 * q.nxi)
  | .andi q d i => preOk q && (q.xr || decide (d.toNat < 16)) && fits i (6 + 10 * q.nxi)
  | .ori q d i => preOk q && (q.xr || decide (d.toNat < 16)) && fits i (6 + 10 * q.nxi)
  | .xori q d i => preOk q && (q.xr || decide (d.toNat < 16)) && fits i (6 + 10 * q.nxi)
  | .shli q d i => preOk q && (q.xr || decide (d.toNat < 16)) && fits i (6 + 10 * q.nxi)
  | .shri q d i => preOk q && (q.xr || decide (d.toNat < 16)) && fits i (6 + 10 * q.nxi)
  | .sari q d i => preOk q && (q.xr || decide (d.toNat < 16)) && fits i (6 + 10 * q.nxi)
  | .li q d i => preOk q && (q.xr || decide (d.toNat < 16)) && fits i (6 + 10 * q.nxi)
  | .hold q i => preOk q && fits i (6 + 10 * q.nxi) && !i.msb
  | .jmp q i => preOk q && !q.xr && decide (q.nxi ≤ 3) && fits i (10 + 10 * q.nxi)
  | .bf q _ i => preOk q && fits i (6 + 10 * q.nxi)
  | .bt q _ i => preOk q && fits i (6 + 10 * q.nxi)
  | .call q i => preOk q && !q.xr && decide (q.nxi ≤ 3) && fits i (10 + 10 * q.nxi)
  | .jr q s => preOk q && q.nxi == 0 && (q.xr || decide (s.toNat < 16))
  | .callr q s => preOk q && q.nxi == 0 && (q.xr || decide (s.toNat < 16))
  | .ret q => preOk q && q.nxi == 0
  | .loop q d i => preOk q && (q.xr || decide (d.toNat < 16)) && fits i (6 + 10 * q.nxi) && decide (1 ≤ i.toInt)
  | .fand q d x _ => preOk q && q.nxi == 0 && (q.xr || x == d)
  | .flagOr q d x _ => preOk q && q.nxi == 0 && (q.xr || x == d)
  | .fxor q d x _ => preOk q && q.nxi == 0 && (q.xr || x == d)
  | .fnot q _ _ => preOk q && q.nxi == 0
  | .rdc q d i => preOk q && (q.xr || decide (d.toNat < 16)) && fits i (6 + 10 * q.nxi) && decide (i.toNat ≤ 0xFFF)
  | .wrc q d i => preOk q && (q.xr || decide (d.toNat < 16)) && fits i (6 + 10 * q.nxi) && decide (i.toNat ≤ 0xFFF)
  | .ldl q f d s i => preOk q && within q d s && fits i (10 * q.nxi) && (q.xp || f == 52) && okLocal f
  | .ldlIndex q f _ _ _ => preOk q && q.nxi == 0 && q.xr && (q.xp || f == 52) && okLocal f
  | .stl q f d s i => preOk q && within q d s && fits i (10 * q.nxi) && (q.xp || f == 52) && okLocal f
  | .stlIndex q f _ _ _ => preOk q && q.nxi == 0 && q.xr && (q.xp || f == 52) && okLocal f
  | .ldg q f d s i => preOk q && within q d s && fits i (10 * q.nxi) && (q.xp || f == 52) && okGlobal f
  | .ldgPolicy q f _ _ _ i => preOk q && q.xr && fits i (10 * q.nxi) && (q.xp || f == 52) && okGlobal f
  | .ldgIndex q f _ _ _ => preOk q && q.nxi == 0 && q.xr && (q.xp || f == 52) && okGlobal f
  | .stg q f d s i => preOk q && within q d s && fits i (10 * q.nxi) && (q.xp || f == 52) && okGlobal f
  | .stgPolicy q f _ _ _ i => preOk q && q.xr && fits i (10 * q.nxi) && (q.xp || f == 52) && okGlobal f
  | .stgIndex q f _ _ _ => preOk q && q.nxi == 0 && q.xr && (q.xp || f == 52) && okGlobal f
  | .cinc q d s i => preOk q && within q d s && fits i (10 * q.nxi)
  | .cincReg q _ _ _ => preOk q && q.nxi == 0 && q.xr
  | .csetb q d s i => preOk q && within q d s && fits i (10 * q.nxi)
  | .csetbReg q _ _ _ => preOk q && q.nxi == 0 && q.xr
  | .cperm q d s i => preOk q && within q d s && fits i (10 * q.nxi)
  | .cpermReg q _ _ _ => preOk q && q.nxi == 0 && q.xr
  | .cgetBase q d s => preOk q && q.nxi == 0 && within q d s
  | .cgetTop q d s => preOk q && q.nxi == 0 && within q d s
  | .cgetPerm q d s => preOk q && q.nxi == 0 && within q d s
  | .cgetTag q d s => preOk q && q.nxi == 0 && within q d s
  | .fadd q f d x y => q.xp && preOk q && q.nxi == 0 && twoAddress q d x y && okFloat f
  | .fsub q f d x y => q.xp && preOk q && q.nxi == 0 && twoAddress q d x y && okFloat f
  | .fmul q f d x y => q.xp && preOk q && q.nxi == 0 && twoAddress q d x y && okFloat f
  | .fdiv q f d x y => q.xp && preOk q && q.nxi == 0 && twoAddress q d x y && okF32 f
  | .fma q f _ _ _ => q.xp && preOk q && q.nxi == 0 && q.xr && okFloat f
  | .fms q f _ _ _ => q.xp && preOk q && q.nxi == 0 && q.xr && okFloat f
  | .fnma q f _ _ _ => q.xp && preOk q && q.nxi == 0 && q.xr && okFloat f
  | .fnms q f _ _ _ => q.xp && preOk q && q.nxi == 0 && q.xr && okFloat f
  | .fmin q f d x y => q.xp && preOk q && q.nxi == 0 && twoAddress q d x y && okFloat f
  | .fmax q f d x y => q.xp && preOk q && q.nxi == 0 && twoAddress q d x y && okFloat f
  | .fabs q f d s => q.xp && preOk q && q.nxi == 0 && within q d s && okFloat f
  | .fneg q f d s => q.xp && preOk q && q.nxi == 0 && within q d s && okFloat f
  | .fcmpEq q f d x y => q.xp && preOk q && q.nxi == 0 && compared q x y && (f != 19 || decide (d.toNat < 8)) && (q.xr || decide (d.toNat < 16)) && okFcmp f
  | .fcmpLt q f d x y => q.xp && preOk q && q.nxi == 0 && compared q x y && (f != 19 || decide (d.toNat < 8)) && (q.xr || decide (d.toNat < 16)) && okFcmp f
  | .fcmpLe q f d x y => q.xp && preOk q && q.nxi == 0 && compared q x y && (f != 19 || decide (d.toNat < 8)) && (q.xr || decide (d.toNat < 16)) && okFcmp f
  | .fcmpUn q f d x y => q.xp && preOk q && q.nxi == 0 && compared q x y && (f != 19 || decide (d.toNat < 8)) && (q.xr || decide (d.toNat < 16)) && okFcmp f
  | .fcvt q f vec _ _ src => q.xp && preOk q && q.nxi == 0 && q.xr && okFcvt vec f && okFcvt vec src
  | .frcp q f d s => q.xp && preOk q && q.nxi == 0 && within q d s && okFloat f
  | .frsq q f d s => q.xp && preOk q && q.nxi == 0 && within q d s && okFloat f
  | .fexp2 q f d s => q.xp && preOk q && q.nxi == 0 && within q d s && okFloat f
  | .flog2 q f d s => q.xp && preOk q && q.nxi == 0 && within q d s && okFloat f
  | .fsig q f d s => q.xp && preOk q && q.nxi == 0 && within q d s && okFloat f
  | .fsqrt q f d s => q.xp && preOk q && q.nxi == 0 && within q d s && okFloat f
  | .ftanh q f d s => q.xp && preOk q && q.nxi == 0 && within q d s && okFloat f
  | .scale q f _ _ _ => q.xp && preOk q && q.nxi == 0 && q.xr && okFloat f
  | .vredAdd q f d s => q.xp && preOk q && q.nxi == 0 && within q d s && okVred f
  | .vredMin q f d s => q.xp && preOk q && q.nxi == 0 && within q d s && okVred f
  | .vredMax q f d s => q.xp && preOk q && q.nxi == 0 && within q d s && okVred f
  | .vredAddx q f d s => q.xp && preOk q && q.nxi == 0 && within q d s && okVred f
  | .vbcast q f d s => q.xp && preOk q && q.nxi == 0 && within q d s && okLane f
  | .vperm q f _ _ _ => q.xp && preOk q && q.nxi == 0 && q.xr && okLane f
  | .vshuf q f _ _ _ => q.xp && preOk q && q.nxi == 0 && q.xr && okLane f
  | .vslide q f _ _ _ => q.xp && preOk q && q.nxi == 0 && q.xr && okLane f
  | .vsel q f _ _ _ => q.xp && preOk q && q.nxi == 0 && q.xr && okVector f
  | .viadd q f d x y => q.xp && preOk q && q.nxi == 0 && twoAddress q d x y && okIntLane f
  | .visub q f d x y => q.xp && preOk q && q.nxi == 0 && twoAddress q d x y && okIntLane f
  | .vimul q f d x y => q.xp && preOk q && q.nxi == 0 && twoAddress q d x y && okIntLane f
  | .vimac q f _ _ _ => q.xp && preOk q && q.nxi == 0 && q.xr && okIntLane f
  | .vand q f d x y => q.xp && preOk q && q.nxi == 0 && twoAddress q d x y && okVector f
  | .vor q f d x y => q.xp && preOk q && q.nxi == 0 && twoAddress q d x y && okVector f
  | .vxor q f d x y => q.xp && preOk q && q.nxi == 0 && twoAddress q d x y && okVector f
  | .vshl q f d x y => q.xp && preOk q && q.nxi == 0 && twoAddress q d x y && okIntLane f
  | .vldl q f d s i => q.xp && preOk q && within q d s && fits i (10 * q.nxi) && okVector f
  | .vstl q f d s i => q.xp && preOk q && within q d s && fits i (10 * q.nxi) && okVector f
  | .vgath q f _ _ _ => q.xp && preOk q && q.nxi == 0 && q.xr && okLane f
  | .vscat q f _ _ _ => q.xp && preOk q && q.nxi == 0 && q.xr && okLane f
  | .atomAdd q m _ _ _ => q.xp && preOk q && q.nxi == 0 && q.xr && okWidth 0 m
  | .atomMin q m _ _ _ => q.xp && preOk q && q.nxi == 0 && q.xr && okWidth 1 m
  | .atomMax q m _ _ _ => q.xp && preOk q && q.nxi == 0 && q.xr && okWidth 2 m
  | .atomMinn q m _ _ _ => q.xp && preOk q && q.nxi == 0 && q.xr && okWidth 3 m
  | .atomMaxn q m _ _ _ => q.xp && preOk q && q.nxi == 0 && q.xr && okWidth 4 m
  | .atomAnd q m _ _ _ => q.xp && preOk q && q.nxi == 0 && q.xr && okWidth 5 m
  | .atomOr q m _ _ _ => q.xp && preOk q && q.nxi == 0 && q.xr && okWidth 6 m
  | .atomXor q m _ _ _ => q.xp && preOk q && q.nxi == 0 && q.xr && okWidth 7 m
  | .atomXchg q m _ _ _ => q.xp && preOk q && q.nxi == 0 && q.xr && okWidth 8 m
  | .atomCas q m _ _ _ => q.xp && preOk q && q.nxi == 0 && q.xr && okWidth 9 m
  | .atomMinp q _ _ _ => q.xp && preOk q && q.nxi == 0 && q.xr
  | .atomSt4 q _ _ _ => q.xp && preOk q && q.nxi == 0 && q.xr
  | .redAdd q m _ _ => q.xp && preOk q && q.nxi == 0 && q.xr && okWidth 0 m
  | .redMin q m _ _ => q.xp && preOk q && q.nxi == 0 && q.xr && okWidth 1 m
  | .redMax q m _ _ => q.xp && preOk q && q.nxi == 0 && q.xr && okWidth 2 m
  | .redMinn q m _ _ => q.xp && preOk q && q.nxi == 0 && q.xr && okWidth 3 m
  | .redMaxn q m _ _ => q.xp && preOk q && q.nxi == 0 && q.xr && okWidth 4 m
  | .redAnd q m _ _ => q.xp && preOk q && q.nxi == 0 && q.xr && okWidth 5 m
  | .redOr q m _ _ => q.xp && preOk q && q.nxi == 0 && q.xr && okWidth 6 m
  | .redXor q m _ _ => q.xp && preOk q && q.nxi == 0 && q.xr && okWidth 7 m
  | .redXchg q m _ _ => q.xp && preOk q && q.nxi == 0 && q.xr && okWidth 8 m
  | .redMinp q _ _ => q.xp && preOk q && q.nxi == 0 && q.xr
  | .redSt4 q _ _ => q.xp && preOk q && q.nxi == 0 && q.xr
  | .gath q f d s => q.xp && preOk q && q.nxi == 0 && within q d s && okGath f
  | .prefSlice q s t i => q.xp && preOk q && (q.xr || (decide (s.toNat < 16) && t == 0)) && fits i (10 * q.nxi)
  | .prefStage q s t i => q.xp && preOk q && (q.xr || (decide (s.toNat < 16) && t == 0)) && fits i (10 * q.nxi)
  | .fence q sc => q.xp && preOk q && q.nxi == 0 && decide (sc.toNat < 6)
  | .rel q sc => q.xp && preOk q && q.nxi == 0 && decide (sc.toNat < 6)
  | .acq q sc => q.xp && preOk q && q.nxi == 0 && decide (sc.toNat < 6)
  | .ldgv q d s i => q.xp && preOk q && within q d s && fits i (10 * q.nxi)
  | .stgv q d s i => q.xp && preOk q && within q d s && fits i (10 * q.nxi)
  | .copyLin q d s => q.xp && preOk q && q.nxi == 0 && within q d s
  | .copy2d q d s => q.xp && preOk q && q.nxi == 0 && within q d s
  | .copyList q d s => q.xp && preOk q && q.nxi == 0 && within q d s
  | .copyFill q d s => q.xp && preOk q && q.nxi == 0 && within q d s
  | .dload q d s => q.xp && preOk q && q.nxi == 0 && within q d s
  | .dseal q s => q.xp && preOk q && q.nxi == 0 && (q.xr || decide (s.toNat < 16))
  | .dopen q s => q.xp && preOk q && q.nxi == 0 && (q.xr || decide (s.toNat < 16))
  | .dstat q d => q.xp && preOk q && q.nxi == 0 && (q.xr || decide (d.toNat < 16))
  | .dwin q d s => q.xp && preOk q && q.nxi == 0 && within q d s
  | .recv q d t => q.xp && preOk q && q.nxi == 0 && (q.xr || (decide (d.toNat < 16) && t == 0))
  | .sendm q _ _ _ => q.xp && preOk q && q.nxi == 0 && q.xr
  | .mfmt q d s => q.xp && preOk q && q.nxi == 0 && within q d s
  | .mm q d s => q.xp && preOk q && q.nxi == 0 && within q d s
  | .mmz q d s => q.xp && preOk q && q.nxi == 0 && within q d s
  | .mdrain q d s => q.xp && preOk q && q.nxi == 0 && within q d s
  | .maccLoad q s => q.xp && preOk q && q.nxi == 0 && (q.xr || decide (s.toNat < 16))
  | .maccStore q s => q.xp && preOk q && q.nxi == 0 && (q.xr || decide (s.toNat < 16))
  | .maccClear q => q.xp && preOk q && q.nxi == 0
  | .walk q d s => q.xp && preOk q && q.nxi == 0 && within q d s
  | .wresume q d s => q.xp && preOk q && q.nxi == 0 && within q d s
  | .wstat q d => q.xp && preOk q && q.nxi == 0 && (q.xr || decide (d.toNat < 16))
  | .sort q d s => q.xp && preOk q && q.nxi == 0 && within q d s
  | .sortc q d s => q.xp && preOk q && q.nxi == 0 && within q d s
  | .allot q d s => q.xp && preOk q && q.nxi == 0 && within q d s
  | .shrink q d s => q.xp && preOk q && q.nxi == 0 && within q d s
  | .bind q d s => q.xp && preOk q && q.nxi == 0 && within q d s && bindable d
  | .bindp q d _ _ => q.xp && preOk q && q.nxi == 0 && (q.xr || decide (d.toNat < 16)) && bindable d
  | .unbind q d => q.xp && preOk q && q.nxi == 0 && (q.xr || decide (d.toNat < 16)) && bindable d
  | .bstat q d s => q.xp && preOk q && q.nxi == 0 && within q d s && bindable s
  | .launch q d s => q.xp && preOk q && q.nxi == 0 && within q d s
  | .fork q s => q.xp && preOk q && q.nxi == 0 && (q.xr || decide (s.toNat < 16))
  | .join q s => q.xp && preOk q && q.nxi == 0 && (q.xr || decide (s.toNat < 16))
  | .bar q d s => q.xp && preOk q && q.nxi == 0 && within q d s
  | .barx q s => q.xp && preOk q && q.nxi == 0 && (q.xr || decide (s.toNat < 16))
  | .xsel q _ _ _ => q.xp && preOk q && q.nxi == 0 && q.xr
  | .xsend q s => q.xp && preOk q && q.nxi == 0 && (q.xr || decide (s.toNat < 16))
  | .xend q => q.xp && preOk q && q.nxi == 0
  | .waitv q _ _ _ => q.xp && preOk q && q.nxi == 0 && q.xr
  | .yield q => q.xp && preOk q && q.nxi == 0
  | .seam q d s => q.xp && preOk q && q.nxi == 0 && within q d s
  | .panel q d s => q.xp && preOk q && q.nxi == 0 && within q d s
  | .seamend q => q.xp && preOk q && q.nxi == 0
  | .spos q d => q.xp && preOk q && q.nxi == 0 && (q.xr || decide (d.toNat < 16))
  | .sresume q => q.xp && preOk q && q.nxi == 0 && !q.xr
  | .trap q _ => q.xp && preOk q && q.nxi == 0 && !q.xr
  | .tret q => q.xp && preOk q && q.nxi == 0 && !q.xr
  | .hcall q fn => q.xp && preOk q && q.nxi == 0 && !q.xr && !(decide (0x200 ≤ fn.toNat) && decide (fn.toNat ≤ 0x203))
  | .hcallSystem _ _ => false
  | .hcallResize q => q.xp && preOk q && q.nxi == 0 && !q.xr
  | .hcallReturnSwatch q => q.xp && preOk q && q.nxi == 0 && !q.xr
  | .hcallAttest q => q.xp && preOk q && q.nxi == 0 && !q.xr
  | .hcallDamaskTemplate q => q.xp && preOk q && q.nxi == 0 && !q.xr
  | .mark q _ => q.xp && preOk q && q.nxi == 0 && !q.xr
  | .xinv q d s => q.xp && preOk q && q.nxi == 0 && within q d s
  | .idle q => q.xp && preOk q && q.nxi == 0 && !q.xr
  | .idleWake .. => true
  | .hcallReply .. => true
  | .trapEntry .. => true
  | .lateFaultTaken .. => true
  | .storeFaultArrival .. => true
  | .tokenCompletion .. => true
  | .loadReply .. => true
  | .messageDelivery .. => true
  | .portWordArrival .. => true
  | .streamElementFetch .. => true
  | .localBankGrant .. => true
  | .channelPacketSend .. => true
  | .bridgeForward .. => true
  | .homeRequest .. => true
  | .retryReissue .. => true
  | .phaseAnswer .. => true
  | .phaseComplete .. => true
  | .pinRecall .. => true
  | .pinEnd .. => true
  | .localWindowAccess .. => true
  | .fabricExportRequest .. => true
  | .grantRecall .. => true
  | .recallAck .. => true
  | .recallTimeout .. => true
  | .refreshStart .. => true
  | .refreshEnd .. => true
  | .damaskSealed .. => true
  | .damaskOpened .. => true
  | .copyEngineUnit .. => true
  | .dloadUnit .. => true
  | .gathComplete .. => true
  | .mfmtContextChange .. => true
  | .wstatAtHead .. => true
  | .arrayGrant .. => true
  | .matrixRequestComplete .. => true
  | .sorterAccept .. => true
  | .sorterRun .. => true
  | .blockPlacement .. => true
  | .barrierDepart .. => true
  | .exchangeEnter .. => true
  | .exchangeWordHop .. => true
  | .exchangeEnd .. => true
  | .threadEvict .. => true
  | .threadRestore .. => true
  | .waitvWake .. => true
  | .waitvTimeout .. => true
  | .seamForward .. => true
  | .seamfray .. => true
  | .seamendHeadComplete .. => true
  | .press .. => true
  | .boltResume .. => true
  | .takeIn .. => true
  | .letOut .. => true
  | .blockMigrate .. => true
  | .shadowFetch .. => true
  | .shadowLineArrival .. => true
  | .sweeper .. => true
  | .scrub .. => true
  | .rateRelease .. => true
  | .throttleChange .. => true
  | .timeshareSwitch .. => true
  | .watchdog .. => true
  | .triggerMatch .. => true
  | .debugStop .. => true
  | .localEccError .. => true
  | .sliceTagParityError .. => true
  | .engineOutOfService .. => true
  | .qclassWrite .. => true
  | .permtWrite .. => true
  | .wdogWrite .. => true
  | .rateWrite .. => true
  | .trctlWrite .. => true
  | .trringWrite .. => true
  | .lpregWrite .. => true
  | .layoutTableWrite .. => true
  | .groupTableWrite .. => true
  | .evcWrite .. => true
  | .evsWrite .. => true
  | .controlRegisterWrite .. => true
  | .moduleReset .. => true
  | .selfTestRelease .. => true
  | .boltCreate .. => true
  | .probe .. => true
  | .reply .. => true
  | .imageHeader .. => true
  | .imageData .. => true
  | .ack .. => true
  | .ackHolderPush .. => true
  | .memoryRequestFlit .. => true
  | .memoryReplyFlit .. => true
  | .grantOrRecallFlit .. => true
  | .checkpointDataFlit .. => true
  | .resendRequest .. => true
  | .timeSync .. => true
  | .checkpoint .. => true
  | .powerLimitSet .. => true
  | .rolnisRestart .. => true
  | .boltEnd .. => true
  | .swatchAdd .. => true
  | .dramResponse .. => true
  | .recoveryNewImage .. => true
  | .fabricJoin .. => true
  | .discardedWord .. => true
  | .discardedFlit .. => true

end Sys2Proof
end

