-- ==== Sys2Proof/Decode.lean ====
section
/-!
DEFINITION. Parcels to instructions (R41 to R52, R58, R59, R61) and back. The decoder is total: what it does not read it
refuses by name, with the parcel at which decoding failed and its index (R62). Format codes, operand values and widths an
instruction refuses are read here and refused when it issues, by the same fault.
-/
namespace Sys2Proof

/-- Why a run of parcels is no instruction (R61). -/
inductive DecodeError where
  /-- the bytes end before the base parcel -/
  | truncated
  | fifthPrefix | repeatedPrefix | xqReservedBit
  | reservedPage | reservedMajor | reservedMinor | reservedModifier
  | prefixNotAccepted | tooManyXi | missingXr | typeNotTaken | unusedField
  deriving DecidableEq, Repr

/-- A refused run of parcels: the reason, the parcel at which decoding failed and its index (R62). -/
structure Reject where
  why : DecodeError
  parcel : Parcel
  index : Nat
  deriving DecidableEq, Repr

/-- The prefixes read so far (R52): how many, the XI payloads joined and counted, the payload of each other kind. -/
structure Scan where
  k : Nat := 0
  xi : Nat := 0
  nxi : Nat := 0
  xr : Option Nat := none
  xp : Option Nat := none
  xq : Option Nat := none
  deriving DecidableEq, Repr

/-- Whether a parcel is a prefix (R43). -/
def isPrefix (p : Parcel) : Bool := decide (p.toNat / 4096 = 15)

/-- One prefix parcel taken in (R52). -/
def scanStep (c : Scan) (p : Parcel) : Except Reject Scan :=
  let kind := p.toNat / 1024 % 4
  let payload := p.toNat % 1024
  if c.k = 4 then .error { why := .fifthPrefix, parcel := p, index := 4 }
  else
    let again : Except Reject Scan := .error { why := .repeatedPrefix, parcel := p, index := c.k }
    match kind with
    | 0 => .ok { c with k := c.k + 1, xi := c.xi * 1024 + payload, nxi := c.nxi + 1 }
    | 1 => if c.xr.isSome then again else .ok { c with k := c.k + 1, xr := some payload }
    | 2 => if c.xp.isSome then again else .ok { c with k := c.k + 1, xp := some payload }
    | _ => if c.xq.isSome then again else .ok { c with k := c.k + 1, xq := some payload }

/-- The fields of an instruction's parcels before its entry is chosen (R42, R43, R45). -/
structure Raw where
  q : Pre
  page : Nat
  code : Code
  major : Nat
  m : Nat
  /-- the 4-bit fields of the base parcel and their XR high bits -/
  d4 : Nat
  s4 : Nat
  dh : Nat
  sh : Nat
  t : Reg
  xi : Nat
  /-- the base parcel's low bits -/
  low : Nat
  deriving DecidableEq, Repr

/-- d with its XR high bits (R45). -/
def Raw.d (r : Raw) : Reg := BitVec.ofNat 6 (r.dh * 16 + r.d4)
/-- s with its XR high bits (R45). -/
def Raw.s (r : Raw) : Reg := BitVec.ofNat 6 (r.sh * 16 + r.s4)
/-- The immediate above `b` base bits (R44). -/
def Raw.imm (r : Raw) (b : Nat) : W64 := w64 (sext (r.xi * 2 ^ b + r.low % 2 ^ b) (10 * r.q.nxi + b))

/-- The fields of a scan and its base parcel. -/
def rawOf (c : Scan) (p : Parcel) : Raw :=
  let b := p.toNat
  let xr := c.xr.getD 0
  let xp := c.xp.getD 0
  let xq := c.xq.getD 0
  { q := { xq := c.xq.isSome, h := BitVec.ofNat 4 (xq / 64 % 16), gen := decide (xq / 32 % 2 = 1), inv := decide (xq / 16 % 2 = 1),
           flag := BitVec.ofNat 3 (xq / 2 % 8), xp := c.xp.isSome, xr := c.xr.isSome, nxi := c.nxi }
    page := xp / 64, code := BitVec.ofNat 6 (xp % 64), major := b / 1024, m := b % 4, d4 := b / 64 % 16, s4 := b / 4 % 16,
    dh := xr / 256, sh := xr / 64 % 4, t := BitVec.ofNat 6 (xr % 64), xi := c.xi, low := b }

/-- The instruction, if every check holds; else the name of the first that does not. -/
def checked (l : List (Bool × DecodeError)) (i : Instr) : Except DecodeError Instr :=
  match l with
  | [] => .ok i
  | (ok, e) :: r => if ok then checked r i else .error e

/-- XI is not accepted. -/
def noXi (r : Raw) : Bool × DecodeError := (r.q.nxi == 0, .tooManyXi)
/-- The entry takes no type: both codes are 0 (R46). -/
def noType (r : Raw) : Bool × DecodeError := (r.code == 0, .typeNotTaken)
/-- XR is not accepted (R51). -/
def noXr (r : Raw) : Bool × DecodeError := (!r.q.xr, .prefixNotAccepted)
/-- XR is required (R45). -/
def needXr (r : Raw) : Bool × DecodeError := (r.q.xr, .missingXr)
/-- Fields that must be 0 (R61). -/
def noT (r : Raw) : Bool × DecodeError := (r.t == 0, .unusedField)
def noD (r : Raw) : Bool × DecodeError := (r.d == 0, .unusedField)
def noS (r : Raw) : Bool × DecodeError := (r.s == 0, .unusedField)

/-- The code as written, or the entry's default where there is no XP (R46). -/
def Raw.codeOr (r : Raw) (dflt : Code) : Code := if r.q.xp then r.code else dflt

/-! ## Operand shapes (R42, R45, R199) -/

/-- Two-address. -/
def shapeTwo (r : Raw) (c : Pre → Reg → Reg → Reg → Instr) : Except DecodeError Instr :=
  checked [noXi r, noType r] (if r.q.xr then c r.q r.d r.s r.t else c r.q r.d r.d r.s)
/-- Two-address with a type. -/
def shapeTwoF (r : Raw) (dflt : Code) (c : Pre → Code → Reg → Reg → Reg → Instr) : Except DecodeError Instr :=
  checked [noXi r] (if r.q.xr then c r.q (r.codeOr dflt) r.d r.s r.t else c r.q (r.codeOr dflt) r.d r.d r.s)
/-- d and s. -/
def shapeUn (r : Raw) (c : Pre → Reg → Reg → Instr) : Except DecodeError Instr :=
  checked [noXi r, noType r, noT r] (c r.q r.d r.s)
/-- d and s with a type. -/
def shapeUnF (r : Raw) (dflt : Code) (c : Pre → Code → Reg → Reg → Instr) : Except DecodeError Instr :=
  checked [noXi r, noT r] (c r.q (r.codeOr dflt) r.d r.s)
/-- A flag, and s compared with t, which is g0 without XR. -/
def shapeCmp (r : Raw) (c : Pre → Flag → Reg → Reg → Instr) : Except DecodeError Instr :=
  checked [noXi r, noType r, (decide (r.d.toNat < 8), .unusedField)] (c r.q (r.d.setWidth 3) r.s r.t)
/-- d, and s compared with t, with a type; in the scalar form d is a flag (R215). -/
def shapeCmpF (r : Raw) (dflt : Code) (c : Pre → Code → Reg → Reg → Reg → Instr) : Except DecodeError Instr :=
  checked [noXi r, (r.code != 19 || decide (r.d.toNat < 8), .unusedField)] (c r.q (r.codeOr dflt) r.d r.s r.t)
/-- d, s and t. -/
def shapeThree (r : Raw) (c : Pre → Reg → Reg → Reg → Instr) : Except DecodeError Instr :=
  checked [noXi r, noType r, needXr r] (c r.q r.d r.s r.t)
/-- d, s and t with a type. -/
def shapeThreeF (r : Raw) (dflt : Code) (c : Pre → Code → Reg → Reg → Reg → Instr) : Except DecodeError Instr :=
  checked [noXi r, needXr r] (c r.q (r.codeOr dflt) r.d r.s r.t)
/-- d, s and a displacement. -/
def shapeDisp (r : Raw) (c : Pre → Reg → Reg → W64 → Instr) : Except DecodeError Instr :=
  checked [noType r, noT r] (c r.q r.d r.s (r.imm 0))
/-- d, s and a displacement with a type. -/
def shapeDispF (r : Raw) (dflt : Code) (c : Pre → Code → Reg → Reg → W64 → Instr) : Except DecodeError Instr :=
  checked [noT r] (c r.q (r.codeOr dflt) r.d r.s (r.imm 0))
/-- d, s, t and a displacement with a type. -/
def shapePolF (r : Raw) (dflt : Code) (c : Pre → Code → Reg → Reg → Reg → W64 → Instr) : Except DecodeError Instr :=
  checked [needXr r] (c r.q (r.codeOr dflt) r.d r.s r.t (r.imm 0))
/-- s, an optional t and a displacement: PREF. -/
def shapePref (r : Raw) (c : Pre → Reg → Reg → W64 → Instr) : Except DecodeError Instr :=
  checked [noType r, noD r] (c r.q r.s r.t (r.imm 0))
/-- A scope in the modifier (R49). -/
def shapeScope (r : Raw) (c : Pre → BitVec 3 → Instr) : Except DecodeError Instr :=
  checked [noXi r, (decide (r.code.toNat < 6), .reservedModifier), noD r, noS r, noT r] (c r.q (r.code.setWidth 3))
/-- s alone. -/
def shapeSrc (r : Raw) (c : Pre → Reg → Instr) : Except DecodeError Instr :=
  checked [noXi r, noType r, noD r, noT r] (c r.q r.s)
/-- d alone. -/
def shapeDst (r : Raw) (c : Pre → Reg → Instr) : Except DecodeError Instr :=
  checked [noXi r, noType r, noS r, noT r] (c r.q r.d)
/-- d and an optional t: RECV. -/
def shapeDstT (r : Raw) (c : Pre → Reg → Reg → Instr) : Except DecodeError Instr :=
  checked [noXi r, noType r, noS r] (c r.q r.d r.t)
/-- d, a side and a direction: BINDP (R168). -/
def shapePort (r : Raw) (c : Pre → Reg → BitVec 2 → Bool → Instr) : Except DecodeError Instr :=
  checked [noXi r, noType r, (decide (r.s.toNat < 8), .unusedField), noT r]
    (c r.q r.d (BitVec.ofNat 2 (r.s4 % 4)) (decide (r.s4 / 4 % 2 = 1)))
/-- No operand. -/
def shapeBare (r : Raw) (c : Pre → Instr) : Except DecodeError Instr :=
  checked [noXi r, noType r, noD r, noS r, noT r] (c r.q)
/-- No operand and no XR: SRESUME (R319). -/
def shapeBareNoXr (r : Raw) (c : Pre → Instr) : Except DecodeError Instr :=
  checked [noXr r, noXi r, noType r, noD r, noS r] (c r.q)
/-- Three flags, two-address (R207). -/
def shapeFlags (r : Raw) (c : Pre → Flag → Flag → Flag → Instr) : Except DecodeError Instr :=
  checked [noXi r, noType r, (decide (r.d.toNat < 8 ∧ r.s.toNat < 8 ∧ r.t.toNat < 8), .unusedField)]
    (if r.q.xr then c r.q (r.d.setWidth 3) (r.s.setWidth 3) (r.t.setWidth 3) else c r.q (r.d.setWidth 3) (r.d.setWidth 3) (r.s.setWidth 3))
/-- Two flags: FNOT (R207). -/
def shapeFlag1 (r : Raw) (c : Pre → Flag → Flag → Instr) : Except DecodeError Instr :=
  checked [noXi r, noType r, (decide (r.d.toNat < 8 ∧ r.s.toNat < 8), .unusedField), noT r] (c r.q (r.d.setWidth 3) (r.s.setWidth 3))
/-- Form I: d and an immediate; XR may only raise d (R208). -/
def shapeImm (r : Raw) (c : Pre → Reg → W64 → Instr) : Except DecodeError Instr :=
  checked [noType r, (r.sh == 0, .unusedField), noT r] (c r.q r.d (r.imm 6))
/-- Form I with d = 0. -/
def shapeImmOnly (r : Raw) (c : Pre → W64 → Instr) : Except DecodeError Instr :=
  checked [noType r, noD r, (r.sh == 0, .unusedField), noT r] (c r.q (r.imm 6))
/-- Form J. -/
def shapeOff (r : Raw) (c : Pre → W64 → Instr) : Except DecodeError Instr :=
  checked [noXr r, (decide (r.q.nxi ≤ 3), .tooManyXi), noType r] (c r.q (r.imm 10))
/-- Form Z with a function. -/
def shapeFn (r : Raw) (c : Pre → BitVec 10 → Instr) : Except DecodeError Instr :=
  checked [noXr r, noXi r, noType r] (c r.q (BitVec.ofNat 10 (r.low % 1024)))
/-- Form Z whose function must be 0 (R330, R339). -/
def shapeFn0 (r : Raw) (c : Pre → Instr) : Except DecodeError Instr :=
  checked [noXr r, noXi r, noType r, (r.low % 1024 == 0, .unusedField)] (c r.q)

/-! ## The entries that choose by more than the minor variant -/

/-- BF and BT (R58, R211). -/
def branch (r : Raw) : Except DecodeError Instr :=
  let k : Flag := BitVec.ofNat 3 (r.d4 % 8)
  checked [noType r, (r.dh == 0, .unusedField), (r.sh == 0, .unusedField), noT r]
    (if r.d4 / 8 = 1 then .bt r.q k (r.imm 6) else .bf r.q k (r.imm 6))

/-- FCVT (R216). -/
def convert (r : Raw) (vec : Bool) : Except DecodeError Instr :=
  checked [noXi r, needXr r] (.fcvt r.q r.code vec r.d r.s r.t)

/-- The operation of an ATOM (R49, R104). -/
def atomPick (r : Raw) : Except DecodeError Instr :=
  let w : BitVec 2 := BitVec.ofNat 2 r.m
  match r.code.toNat with
  | 0 => .ok (.atomAdd r.q w r.d r.s r.t)
  | 1 => .ok (.atomMin r.q w r.d r.s r.t)
  | 2 => .ok (.atomMax r.q w r.d r.s r.t)
  | 3 => .ok (.atomMinn r.q w r.d r.s r.t)
  | 4 => .ok (.atomMaxn r.q w r.d r.s r.t)
  | 5 => .ok (.atomAnd r.q w r.d r.s r.t)
  | 6 => .ok (.atomOr r.q w r.d r.s r.t)
  | 7 => .ok (.atomXor r.q w r.d r.s r.t)
  | 8 => .ok (.atomXchg r.q w r.d r.s r.t)
  | 9 => .ok (.atomCas r.q w r.d r.s r.t)
  | 10 => if r.m = 1 then .ok (.atomMinp r.q r.d r.s r.t) else .error .reservedMinor
  | 11 => if r.m = 0 then .ok (.atomSt4 r.q r.d r.s r.t) else .error .reservedMinor
  | _ => .error .reservedModifier

/-- The operation of a RED (R49, R104). -/
def redPick (r : Raw) : Except DecodeError Instr :=
  let w : BitVec 2 := BitVec.ofNat 2 r.m
  match r.code.toNat with
  | 0 => .ok (.redAdd r.q w r.s r.t)
  | 1 => .ok (.redMin r.q w r.s r.t)
  | 2 => .ok (.redMax r.q w r.s r.t)
  | 3 => .ok (.redMinn r.q w r.s r.t)
  | 4 => .ok (.redMaxn r.q w r.s r.t)
  | 5 => .ok (.redAnd r.q w r.s r.t)
  | 6 => .ok (.redOr r.q w r.s r.t)
  | 7 => .ok (.redXor r.q w r.s r.t)
  | 8 => .ok (.redXchg r.q w r.s r.t)
  | 9 => .error .reservedModifier
  | 10 => if r.m = 1 then .ok (.redMinp r.q r.s r.t) else .error .reservedMinor
  | 11 => if r.m = 0 then .ok (.redSt4 r.q r.s r.t) else .error .reservedMinor
  | _ => .error .reservedModifier

/-- ATOM (R112). -/
def atomOp (r : Raw) : Except DecodeError Instr :=
  match atomPick r with
  | .ok i => checked [(decide (r.m < 3), .reservedMinor), noXi r, needXr r] i
  | .error e => .error e

/-- RED (R112). -/
def redOp (r : Raw) : Except DecodeError Instr :=
  match redPick r with
  | .ok i => checked [(decide (r.m < 3), .reservedMinor), noXi r, needXr r, noD r] i
  | .error e => .error e

/-- HCALL: functions 0x200 to 0x203 have entries of their own (R348, R350, R374). (assumption 13, DEDUCED) -/
def hcallFn (r : Raw) : Except DecodeError Instr :=
  match r.low % 1024 with
  | 0x200 => shapeFn r (fun q _ => .hcallResize q)
  | 0x201 => shapeFn r (fun q _ => .hcallReturnSwatch q)
  | 0x202 => shapeFn r (fun q _ => .hcallAttest q)
  | 0x203 => shapeFn r (fun q _ => .hcallDamaskTemplate q)
  | _ => shapeFn r .hcall

/-- The four minor variants of a major. -/
def variants (m : Nat) (a b c d : Except DecodeError Instr) : Except DecodeError Instr :=
  match m with
  | 0 => a | 1 => b | 2 => c | _ => d

/-! ## The opcode map -/

/-- Page 0 (R58). -/
def page0 (r : Raw) : Except DecodeError Instr :=
  match r.major with
  | 0x00 => variants r.m (shapeTwo r .add) (shapeTwo r .sub) (shapeTwo r .adc) (shapeTwo r .sbc)
  | 0x01 => variants r.m (shapeTwo r .and) (shapeTwo r .or) (shapeTwo r .xor) (shapeTwo r .andn)
  | 0x02 => variants r.m (shapeTwo r .shl) (shapeTwo r .shr) (shapeTwo r .sar) (shapeTwo r .ror)
  | 0x03 => variants r.m (shapeTwo r .mul) (shapeTwo r .mulh) (shapeTwo r .mulhn) (shapeTwo r .mulw)
  | 0x04 => variants r.m (shapeTwo r .div) (shapeTwo r .divn) (shapeTwo r .rem) (shapeTwo r .remn)
  | 0x05 => variants r.m (shapeTwo r .min) (shapeTwo r .max) (shapeTwo r .minn) (shapeTwo r .maxn)
  | 0x06 => variants r.m (shapeUn r .clz) (shapeUn r .ctz) (shapeUn r .popc) (shapeUn r .brev)
  | 0x07 => variants r.m (shapeUn r .mov) (shapeTwo r .sel) (shapeUnF r 3 .exts) (shapeUnF r 11 .extz)
  | 0x08 => variants r.m (shapeCmp r .cmpEq) (shapeCmp r .cmpLt) (shapeCmp r .cmpLtn) (shapeCmp r .cmpTst)
  | 0x09 => variants r.m (shapeThree r .bfx) (shapeThree r .bfi) (.error .reservedMinor) (.error .reservedMinor)
  | 0x0A => shapeImm r .addi
  | 0x0B => shapeImm r .andi
  | 0x0C => shapeImm r .ori
  | 0x0D => shapeImm r .xori
  | 0x0E => shapeImm r .shli
  | 0x0F => shapeImm r .shri
  | 0x10 => shapeImm r .sari
  | 0x11 => shapeImm r .li
  | 0x12 => shapeImmOnly r .hold
  | 0x13 => shapeOff r .jmp
  | 0x14 => branch r
  | 0x15 => shapeOff r .call
  | 0x16 => variants r.m (shapeSrc r .jr) (shapeSrc r .callr) (shapeBare r .ret) (.error .reservedMinor)
  | 0x17 => shapeImm r .loop
  | 0x18 => variants r.m (shapeFlags r .fand) (shapeFlags r .flagOr) (shapeFlags r .fxor) (shapeFlag1 r .fnot)
  | 0x19 => shapeImm r .rdc
  | 0x1A => shapeImm r .wrc
  | 0x1B => variants r.m (shapeDispF r 52 .ldl) (.error .reservedMinor) (shapeThreeF r 52 .ldlIndex) (.error .reservedMinor)
  | 0x1C => variants r.m (shapeDispF r 52 .stl) (.error .reservedMinor) (shapeThreeF r 52 .stlIndex) (.error .reservedMinor)
  | 0x1D => variants r.m (shapeDispF r 52 .ldg) (shapePolF r 52 .ldgPolicy) (shapeThreeF r 52 .ldgIndex) (.error .reservedMinor)
  | 0x1E => variants r.m (shapeDispF r 52 .stg) (shapePolF r 52 .stgPolicy) (shapeThreeF r 52 .stgIndex) (.error .reservedMinor)
  | 0x1F => variants r.m (shapeDisp r .cinc) (shapeThree r .cincReg) (.error .reservedMinor) (.error .reservedMinor)
  | 0x20 => variants r.m (shapeDisp r .csetb) (shapeThree r .csetbReg) (.error .reservedMinor) (.error .reservedMinor)
  | 0x21 => variants r.m (shapeDisp r .cperm) (shapeThree r .cpermReg) (.error .reservedMinor) (.error .reservedMinor)
  | 0x22 => variants r.m (shapeUn r .cgetBase) (shapeUn r .cgetTop) (shapeUn r .cgetPerm) (shapeUn r .cgetTag)
  | _ => .error .reservedMajor

/-- Page 1 (R59). -/
def page1 (r : Raw) : Except DecodeError Instr :=
  match r.major with
  | 0x00 => variants r.m (shapeTwoF r 0 .fadd) (shapeTwoF r 0 .fsub) (shapeTwoF r 0 .fmul) (shapeTwoF r 0 .fdiv)
  | 0x01 => variants r.m (shapeThreeF r 0 .fma) (shapeThreeF r 0 .fms) (shapeThreeF r 0 .fnma) (shapeThreeF r 0 .fnms)
  | 0x02 => variants r.m (shapeTwoF r 0 .fmin) (shapeTwoF r 0 .fmax) (shapeUnF r 0 .fabs) (shapeUnF r 0 .fneg)
  | 0x03 => variants r.m (shapeCmpF r 0 .fcmpEq) (shapeCmpF r 0 .fcmpLt) (shapeCmpF r 0 .fcmpLe) (shapeCmpF r 0 .fcmpUn)
  | 0x04 => variants r.m (convert r false) (convert r true) (.error .reservedMinor) (.error .reservedMinor)
  | 0x05 => variants r.m (shapeUnF r 0 .frcp) (shapeUnF r 0 .frsq) (shapeUnF r 0 .fexp2) (shapeUnF r 0 .flog2)
  | 0x06 => variants r.m (shapeUnF r 0 .fsig) (shapeUnF r 0 .fsqrt) (shapeUnF r 0 .ftanh) (.error .reservedMinor)
  | 0x07 => variants r.m (shapeThreeF r 0 .scale) (.error .reservedMinor) (.error .reservedMinor) (.error .reservedMinor)
  | 0x08 => variants r.m (shapeUnF r 0 .vredAdd) (shapeUnF r 0 .vredMin) (shapeUnF r 0 .vredMax) (shapeUnF r 0 .vredAddx)
  | 0x09 => variants r.m (shapeUnF r 0 .vbcast) (shapeThreeF r 0 .vperm) (shapeThreeF r 0 .vshuf) (shapeThreeF r 0 .vslide)
  | 0x0A => variants r.m (shapeThreeF r 0 .vsel) (.error .reservedMinor) (.error .reservedMinor) (.error .reservedMinor)
  | 0x0B => variants r.m (shapeTwoF r 0 .viadd) (shapeTwoF r 0 .visub) (shapeTwoF r 0 .vimul) (shapeThreeF r 0 .vimac)
  | 0x0C => variants r.m (shapeTwoF r 0 .vand) (shapeTwoF r 0 .vor) (shapeTwoF r 0 .vxor) (shapeTwoF r 0 .vshl)
  | 0x0D => variants r.m (shapeDispF r 0 .vldl) (shapeDispF r 0 .vstl) (.error .reservedMinor) (.error .reservedMinor)
  | 0x0E => variants r.m (shapeThreeF r 0 .vgath) (shapeThreeF r 0 .vscat) (.error .reservedMinor) (.error .reservedMinor)
  | _ => .error .reservedMajor

/-- Page 2 (R59). -/
def page2 (r : Raw) : Except DecodeError Instr :=
  match r.major with
  | 0x00 => atomOp r
  | 0x01 => redOp r
  | 0x02 => variants r.m (shapeUnF r 0 .gath) (.error .reservedMinor) (.error .reservedMinor) (.error .reservedMinor)
  | 0x03 => variants r.m (shapePref r .prefSlice) (shapePref r .prefStage) (.error .reservedMinor) (.error .reservedMinor)
  | 0x04 => variants r.m (shapeScope r .fence) (shapeScope r .rel) (shapeScope r .acq) (.error .reservedMinor)
  | 0x05 => variants r.m (shapeDisp r .ldgv) (shapeDisp r .stgv) (.error .reservedMinor) (.error .reservedMinor)
  | _ => .error .reservedMajor

/-- Page 3 (R59). -/
def page3 (r : Raw) : Except DecodeError Instr :=
  match r.major with
  | 0x00 => variants r.m (shapeUn r .copyLin) (shapeUn r .copy2d) (shapeUn r .copyList) (shapeUn r .copyFill)
  | 0x01 => variants r.m (shapeUn r .dload) (.error .reservedMinor) (.error .reservedMinor) (.error .reservedMinor)
  | 0x02 => variants r.m (shapeSrc r .dseal) (shapeSrc r .dopen) (shapeDst r .dstat) (.error .reservedMinor)
  | 0x03 => variants r.m (shapeUn r .dwin) (.error .reservedMinor) (.error .reservedMinor) (.error .reservedMinor)
  | 0x04 => variants r.m (shapeDstT r .recv) (.error .reservedMinor) (.error .reservedMinor) (.error .reservedMinor)
  | 0x05 => variants r.m (shapeThree r .sendm) (.error .reservedMinor) (.error .reservedMinor) (.error .reservedMinor)
  | _ => .error .reservedMajor

/-- Page 4 (R59). -/
def page4 (r : Raw) : Except DecodeError Instr :=
  match r.major with
  | 0x00 => variants r.m (shapeUn r .mfmt) (.error .reservedMinor) (.error .reservedMinor) (.error .reservedMinor)
  | 0x01 => variants r.m (shapeUn r .mm) (shapeUn r .mmz) (.error .reservedMinor) (.error .reservedMinor)
  | 0x02 => variants r.m (shapeUn r .mdrain) (.error .reservedMinor) (.error .reservedMinor) (.error .reservedMinor)
  | 0x03 => variants r.m (shapeSrc r .maccLoad) (shapeSrc r .maccStore) (shapeBare r .maccClear) (.error .reservedMinor)
  | 0x04 => variants r.m (shapeUn r .walk) (shapeUn r .wresume) (.error .reservedMinor) (.error .reservedMinor)
  | 0x05 => variants r.m (shapeDst r .wstat) (.error .reservedMinor) (.error .reservedMinor) (.error .reservedMinor)
  | 0x06 => variants r.m (shapeUn r .sort) (shapeUn r .sortc) (.error .reservedMinor) (.error .reservedMinor)
  | _ => .error .reservedMajor

/-- Page 5 (R59). -/
def page5 (r : Raw) : Except DecodeError Instr :=
  match r.major with
  | 0x00 => variants r.m (shapeUn r .allot) (shapeUn r .shrink) (.error .reservedMinor) (.error .reservedMinor)
  | 0x01 => variants r.m (shapeUn r .bind) (shapePort r .bindp) (shapeDst r .unbind) (shapeUn r .bstat)
  | _ => .error .reservedMajor

/-- Page 6 (R59). -/
def page6 (r : Raw) : Except DecodeError Instr :=
  match r.major with
  | 0x00 => variants r.m (shapeUn r .launch) (.error .reservedMinor) (.error .reservedMinor) (.error .reservedMinor)
  | 0x01 => variants r.m (shapeSrc r .fork) (.error .reservedMinor) (.error .reservedMinor) (.error .reservedMinor)
  | 0x02 => variants r.m (shapeSrc r .join) (.error .reservedMinor) (.error .reservedMinor) (.error .reservedMinor)
  | 0x03 => variants r.m (shapeUn r .bar) (shapeSrc r .barx) (.error .reservedMinor) (.error .reservedMinor)
  | 0x04 => variants r.m (shapeThree r .xsel) (shapeSrc r .xsend) (shapeBare r .xend) (.error .reservedMinor)
  | 0x05 => variants r.m (shapeThree r .waitv) (shapeBare r .yield) (.error .reservedMinor) (.error .reservedMinor)
  | 0x06 => variants r.m (shapeUn r .seam) (shapeUn r .panel) (shapeBare r .seamend) (shapeDst r .spos)
  | 0x07 => variants r.m (shapeBareNoXr r .sresume) (.error .reservedMinor) (.error .reservedMinor) (.error .reservedMinor)
  | _ => .error .reservedMajor

/-- Page 7 (R59). -/
def page7 (r : Raw) : Except DecodeError Instr :=
  match r.major with
  | 0x00 => shapeFn r .trap
  | 0x01 => shapeFn0 r .tret
  | 0x02 => hcallFn r
  | 0x03 => shapeFn r .mark
  | 0x04 => variants r.m (shapeUn r .xinv) (.error .reservedMinor) (.error .reservedMinor) (.error .reservedMinor)
  | 0x05 => shapeFn0 r .idle
  | _ => .error .reservedMajor

/-- The instruction of a base parcel under its prefixes (R58, R59). -/
def pick (r : Raw) : Except DecodeError Instr :=
  match r.page with
  | 0 => page0 r | 1 => page1 r | 2 => page2 r | 3 => page3 r | 4 => page4 r | 5 => page5 r | 6 => page6 r | 7 => page7 r
  | _ => .error .reservedPage

/-- The base parcel decoded after its prefixes; a failure is at the base parcel (R62), XQ's reserved bit too. (assumption 14, DEDUCED) -/
def decodeBase (c : Scan) (p : Parcel) : Except Reject Instr :=
  let fail := fun (e : DecodeError) => Except.error { why := e, parcel := p, index := c.k : Reject }
  if c.xq.getD 0 % 2 = 1 then fail .xqReservedBit
  else match pick (rawOf c p) with
    | .ok i => .ok i
    | .error e => fail e

/-- Parcels decoded from a scan on: the instruction and the parcels after it. -/
def decodeFrom (c : Scan) : List Parcel → Except Reject (Instr × List Parcel)
  | [] => .error { why := .truncated, parcel := 0, index := c.k }
  | p :: rest =>
    if isPrefix p then
      match scanStep c p with
      | .ok c' => decodeFrom c' rest
      | .error e => .error e
    else match decodeBase c p with
      | .ok i => .ok (i, rest)
      | .error e => .error e

/-- DECODE: the first instruction of a run of parcels and what follows it, or why there is none. -/
def decode (ps : List Parcel) : Except Reject (Instr × List Parcel) := decodeFrom {} ps

/-- The parcel of two bytes in memory order (R41). -/
def parcelOf (lo hi : BitVec 8) : Parcel := BitVec.ofNat 16 (lo.toNat + 256 * hi.toNat)

/-- Bytes as parcels; an odd last byte is dropped. -/
def parcelsOf : List (BitVec 8) → List Parcel
  | lo :: hi :: r => parcelOf lo hi :: parcelsOf r
  | _ => []

/-- DECODE on bytes. -/
def decodeBytes (bs : List (BitVec 8)) : Except Reject (Instr × List Parcel) := decode (parcelsOf bs)

/-! ## Encoding -/

/-- A parcel of its value. -/
def parcel (n : Nat) : Parcel := BitVec.ofNat 16 n

/-- The XI parcels of an immediate above its `b` base bits, most significant first (R44). -/
def xiParcels (u : Nat) : Nat → List Parcel
  | 0 => []
  | n + 1 => parcel (0xF000 + u / 1024 ^ n % 1024) :: xiParcels u n

/-- The prefixes in the order XQ, XP, XR, XI (R43). -/
def prefixes (q : Pre) (page : Nat) (f : Code) (dh sh : Nat) (t : Reg) (u : Nat) : List Parcel :=
  (if q.xq then [parcel (0xFC00 + q.h.toNat * 64 + q.gen.toNat * 32 + q.inv.toNat * 16 + q.flag.toNat * 2)] else []) ++
  (if q.xp then [parcel (0xF800 + page * 64 + f.toNat)] else []) ++
  (if q.xr then [parcel (0xF400 + dh * 256 + sh * 64 + t.toNat)] else []) ++
  xiParcels u q.nxi

/-- Form D (R42). -/
def formD (q : Pre) (page major m : Nat) (f : Code) (d s t : Reg) (i : W64) : List Parcel :=
  prefixes q page f (d.toNat / 16) (s.toNat / 16) t (i.toNat % 1024 ^ q.nxi) ++
    [parcel (major * 1024 + d.toNat % 16 * 64 + s.toNat % 16 * 4 + m)]
/-- Form I (R42). -/
def formI (q : Pre) (major : Nat) (d : Reg) (i : W64) : List Parcel :=
  prefixes q 0 0 (d.toNat / 16) 0 0 (i.toNat / 64 % 1024 ^ q.nxi) ++ [parcel (major * 1024 + d.toNat % 16 * 64 + i.toNat % 64)]
/-- Form J (R42). -/
def formJ (q : Pre) (major : Nat) (i : W64) : List Parcel :=
  prefixes q 0 0 0 0 0 (i.toNat / 1024 % 1024 ^ q.nxi) ++ [parcel (major * 1024 + i.toNat % 1024)]
/-- Form Z (R42): page 7. -/
def formZ (q : Pre) (major : Nat) (fn : BitVec 10) : List Parcel :=
  prefixes q 7 0 0 0 0 0 ++ [parcel (major * 1024 + fn.toNat)]

/-- ENCODE: the parcels of a well-formed instruction; an event row has none. (assumption 58, DESIGN CHOICE) -/
def encode : Instr → List Parcel
  | .add q d x y => if q.xr then formD q 0 0x00 0 0 d x y 0 else formD q 0 0x00 0 0 d y 0 0
  | .sub q d x y => if q.xr then formD q 0 0x00 1 0 d x y 0 else formD q 0 0x00 1 0 d y 0 0
  | .adc q d x y => if q.xr then formD q 0 0x00 2 0 d x y 0 else formD q 0 0x00 2 0 d y 0 0
  | .sbc q d x y => if q.xr then formD q 0 0x00 3 0 d x y 0 else formD q 0 0x00 3 0 d y 0 0
  | .and q d x y => if q.xr then formD q 0 0x01 0 0 d x y 0 else formD q 0 0x01 0 0 d y 0 0
  | .or q d x y => if q.xr then formD q 0 0x01 1 0 d x y 0 else formD q 0 0x01 1 0 d y 0 0
  | .xor q d x y => if q.xr then formD q 0 0x01 2 0 d x y 0 else formD q 0 0x01 2 0 d y 0 0
  | .andn q d x y => if q.xr then formD q 0 0x01 3 0 d x y 0 else formD q 0 0x01 3 0 d y 0 0
  | .shl q d x y => if q.xr then formD q 0 0x02 0 0 d x y 0 else formD q 0 0x02 0 0 d y 0 0
  | .shr q d x y => if q.xr then formD q 0 0x02 1 0 d x y 0 else formD q 0 0x02 1 0 d y 0 0
  | .sar q d x y => if q.xr then formD q 0 0x02 2 0 d x y 0 else formD q 0 0x02 2 0 d y 0 0
  | .ror q d x y => if q.xr then formD q 0 0x02 3 0 d x y 0 else formD q 0 0x02 3 0 d y 0 0
  | .mul q d x y => if q.xr then formD q 0 0x03 0 0 d x y 0 else formD q 0 0x03 0 0 d y 0 0
  | .mulh q d x y => if q.xr then formD q 0 0x03 1 0 d x y 0 else formD q 0 0x03 1 0 d y 0 0
  | .mulhn q d x y => if q.xr then formD q 0 0x03 2 0 d x y 0 else formD q 0 0x03 2 0 d y 0 0
  | .mulw q d x y => if q.xr then formD q 0 0x03 3 0 d x y 0 else formD q 0 0x03 3 0 d y 0 0
  | .div q d x y => if q.xr then formD q 0 0x04 0 0 d x y 0 else formD q 0 0x04 0 0 d y 0 0
  | .divn q d x y => if q.xr then formD q 0 0x04 1 0 d x y 0 else formD q 0 0x04 1 0 d y 0 0
  | .rem q d x y => if q.xr then formD q 0 0x04 2 0 d x y 0 else formD q 0 0x04 2 0 d y 0 0
  | .remn q d x y => if q.xr then formD q 0 0x04 3 0 d x y 0 else formD q 0 0x04 3 0 d y 0 0
  | .min q d x y => if q.xr then formD q 0 0x05 0 0 d x y 0 else formD q 0 0x05 0 0 d y 0 0
  | .max q d x y => if q.xr then formD q 0 0x05 1 0 d x y 0 else formD q 0 0x05 1 0 d y 0 0
  | .minn q d x y => if q.xr then formD q 0 0x05 2 0 d x y 0 else formD q 0 0x05 2 0 d y 0 0
  | .maxn q d x y => if q.xr then formD q 0 0x05 3 0 d x y 0 else formD q 0 0x05 3 0 d y 0 0
  | .clz q d s => formD q 0 0x06 0 0 d s 0 0
  | .ctz q d s => formD q 0 0x06 1 0 d s 0 0
  | .popc q d s => formD q 0 0x06 2 0 d s 0 0
  | .brev q d s => formD q 0 0x06 3 0 d s 0 0
  | .mov q d s => formD q 0 0x07 0 0 d s 0 0
  | .sel q d x y => if q.xr then formD q 0 0x07 1 0 d x y 0 else formD q 0 0x07 1 0 d y 0 0
  | .exts q f d s => formD q 0 0x07 2 f d s 0 0
  | .extz q f d s => formD q 0 0x07 3 f d s 0 0
  | .cmpEq q k x y => formD q 0 0x08 0 0 (k.setWidth 6) x y 0
  | .cmpLt q k x y => formD q 0 0x08 1 0 (k.setWidth 6) x y 0
  | .cmpLtn q k x y => formD q 0 0x08 2 0 (k.setWidth 6) x y 0
  | .cmpTst q k x y => formD q 0 0x08 3 0 (k.setWidth 6) x y 0
  | .bfx q d s t => formD q 0 0x09 0 0 d s t 0
  | .bfi q d s t => formD q 0 0x09 1 0 d s t 0
  | .addi q d i => formI q 0x0A d i
  | .andi q d i => formI q 0x0B d i
  | .ori q d i => formI q 0x0C d i
  | .xori q d i => formI q 0x0D d i
  | .shli q d i => formI q 0x0E d i
  | .shri q d i => formI q 0x0F d i
  | .sari q d i => formI q 0x10 d i
  | .li q d i => formI q 0x11 d i
  | .hold q i => formI q 0x12 0 i
  | .jmp q i => formJ q 0x13 i
  | .bf q k i => formI q 0x14 (k.setWidth 6) i
  | .bt q k i => formI q 0x14 (k.setWidth 6 + 8) i
  | .call q i => formJ q 0x15 i
  | .jr q s => formD q 0 0x16 0 0 0 s 0 0
  | .callr q s => formD q 0 0x16 1 0 0 s 0 0
  | .ret q => formD q 0 0x16 2 0 0 0 0 0
  | .loop q d i => formI q 0x17 d i
  | .fand q d x y => if q.xr then formD q 0 0x18 0 0 (d.setWidth 6) (x.setWidth 6) (y.setWidth 6) 0 else formD q 0 0x18 0 0 (d.setWidth 6) (y.setWidth 6) 0 0
  | .flagOr q d x y => if q.xr then formD q 0 0x18 1 0 (d.setWidth 6) (x.setWidth 6) (y.setWidth 6) 0 else formD q 0 0x18 1 0 (d.setWidth 6) (y.setWidth 6) 0 0
  | .fxor q d x y => if q.xr then formD q 0 0x18 2 0 (d.setWidth 6) (x.setWidth 6) (y.setWidth 6) 0 else formD q 0 0x18 2 0 (d.setWidth 6) (y.setWidth 6) 0 0
  | .fnot q d s => formD q 0 0x18 3 0 (d.setWidth 6) (s.setWidth 6) 0 0
  | .rdc q d i => formI q 0x19 d i
  | .wrc q d i => formI q 0x1A d i
  | .ldl q f d s i => formD q 0 0x1B 0 f d s 0 i
  | .ldlIndex q f d s t => formD q 0 0x1B 2 f d s t 0
  | .stl q f d s i => formD q 0 0x1C 0 f d s 0 i
  | .stlIndex q f d s t => formD q 0 0x1C 2 f d s t 0
  | .ldg q f d s i => formD q 0 0x1D 0 f d s 0 i
  | .ldgPolicy q f d s t i => formD q 0 0x1D 1 f d s t i
  | .ldgIndex q f d s t => formD q 0 0x1D 2 f d s t 0
  | .stg q f d s i => formD q 0 0x1E 0 f d s 0 i
  | .stgPolicy q f d s t i => formD q 0 0x1E 1 f d s t i
  | .stgIndex q f d s t => formD q 0 0x1E 2 f d s t 0
  | .cinc q d s i => formD q 0 0x1F 0 0 d s 0 i
  | .cincReg q d s t => formD q 0 0x1F 1 0 d s t 0
  | .csetb q d s i => formD q 0 0x20 0 0 d s 0 i
  | .csetbReg q d s t => formD q 0 0x20 1 0 d s t 0
  | .cperm q d s i => formD q 0 0x21 0 0 d s 0 i
  | .cpermReg q d s t => formD q 0 0x21 1 0 d s t 0
  | .cgetBase q d s => formD q 0 0x22 0 0 d s 0 0
  | .cgetTop q d s => formD q 0 0x22 1 0 d s 0 0
  | .cgetPerm q d s => formD q 0 0x22 2 0 d s 0 0
  | .cgetTag q d s => formD q 0 0x22 3 0 d s 0 0
  | .fadd q f d x y => if q.xr then formD q 1 0x00 0 f d x y 0 else formD q 1 0x00 0 f d y 0 0
  | .fsub q f d x y => if q.xr then formD q 1 0x00 1 f d x y 0 else formD q 1 0x00 1 f d y 0 0
  | .fmul q f d x y => if q.xr then formD q 1 0x00 2 f d x y 0 else formD q 1 0x00 2 f d y 0 0
  | .fdiv q f d x y => if q.xr then formD q 1 0x00 3 f d x y 0 else formD q 1 0x00 3 f d y 0 0
  | .fma q f d s t => formD q 1 0x01 0 f d s t 0
  | .fms q f d s t => formD q 1 0x01 1 f d s t 0
  | .fnma q f d s t => formD q 1 0x01 2 f d s t 0
  | .fnms q f d s t => formD q 1 0x01 3 f d s t 0
  | .fmin q f d x y => if q.xr then formD q 1 0x02 0 f d x y 0 else formD q 1 0x02 0 f d y 0 0
  | .fmax q f d x y => if q.xr then formD q 1 0x02 1 f d x y 0 else formD q 1 0x02 1 f d y 0 0
  | .fabs q f d s => formD q 1 0x02 2 f d s 0 0
  | .fneg q f d s => formD q 1 0x02 3 f d s 0 0
  | .fcmpEq q f d x y => formD q 1 0x03 0 f d x y 0
  | .fcmpLt q f d x y => formD q 1 0x03 1 f d x y 0
  | .fcmpLe q f d x y => formD q 1 0x03 2 f d x y 0
  | .fcmpUn q f d x y => formD q 1 0x03 3 f d x y 0
  | .fcvt q f vec d s src => formD q 1 0x04 vec.toNat f d s src 0
  | .frcp q f d s => formD q 1 0x05 0 f d s 0 0
  | .frsq q f d s => formD q 1 0x05 1 f d s 0 0
  | .fexp2 q f d s => formD q 1 0x05 2 f d s 0 0
  | .flog2 q f d s => formD q 1 0x05 3 f d s 0 0
  | .fsig q f d s => formD q 1 0x06 0 f d s 0 0
  | .fsqrt q f d s => formD q 1 0x06 1 f d s 0 0
  | .ftanh q f d s => formD q 1 0x06 2 f d s 0 0
  | .scale q f d s t => formD q 1 0x07 0 f d s t 0
  | .vredAdd q f d s => formD q 1 0x08 0 f d s 0 0
  | .vredMin q f d s => formD q 1 0x08 1 f d s 0 0
  | .vredMax q f d s => formD q 1 0x08 2 f d s 0 0
  | .vredAddx q f d s => formD q 1 0x08 3 f d s 0 0
  | .vbcast q f d s => formD q 1 0x09 0 f d s 0 0
  | .vperm q f d s t => formD q 1 0x09 1 f d s t 0
  | .vshuf q f d s t => formD q 1 0x09 2 f d s t 0
  | .vslide q f d s t => formD q 1 0x09 3 f d s t 0
  | .vsel q f d s t => formD q 1 0x0A 0 f d s t 0
  | .viadd q f d x y => if q.xr then formD q 1 0x0B 0 f d x y 0 else formD q 1 0x0B 0 f d y 0 0
  | .visub q f d x y => if q.xr then formD q 1 0x0B 1 f d x y 0 else formD q 1 0x0B 1 f d y 0 0
  | .vimul q f d x y => if q.xr then formD q 1 0x0B 2 f d x y 0 else formD q 1 0x0B 2 f d y 0 0
  | .vimac q f d s t => formD q 1 0x0B 3 f d s t 0
  | .vand q f d x y => if q.xr then formD q 1 0x0C 0 f d x y 0 else formD q 1 0x0C 0 f d y 0 0
  | .vor q f d x y => if q.xr then formD q 1 0x0C 1 f d x y 0 else formD q 1 0x0C 1 f d y 0 0
  | .vxor q f d x y => if q.xr then formD q 1 0x0C 2 f d x y 0 else formD q 1 0x0C 2 f d y 0 0
  | .vshl q f d x y => if q.xr then formD q 1 0x0C 3 f d x y 0 else formD q 1 0x0C 3 f d y 0 0
  | .vldl q f d s i => formD q 1 0x0D 0 f d s 0 i
  | .vstl q f d s i => formD q 1 0x0D 1 f d s 0 i
  | .vgath q f d s t => formD q 1 0x0E 0 f d s t 0
  | .vscat q f d s t => formD q 1 0x0E 1 f d s t 0
  | .atomAdd q m d s t => formD q 2 0 m.toNat 0 d s t 0
  | .atomMin q m d s t => formD q 2 0 m.toNat 1 d s t 0
  | .atomMax q m d s t => formD q 2 0 m.toNat 2 d s t 0
  | .atomMinn q m d s t => formD q 2 0 m.toNat 3 d s t 0
  | .atomMaxn q m d s t => formD q 2 0 m.toNat 4 d s t 0
  | .atomAnd q m d s t => formD q 2 0 m.toNat 5 d s t 0
  | .atomOr q m d s t => formD q 2 0 m.toNat 6 d s t 0
  | .atomXor q m d s t => formD q 2 0 m.toNat 7 d s t 0
  | .atomXchg q m d s t => formD q 2 0 m.toNat 8 d s t 0
  | .atomCas q m d s t => formD q 2 0 m.toNat 9 d s t 0
  | .atomMinp q d s t => formD q 2 0 1 10 d s t 0
  | .atomSt4 q d s t => formD q 2 0 0 11 d s t 0
  | .redAdd q m s t => formD q 2 1 m.toNat 0 0 s t 0
  | .redMin q m s t => formD q 2 1 m.toNat 1 0 s t 0
  | .redMax q m s t => formD q 2 1 m.toNat 2 0 s t 0
  | .redMinn q m s t => formD q 2 1 m.toNat 3 0 s t 0
  | .redMaxn q m s t => formD q 2 1 m.toNat 4 0 s t 0
  | .redAnd q m s t => formD q 2 1 m.toNat 5 0 s t 0
  | .redOr q m s t => formD q 2 1 m.toNat 6 0 s t 0
  | .redXor q m s t => formD q 2 1 m.toNat 7 0 s t 0
  | .redXchg q m s t => formD q 2 1 m.toNat 8 0 s t 0
  | .redMinp q s t => formD q 2 1 1 10 0 s t 0
  | .redSt4 q s t => formD q 2 1 0 11 0 s t 0
  | .gath q f d s => formD q 2 0x02 0 f d s 0 0
  | .prefSlice q s t i => formD q 2 0x03 0 0 0 s t i
  | .prefStage q s t i => formD q 2 0x03 1 0 0 s t i
  | .fence q sc => formD q 2 0x04 0 (sc.setWidth 6) 0 0 0 0
  | .rel q sc => formD q 2 0x04 1 (sc.setWidth 6) 0 0 0 0
  | .acq q sc => formD q 2 0x04 2 (sc.setWidth 6) 0 0 0 0
  | .ldgv q d s i => formD q 2 0x05 0 0 d s 0 i
  | .stgv q d s i => formD q 2 0x05 1 0 d s 0 i
  | .copyLin q d s => formD q 3 0x00 0 0 d s 0 0
  | .copy2d q d s => formD q 3 0x00 1 0 d s 0 0
  | .copyList q d s => formD q 3 0x00 2 0 d s 0 0
  | .copyFill q d s => formD q 3 0x00 3 0 d s 0 0
  | .dload q d s => formD q 3 0x01 0 0 d s 0 0
  | .dseal q s => formD q 3 0x02 0 0 0 s 0 0
  | .dopen q s => formD q 3 0x02 1 0 0 s 0 0
  | .dstat q d => formD q 3 0x02 2 0 d 0 0 0
  | .dwin q d s => formD q 3 0x03 0 0 d s 0 0
  | .recv q d t => formD q 3 0x04 0 0 d 0 t 0
  | .sendm q d s t => formD q 3 0x05 0 0 d s t 0
  | .mfmt q d s => formD q 4 0x00 0 0 d s 0 0
  | .mm q d s => formD q 4 0x01 0 0 d s 0 0
  | .mmz q d s => formD q 4 0x01 1 0 d s 0 0
  | .mdrain q d s => formD q 4 0x02 0 0 d s 0 0
  | .maccLoad q s => formD q 4 0x03 0 0 0 s 0 0
  | .maccStore q s => formD q 4 0x03 1 0 0 s 0 0
  | .maccClear q => formD q 4 0x03 2 0 0 0 0 0
  | .walk q d s => formD q 4 0x04 0 0 d s 0 0
  | .wresume q d s => formD q 4 0x04 1 0 d s 0 0
  | .wstat q d => formD q 4 0x05 0 0 d 0 0 0
  | .sort q d s => formD q 4 0x06 0 0 d s 0 0
  | .sortc q d s => formD q 4 0x06 1 0 d s 0 0
  | .allot q d s => formD q 5 0x00 0 0 d s 0 0
  | .shrink q d s => formD q 5 0x00 1 0 d s 0 0
  | .bind q d s => formD q 5 0x01 0 0 d s 0 0
  | .bindp q d port out => formD q 5 0x01 1 0 d (port.setWidth 6 + if out then 4 else 0) 0 0
  | .unbind q d => formD q 5 0x01 2 0 d 0 0 0
  | .bstat q d s => formD q 5 0x01 3 0 d s 0 0
  | .launch q d s => formD q 6 0x00 0 0 d s 0 0
  | .fork q s => formD q 6 0x01 0 0 0 s 0 0
  | .join q s => formD q 6 0x02 0 0 0 s 0 0
  | .bar q d s => formD q 6 0x03 0 0 d s 0 0
  | .barx q s => formD q 6 0x03 1 0 0 s 0 0
  | .xsel q d s t => formD q 6 0x04 0 0 d s t 0
  | .xsend q s => formD q 6 0x04 1 0 0 s 0 0
  | .xend q => formD q 6 0x04 2 0 0 0 0 0
  | .waitv q d s t => formD q 6 0x05 0 0 d s t 0
  | .yield q => formD q 6 0x05 1 0 0 0 0 0
  | .seam q d s => formD q 6 0x06 0 0 d s 0 0
  | .panel q d s => formD q 6 0x06 1 0 d s 0 0
  | .seamend q => formD q 6 0x06 2 0 0 0 0 0
  | .spos q d => formD q 6 0x06 3 0 d 0 0 0
  | .sresume q => formD q 6 0x07 0 0 0 0 0 0
  | .trap q fn => formZ q 0x00 fn
  | .tret q => formZ q 0x01 0
  | .hcall q fn => formZ q 0x02 fn
  | .hcallSystem q fn => formZ q 0x02 fn
  | .hcallResize q => formZ q 0x02 512
  | .hcallReturnSwatch q => formZ q 0x02 513
  | .hcallAttest q => formZ q 0x02 514
  | .hcallDamaskTemplate q => formZ q 0x02 515
  | .mark q fn => formZ q 0x03 fn
  | .xinv q d s => formD q 7 0x04 0 0 d s 0 0
  | .idle q => formZ q 0x05 0
  | .idleWake .. => []
  | .hcallReply .. => []
  | .trapEntry .. => []
  | .lateFaultTaken .. => []
  | .storeFaultArrival .. => []
  | .tokenCompletion .. => []
  | .loadReply .. => []
  | .messageDelivery .. => []
  | .portWordArrival .. => []
  | .streamElementFetch .. => []
  | .localBankGrant .. => []
  | .channelPacketSend .. => []
  | .bridgeForward .. => []
  | .homeRequest .. => []
  | .retryReissue .. => []
  | .phaseAnswer .. => []
  | .phaseComplete .. => []
  | .pinRecall .. => []
  | .pinEnd .. => []
  | .localWindowAccess .. => []
  | .fabricExportRequest .. => []
  | .grantRecall .. => []
  | .recallAck .. => []
  | .recallTimeout .. => []
  | .refreshStart .. => []
  | .refreshEnd .. => []
  | .damaskSealed .. => []
  | .damaskOpened .. => []
  | .copyEngineUnit .. => []
  | .dloadUnit .. => []
  | .gathComplete .. => []
  | .mfmtContextChange .. => []
  | .wstatAtHead .. => []
  | .arrayGrant .. => []
  | .matrixRequestComplete .. => []
  | .sorterAccept .. => []
  | .sorterRun .. => []
  | .blockPlacement .. => []
  | .barrierDepart .. => []
  | .exchangeEnter .. => []
  | .exchangeWordHop .. => []
  | .exchangeEnd .. => []
  | .threadEvict .. => []
  | .threadRestore .. => []
  | .waitvWake .. => []
  | .waitvTimeout .. => []
  | .seamForward .. => []
  | .seamfray .. => []
  | .seamendHeadComplete .. => []
  | .press .. => []
  | .boltResume .. => []
  | .takeIn .. => []
  | .letOut .. => []
  | .blockMigrate .. => []
  | .shadowFetch .. => []
  | .shadowLineArrival .. => []
  | .sweeper .. => []
  | .scrub .. => []
  | .rateRelease .. => []
  | .throttleChange .. => []
  | .timeshareSwitch .. => []
  | .watchdog .. => []
  | .triggerMatch .. => []
  | .debugStop .. => []
  | .localEccError .. => []
  | .sliceTagParityError .. => []
  | .engineOutOfService .. => []
  | .qclassWrite .. => []
  | .permtWrite .. => []
  | .wdogWrite .. => []
  | .rateWrite .. => []
  | .trctlWrite .. => []
  | .trringWrite .. => []
  | .lpregWrite .. => []
  | .layoutTableWrite .. => []
  | .groupTableWrite .. => []
  | .evcWrite .. => []
  | .evsWrite .. => []
  | .controlRegisterWrite .. => []
  | .moduleReset .. => []
  | .selfTestRelease .. => []
  | .boltCreate .. => []
  | .probe .. => []
  | .reply .. => []
  | .imageHeader .. => []
  | .imageData .. => []
  | .ack .. => []
  | .ackHolderPush .. => []
  | .memoryRequestFlit .. => []
  | .memoryReplyFlit .. => []
  | .grantOrRecallFlit .. => []
  | .checkpointDataFlit .. => []
  | .resendRequest .. => []
  | .timeSync .. => []
  | .checkpoint .. => []
  | .powerLimitSet .. => []
  | .rolnisRestart .. => []
  | .boltEnd .. => []
  | .swatchAdd .. => []
  | .dramResponse .. => []
  | .recoveryNewImage .. => []
  | .fabricJoin .. => []
  | .discardedWord .. => []
  | .discardedFlit .. => []

/-- The bytes of an instruction's parcels in memory order (R41). -/
def encodeBytes (i : Instr) : List (BitVec 8) :=
  (encode i).flatMap (fun p => [BitVec.ofNat 8 (p.toNat % 256), BitVec.ofNat 8 (p.toNat / 256)])

/-- The parcels of a word of the opcode table: the table gives an instruction's FIRST parcel the highest bits, so the words
stand last parcel first, unless the lowest is itself a prefix (assumption 3). (assumption 3, DEDUCED) -/
def tableParcels (nbits w : Nat) : List Parcel :=
  let low := (List.range ((nbits + 15) / 16)).map (fun j => parcel (w / 65536 ^ j % 65536))
  if (low.head?.map isPrefix).getD false then low else low.reverse

/-- The instruction the decoder reads from a word of the opcode table. (assumption 3, DEDUCED) -/
def decodeTableWord (nbits w : Nat) : Option Instr :=
  match decode (tableParcels nbits w) with
  | .ok (i, _) => some i
  | .error _ => none

end Sys2Proof
end

