-- ==== Sys2Proof/Config.lean ====
section
/-!
DEFINITION. What the module fixes (R2) and the free values: opaque functions of which nothing is known, for values
the reference does not state.
-/
namespace Sys2Proof.Config

/-- Compute dies of the module (R2). -/
def dies : Nat := 2
/-- Cores of one die, a 32 × 32 mesh (R2). -/
def coresPerDie : Nat := 1024
/-- Clusters of the module (R2). -/
def clusters : Nat := 256
/-- Home slices of the module (R2). -/
def slices : Nat := 128
/-- Swatches of the module, 1 GiB each (R65). -/
def swatches : Nat := 384
/-- Bytes of one cluster's local memory (R127). -/
def localBytes : Nat := 0x200000
/-- Bytes of one Damask slice (R117). -/
def damaskBytes : Nat := 0x1800000
/-- Bytes of one B-stage buffer (R142). -/
def bstageBytes : Nat := 0x40000
/-- Physical register entries of one core (R165). -/
def regEntries : Nat := 192

/-- Requests that a cluster's network interface holds before its injection queue is full (R357): the rules give no number.
(assumption 61, DESIGN CHOICE) -/
def injectionPlaces : Nat := 64

/-- FREE VALUE: byte `a` of a B-stage buffer that a walk may have overwritten (R228, R245); the first argument is the
buffer's generation, so that every walk leaves fresh bytes. Also what lies past the end of a Damask slice (R117).
(assumption 10, DESIGN CHOICE; assumption 54, DESIGN CHOICE) -/
opaque freeByte : Nat → Nat → BitVec 8

/-- FREE VALUE: the SHA3-512 digest of a byte string (R372, R374, R378): the reference names the function and states no
value of it. (assumption 8, DESIGN CHOICE) -/
opaque digest : List (BitVec 8) → BitVec 512

/-- FREE VALUE: the ML-DSA-87 signature, 4,627 bytes, by the module identity key (R374, R378). (assumption 8, DESIGN CHOICE) -/
opaque signature : List (BitVec 8) → Nat → BitVec 8

/-- FREE VALUE: the digest of the module identity public key (R374). (assumption 8, DESIGN CHOICE) -/
opaque identityDigest : BitVec 512

/-- FREE VALUE: whether an image verifies against the root public key (R372, R373). (assumption 8, DESIGN CHOICE) -/
opaque verifies : List (BitVec 8) → Bool

/-- FREE VALUE: whether the signature of a checkpoint's manifest verifies against the module identity key (R378).
(assumption 8, DESIGN CHOICE) -/
opaque verifiesManifest : List (BitVec 8) → List (BitVec 8) → Bool

/-- FREE VALUE: byte `i` of the answer a peer module gives to fabric-window access number `k` (R82): the exporter's memory
is not this module's. (assumption 9, DESIGN CHOICE) -/
opaque peerByte : Nat → Nat → BitVec 8

/-- FREE VALUE: whether the exporter finds a fault at the fabric-window access number `k` made at a tick (R82, R83): the first
argument is GTIME. (assumption 9, DESIGN CHOICE) -/
opaque peerRefuses : Nat → Nat → Bool

/-- The clock in sixteenths, less 8, at which Rolnis runs a region under a power limit below 2,400 W, by the limit and the cluster (R379).
(assumption 95, DESIGN CHOICE) -/
opaque powerClock : Nat → Nat → Nat

/-- The temperature of a die that the sideband carries, by die and GTIME (R379). (assumption 95, DESIGN CHOICE) -/
opaque dieTemperature : Nat → Nat → Nat

end Sys2Proof.Config
end

