-- ==== Sys2Proof/Machine/State.lean ====
section
/-!
DEFINITION. The state of the module as plain data: threads, cores, clusters, home slices, dies, bolts, Rolnis and the
fabric; what a step can stop with; the state after module reset.
-/
namespace Sys2Proof.Machine

/-- A sparse map by number: keys strictly rising, entries at the default left out (kept so by `Map.put` of Ops). -/
abbrev Map (α : Type) := List (Nat × α)

/-- Who stops the machine. (assumption 12, DESIGN CHOICE) -/
inductive Fault where
  /-- Raised by an event row that names a core, cluster, slice, die, lane or bolt the module does not have (R2): no such
  step exists. Safe: the machine stops where the hardware has no behaviour. -/
  | noSuchUnit
  deriving DecidableEq, Repr

/-- What the model gives no meaning. -/
inductive Refusal where
  /-- Raised only by an arm of `exec` that is not written yet. Safe: nothing is proved of the row. -/
  | notModelled (mnemonic : String)
  deriving DecidableEq, Repr

/-- The value of a g register: 128 data bits and the tag (R151). -/
structure Val where
  bits : BitVec 128 := 0
  tag : Bool := false
  deriving DecidableEq, Repr

/-- A byte memory with a tag for each aligned 16 bytes (R107, R127). -/
structure Mem where
  cells : List Host.Cell := []
  tags : Map Bool := []
  deriving DecidableEq, Repr

/-- The thread-taken and Rolnis-taken causes (R325). -/
inductive Cause where
  | illegal | allot | group | captag | capbound | capperm | localprot | page | map | storefault | scale | stallcount
  | coproc | walk | damask | perm | seamfray | stream | trap | hcall
  | watchdog | nested | savefault | machinecheck
  deriving DecidableEq, Repr

/-- A command's sequence number (R331), and the number that tells it from every other command of the module: the sequence numbers run
modulo 256, so two commands in progress may share one. (assumption 60, DESIGN CHOICE) -/
structure SeqNo where
  num : BitVec 8
  id : Nat
  deriving DecidableEq, Repr

/-- Where a blocked thread waits (R299, R367). `retry` reasons issue their instruction again; the others are ended by
an event row. -/
inductive Wait where
  | none
  /-- a scoreboarded operand (R57) -/
  | operand
  /-- a full queue: copy engine, request queue, coprocessor ring, injection (R143, R225, R331, R357) -/
  | place
  /-- the same, in MACC or WAITV, which wait on memory (R367) -/
  | memPlace
  /-- a release, fence or JOIN wait, or the release of SEAMEND (R276, R295, R315) -/
  | release
  /-- the release of a barrier, before its arrival: BAR, BARX, XEND (R285, R301) -/
  | arrival
  /-- the release that a write-stream element makes under a policy that asks for one (R94) -/
  | streamRelease (scope : Nat)
  /-- a change of QCLASS (R355) -/
  | qclass
  /-- DSEAL or DOPEN (R125) -/
  | damask
  /-- RECV with no message (R150) -/
  | message
  /-- a port read on an empty queue, a port write to a full one (R173) -/
  | portIn (side : BitVec 2)
  | portOut (side : BitVec 2)
  /-- the answer of a global access (R72) -/
  | answer
  /-- BAR: bolt, group and the generation it waits to end (R301) -/
  | barrier (bolt group gen : Nat)
  /-- BARX, before the exchange phase (R302) -/
  | exchange (bolt group gen : Nat)
  /-- XEND (R305) -/
  | xend
  /-- IDLE (R339) -/
  | idle
  /-- a supervisor HCALL (R337) -/
  | hcall (fn : BitVec 10)
  /-- WAITV on the line of a word (R306) -/
  | watch (va since : Nat)
  /-- MACC (R240) -/
  | macc
  /-- the head at SEAMEND (R315) -/
  | seamEnd
  deriving DecidableEq, Repr

/-- What a slot holds. -/
inductive Occ where
  | empty
  | resident
  /-- escalated: stopped until Rolnis acts (R335) -/
  | stopped
  /-- saved by an eviction (R299); the slot is free -/
  | evicted
  /-- saved by a press (R346) -/
  | pressed
  deriving DecidableEq, Repr

/-- A binding of a bindable register (R167). -/
inductive Binding where
  /-- read or write stream: base capability, stride, count, width code, sign-extend, policy, next element, fetched elements -/
  | stream (write : Bool) (cap : Val) (stride : Int) (count : Nat) (w : Nat) (sx : Bool) (pol : BitVec 32) (pos : Nat)
      (fetched : List Val)
  | port (out : Bool) (side : BitVec 2)
  deriving DecidableEq, Repr

/-- A late fault recorded against a thread (R9, R329). -/
structure Late where
  cause : Cause
  seq : SeqNo
  deriving DecidableEq, Repr

/-- A scoreboard entry of a fixed-latency result (R54, R55): register number, or 64 + flag; when it is ready in counted
cycles and in elapsed cycles. -/
structure Due where
  what : Nat
  cnt : Nat
  cyc : Nat
  deriving DecidableEq, Repr

/-- How a load's bytes become the value of its register (R109). -/
inductive Ext where
  | sx (n : Nat) | zx | full (lc : Bool) | group
  deriving DecidableEq, Repr

/-- A global access whose answer the thread awaits: destination, extension, bytes gathered so far by offset, parts
still out, the first fault met (R72, R108). -/
structure Await where
  dst : Nat
  ext : Ext
  size : Nat
  bytes : Map (BitVec 8) := []
  tag : Bool := false
  parts : Nat
  fault : Option (Cause × W64) := Option.none
  /-- what a fault gives back: the instruction's pc, the bindings before it, port words it popped (R8, R170) -/
  pc : W64 := 0
  binds : Map Binding := []
  popped : List (BitVec 2 × W64) := []
  /-- WAITV: address and the expected word (R306) -/
  watch : Option (Nat × W64) := Option.none
  /-- the access's number: an answer to an abandoned access is discarded (R317) -/
  acc : Nat := 0
  /-- an ATOM: it may have been performed, so it is never abandoned (R317) -/
  atom : Bool := false
  deriving DecidableEq, Repr

/-- A member's place in its seam or panel (R308, R317). -/
structure Seam where
  head : Nat
  row : Nat
  col : Nat
  ncols : Nat
  nrows : Nat
  skew : Nat
  /-- next stream index the member executes -/
  next : Nat := 0
  stopped : Bool := false
  deriving DecidableEq, Repr

/-- The head's record of its stream and of a fray (R309, R317, R318). -/
structure Stream where
  /-- PC of each index, newest first, at most 512 -/
  log : List (Nat × W64) := []
  /-- instructions forwarded: index, instruction, the head's guard, the head's counted cycle of issue -/
  fwd : List (Nat × Instr × Bool × Nat) := []
  index : Nat := 0
  frayed : Bool := false
  /-- draining before SEAMFRAY is taken -/
  draining : Bool := false
  frayIndex : Nat := 0
  frayTid : Nat := 0
  frayCause : Cause := .illegal
  frayTval : W64 := 0
  /-- the late fault that frays it -/
  frayLate : Option SeqNo := Option.none
  deriving DecidableEq, Repr

/-- A store-fault queue entry (R332), or one on its way to the queue: then the writer of the packet (slice h, 128 + cluster, or the
bridge), its service class and its number in the order of sending (R86, R87). -/
structure StoreFault where
  tid : Nat
  cause : Cause
  tval : W64
  src : Nat := 0
  cls : BitVec 2 := 1
  no : Nat := 0
  deriving DecidableEq, Repr

/-- A message of the inbox, or on its way (R147, R148); `header` names the sender's slot as it sent, and the count (R149). -/
structure Msg where
  src : Nat
  dstCluster : Nat
  dstCore : Nat
  dstSlot : Nat
  words : List W64
  header : W64 := 0
  /-- register of the sender that receives the delivery status -/
  stat : Nat
  /-- the sender's bolt (R344) -/
  bolt : Nat := 0
  deriving DecidableEq, Repr

/-- Where the context of an evicted thread is saved (R299): register entries of a core, or a page of a cluster's local memory. -/
inductive SaveRoom where
  | entries (core : Nat)
  | page (cluster base : Nat)
  deriving DecidableEq, Repr

/-- A hardware thread slot with the thread in it (R287, R151, R177, R340). (assumption 6, DESIGN CHOICE) -/
structure Thread where
  occ : Occ := .empty
  bolt : Nat := 0
  launch : Nat := 0
  block : Nat := 0
  regs : Map Val := []
  flags : BitVec 8 := 0
  pc : W64 := 0
  ecap : Val := {}
  allot : Nat := 0
  mode : Bool := false
  check : Bool := false
  xchg : Bool := false
  seamed : Bool := false
  handler : Bool := false
  cause : W64 := 0
  tval : W64 := 0
  tpc : W64 := 0
  tvec : W64 := 0
  frm : BitVec 2 := 0
  pol : BitVec 32 := 0
  gslot : Map (BitVec 9) := []
  tidx : BitVec 32 := 0
  blockReg : BitVec 45 := 0
  seampos : W64 := 0
  z : Map Val := []
  qclass : BitVec 2 := 1
  binds : Map Binding := []
  /-- registers whose variable-latency result or token is pending (R57, R138) -/
  pending : List Nat := []
  /-- pending commands: sequence number, token register (64 for none), and who waits for it: 0 none (LAUNCH), 1 JOIN
  (MFMT, WSTAT), 2 JOIN and FENCE (R138, R276, R295) -/
  cmds : List (SeqNo × Nat × Nat) := []
  due : List Due := []
  cnt : Nat := 0
  cyc : Nat := 0
  hold : Nat := 0
  late : List Late := []
  lateSeq : Option SeqNo := Option.none
  lost : Bool := false
  wait : Wait := .none
  /-- progress of an instruction that proceeds in stages -/
  stage : Nat := 0
  /-- phases whose completion the instruction in progress awaits (R276) -/
  phases : List Nat := []
  await : Option Await := Option.none
  /-- a write to the line that WAITV watches was performed (R306) -/
  woken : Bool := false
  /-- a token completed since the last IDLE or the placement (R339) -/
  tokDone : Bool := false
  seam : Option Seam := Option.none
  strm : Option Stream := Option.none
  passed : Nat := 0
  /-- a recruit of FORK (R294, R300) -/
  recruit : Bool := false
  /-- it has issued a request to its core's matrix context (R300) -/
  usedMatrix : Bool := false
  /-- YIELD: slots that go first (R307); `yielding` from its issue until the next cycle shows which are ready -/
  yields : List Nat := []
  yielding : Bool := false
  /-- an evicted thread: where its context is saved; and what is saved with a context of the core's queues (R150, R299, R340) -/
  room : Option SaveRoom := Option.none
  savedMsgs : List Msg := []
  savedFaults : List StoreFault := []
  /-- of a supervisor HCALL: GTIME, and the bolt's clusters and swatches, at the tick of the call (R374) -/
  asked : Nat × List Nat × List Nat := (0, [], [])
  /-- a release in progress: packets numbered below were sent before it began (R282) -/
  relNo : Nat := 0
  /-- a write-stream element's release is done (R94); the acquire of the last such element is due -/
  relOk : Bool := false
  acqDue : Bool := false
  blockedAt : Nat := 0
  /-- the group whose exchange phase the thread is in, and the counted cycle that is the phase's cycle 0 (R302) -/
  xphase : Option Nat := Option.none
  xcyc : Nat := 0
  /-- last state written to the trace ring (R367) -/
  traced : BitVec 2 := 3
  deriving DecidableEq, Repr

/-- A coprocessor ring entry (R331): its sequence number, the thread that issued it and the slot it issued from. -/
structure Ring where
  seq : SeqNo
  tid : Nat
  slot : Nat
  pc : W64
  page : Nat
  major : Nat
  m : Nat
  fault : Bool := false
  deriving DecidableEq, Repr

/-- A request of a core's matrix queue (R225). `regs` is the command group as read at issue, `cls` the service class at issue (R89). -/
structure MReq where
  /-- 0 MFMT, 1 MM, 2 MMZ, 3 MDRAIN, 4 to 6 MACC, 7 WALK, 8 WRESUME, 9 WSTAT, 10 SORT, 11 SORTC -/
  kind : Nat
  tid : Nat
  bolt : Nat
  tok : Nat
  seq : SeqNo
  mode : Bool
  cls : BitVec 2 := 1
  lb : Nat
  word : BitVec 32 := 0
  regs : List Val := []
  /-- A elements popped from a stream on g8 (R227) -/
  stream : Option (List Nat) := Option.none
  /-- layout entry of SORT (R262) -/
  layout : List W64 := []
  /-- 0 not granted; granted: 1 without a Damask read, 2 with one under way, 3 refused by the slice's state -/
  grant : Nat := 0
  deriving DecidableEq, Repr

/-- A closing phase of a core (R101): its number, the destinations whose answers are out (slice d, or 128 + cluster),
and whether it is the close a recalled pin asked for. -/
structure Closing where
  phase : Nat
  dests : List Nat
  /-- bolt and line of each -/
  pins : List (Nat × Nat) := []
  deriving DecidableEq, Repr

/-- What a router holds in the boot state (R382): its coordinates once set, the region size, the parent side, the ACK holder, the side
it served last, an image stream under way. -/
structure Router where
  x : Nat := 0
  y : Nat := 0
  coord : Bool := false
  w : Nat := 0
  hgt : Nat := 0
  parent : BitVec 2 := 0
  holder : Option W64 := Option.none
  served : Option (BitVec 2) := Option.none
  /-- image stream: side, words due, index of the next data word -/
  img : Option (BitVec 2 × Nat × Nat) := Option.none
  deriving DecidableEq, Repr

/-- A core: what its four threads share. (assumption 6, DESIGN CHOICE) -/
structure Core where
  live : Bool := false
  phase : BitVec 2 := 0
  /-- writes sent in each phase to each destination: key phase * 2^40 + destination (R100) -/
  sent : Map Nat := []
  closing : List Closing := []
  /-- store faults that wait for their threads (R332) -/
  sfq : List StoreFault := []
  seq : BitVec 8 := 0
  /-- ring entries, the newest first -/
  ring : List Ring := []
  cpri : BitVec 16 := 0
  evc : Map (BitVec 32) := []
  evs : Map (BitVec 11) := []
  cycle : Nat := 0
  /-- time gone by that is not counted in cycles yet, in sixteen-hundredths of a cycle (R358); below zero where issues have counted more -/
  frac : Int := 0
  last : Nat := 3
  inbox : List Msg := []
  /-- arrival queues N, E, S, W (R172), and the exchange cycle of the last pop of each in the phase under way -/
  ports : Map (List W64) := []
  popAt : Map Nat := []
  router : Router := {}
  /-- exchange route entries (R303) -/
  routes : List (BitVec 32) := []
  fmtLatest : BitVec 32 := 0
  fmtNow : BitVec 32 := 0
  tile : Map (BitVec 32) := []
  mq : List MReq := []
  walkrec : BitVec 128 := 0
  deriving DecidableEq, Repr

/-- A request of the copy engine: COPY or DLOAD (R143, R124). -/
structure CReq where
  /-- 0 to 3 the COPY variants, 4 DLOAD -/
  kind : Nat
  tid : Nat
  bolt : Nat
  tok : Nat
  seq : SeqNo
  mode : Bool
  lb : Nat
  ws : Nat
  regs : List Val
  pol : BitVec 32
  /-- its service class at issue (R89) -/
  cls : BitVec 2 := 1
  /-- the core that issued it -/
  core : Nat := 0
  u : Nat := 0
  row : Nat := 0
  done : Nat := 0
  deriving DecidableEq, Repr

/-- A gather in progress (R115). -/
structure GReq where
  tid : Nat
  bolt : Nat
  /-- local base of the window that receives the words -/
  lb : Nat
  tok : Nat
  seq : SeqNo
  addrs : List Nat
  wb : Nat
  /-- offset of the destination in the thread's window -/
  dst : Nat
  pol : BitVec 32
  mode : Bool
  /-- its service class at issue (R89) -/
  cls : BitVec 2 := 1
  /-- the core that issued it -/
  core : Nat := 0
  deriving DecidableEq, Repr

/-- A core's access waiting at the local-memory banks (R128). -/
structure LReq where
  tid : Nat
  /-- true for a store -/
  store : Bool
  /-- nibble of a 4-bit access -/
  nib : Option Bool := Option.none
  /-- pieces: local address, bytes, place in the register data -/
  pieces : List (Nat × Nat × Nat)
  data : BitVec 512 := 0
  tag : Bool := false
  /-- loads: destination register and extension -/
  dst : Nat := 0
  ext : Ext := .zx
  /-- its 16-byte units that have not been granted yet, as addresses divided by 16 -/
  left : List Nat := []
  /-- by bank: the cycles it has waited there -/
  waited : Map Nat := []
  /-- its number in the order in which accesses and commands issue -/
  no : Nat := 0
  deriving DecidableEq, Repr

/-- Who owns a cluster or slice (R344). -/
inductive Owner where
  | free | quarantine | bolt (b : Nat)
  deriving DecidableEq, Repr

/-- The operation of a global request. -/
inductive ReqOp where
  | load (lc : Bool)
  | store (data : BitVec 512) (tag : Bool)
  | atom (op : Nat) (w : Nat) (opnd cmp : BitVec 128) (reply : Bool)
  | pref (stage : Bool)
  /-- the Sorter asks whether a write would be translated, before it writes anything of a token (R264) -/
  | probe
  deriving DecidableEq, Repr

/-- On whose behalf a request is made that is no thread's own access: an engine, a stream, the launch unit, system software. `key` names
the list of the bolt in which its answers are kept, `requester` the stream detector (R99), `cluster` the cluster whose PERMT allows its
window accesses; `free` requests go on although a press holds their bolt (R265). -/
structure Agent where
  bolt : Nat
  key : Nat
  requester : Nat
  cluster : Nat
  free : Bool := false
  deriving DecidableEq, Repr

/-- A request or one line part of it (R86, R108). -/
structure Req where
  tid : Nat
  bolt : Nat
  cls : BitVec 2
  phase : BitVec 2
  va : Nat
  n : Nat
  off : Nat
  pol : BitVec 32
  op : ReqOp
  mode : Bool
  /-- destination: slice h, or 128 + cluster for a local window (R90, R80) -/
  dest : Nat
  /-- the access it belongs to -/
  acc : Nat := 0
  /-- its number in the order of issue, and the core it was sent from, whatever becomes of its thread (R100) -/
  no : Nat := 0
  core : Nat := 0
  /-- its number in the order of arrival at a home (R92), or in the order of sending on a cluster's channel, with its writer (R87) -/
  at_ : Nat := 0
  src : Nat := 0
  agent : Option Agent := Option.none
  deriving DecidableEq, Repr

/-- An answer on its way to a thread: the part's offset, bytes or fault (R72); the writer of the packet, its class and its number
in the order of sending (R86, R87). -/
structure Reply where
  tid : Nat
  acc : Nat := 0
  off : Nat
  bytes : List (BitVec 8)
  tag : Bool := false
  fault : Option (Cause × W64) := Option.none
  src : Nat := 0
  cls : BitVec 2 := 1
  no : Nat := 0
  /-- an agent's answer, and the core that stands for its place -/
  agent : Option Agent := Option.none
  core : Nat := 0
  deriving DecidableEq, Repr

/-- Who makes an access: bolt, cluster, core, mode, stream-detector number, policy word, service class, whether the access pins its line
(R281), and whether it goes on under a press (R265). -/
structure Who where
  bolt : Nat
  cluster : Nat
  core : Nat
  mode : Bool
  requester : Nat
  pol : BitVec 32
  cls : BitVec 2 := 1
  pins : Bool := false
  free : Bool := false
  deriving DecidableEq, Repr

/-- A global access of an agent under way: a read, a write of `data`, or a probe of a write; its number, how many of its line parts are
sent and answered, what came back, the fault of the lowest part that failed; which attempt asked for it; whether the agent's
performance in progress has used it. -/
structure Pull where
  va : Nat
  n : Nat
  data : Option (List (BitVec 8)) := Option.none
  probe : Bool := false
  stamp : Nat := 0
  acc : Nat
  sent : Nat := 0
  got : Nat := 0
  bytes : Map (BitVec 8) := []
  tag : Bool := false
  fault : Option (Nat × Cause × W64) := Option.none
  used : Bool := false
  deriving DecidableEq, Repr

/-- What an agent asks for next: the access as it then stands in the list of its key, after the first `keep` of it, and the requests that
go out. -/
structure Ask where
  bolt : Nat
  key : Nat
  keep : Nat
  pull : Pull
  reqs : List Req
  deriving DecidableEq, Repr

/-- A packet that crosses the die bridge (R89). -/
inductive Packet where
  | request (r : Req)
  | reply (r : Reply)
  | fault (f : StoreFault)
  deriving DecidableEq, Repr

/-- A pin on a line (R281): cluster, core, tick, current scope, the number of the access that made it. -/
structure Pin where
  cluster : Nat
  core : Nat
  tick : Nat
  scope : Nat
  no : Nat := 0
  recalled : Bool := false
  deriving DecidableEq, Repr

/-- A cached line (R91). -/
structure Line where
  bolt : Nat
  /-- VA[51:6] -/
  line : Nat
  /-- the physical address the line writes back to -/
  pa : Nat
  data : BitVec 512
  tags : BitVec 4
  dirty : Bool := false
  cls : Nat := 1
  used : Nat := 0
  pin : Option Pin := Option.none
  deriving DecidableEq, Repr

/-- A staging entry (R98): kind 0 read fill, 1 write merge, 2 staged for a core. -/
structure Staged where
  kind : Nat
  bolt : Nat
  line : Nat
  pa : Nat
  data : BitVec 512
  tags : BitVec 4
  core : Nat := 0
  /-- the service class of the request that DRAM serves (R355) -/
  cls : BitVec 2 := 1
  deriving DecidableEq, Repr

/-- A translation-cache entry (R77): bolt, first VA page (64 KiB units), pages, leaf entry. -/
structure Xlat where
  bolt : Nat
  page : Nat
  pages : Nat
  leaf : W64
  deriving DecidableEq, Repr

/-- A home slice (R91 to R99). -/
structure Slice where
  owner : Owner := .free
  chan : List Req := []
  chan0 : List Req := []
  /-- ways: key set * 16 + way -/
  ways : Map Line := []
  staging : List Staged := []
  xlat : List Xlat := []
  /-- stream detectors by requester: line and count (R99) -/
  detect : Map (Nat × Nat) := []
  /-- arrival counts: key core * 4 + phase (R100) -/
  arrived : Map Nat := []
  /-- how often classes 2 and 3 have been passed over, at the slice and at DRAM (R355) -/
  skipped : Map Nat := []
  dramSkipped : Map Nat := []
  /-- requests refused with RETRY, in order, with the line (R282) -/
  refused : List Req := []
  clock : Nat := 0
  /-- lines whose record has moved here while their block is shadow, lines being fetched, requests held (R351) -/
  record : List Nat := []
  fetching : List Nat := []
  heldReqs : List Req := []
  swmask : List Nat := []
  /-- errors of DRAM corrected (R342) -/
  corrected : Nat := 0
  deriving DecidableEq, Repr

/-- A cluster (R2, R127, R224). (assumption 6, DESIGN CHOICE) -/
structure Cluster where
  owner : Owner := .free
  mem : Mem := {}
  damask : List Host.Cell := []
  dstate : BitVec 2 := 0
  loads : Nat := 0
  reads : Nat := 0
  refreshing : BitVec 8 := 0
  bstage : List Host.Cell := []
  bstageGen : Nat := 0
  lpreg : Map W64 := []
  permt : List Nat := []
  lq : List LReq := []
  /-- by bank: the core granted last, where it is not the last in the round robin (R128) -/
  lastCore : Map Nat := []
  cq : List CReq := []
  gq : List GReq := []
  ni : List Req := []
  /-- requests held by a rate limiter (R357) -/
  rated : List Req := []
  /-- local-window requests arriving (R80) -/
  win : List Req := []
  arrived : Map Nat := []
  arrayLast : Nat := 7
  arrayBusy : Option Nat := Option.none
  copyOut : Bool := false
  matrixOut : Bool := false
  throttle : Nat := 16
  /-- join cells: count and launch (R294) -/
  cells : Map (Nat × Nat × W64) := []
  trBase : Nat := 0
  trWptr : Nat := 0
  trWrap : Bool := false
  trTick : Nat := 0
  deriving DecidableEq, Repr

/-- A placed block (R80, R131, R287). -/
structure Block where
  launch : Nat
  bolt : Nat
  cluster : Nat
  lb : Nat
  ws : Nat
  window : Nat
  live : Nat
  deriving DecidableEq, Repr

/-- A launch from its LAUNCH to its end (R287, R290). -/
structure Launch where
  bolt : Nat
  tid : Nat
  tok : Nat
  seq : SeqNo
  recVa : Nat
  entry : Val
  presets : List W64
  blocks : Nat
  threads : Nat
  ws : Nat
  allot : Nat
  place : Nat
  prio : Nat
  img : Option Nat
  groups : List Nat
  g3 : Val
  qclass : BitVec 2
  next : Nat := 0
  /-- the cluster that received its previous block, and that cluster's place in the bolt's list then (R292) -/
  lastAt : Option (Nat × Nat) := Option.none
  placed : Nat := 0
  retired : Nat := 0
  /-- the fault that stopped its placement (R390) -/
  failed : Option (Cause × W64) := Option.none
  /-- the masks of its groups of FORM 3, as read at LAUNCH: key entry -/
  masks : Map Nat := []
  /-- word 0 of its groups' entries, as bound at LAUNCH (R291) -/
  forms : Map W64 := []
  deriving DecidableEq, Repr

/-- A fabric import slot (R82). -/
structure Import where
  bound : Bool := false
  peer : Nat := 0
  grant : Nat := 0
  len : Nat := 0
  rd : Bool := false
  w : Bool := false
  at_ : Bool := false
  deriving DecidableEq, Repr

/-- An exported grant (R83): state 0 live, 1 recalled, 2 retired, 3 reusable. -/
structure Grant where
  bolt : Nat
  base : Nat
  len : Nat
  state : Nat := 0
  refusals : Nat := 0
  tick : Nat := 0
  deriving DecidableEq, Repr

/-- What the barriers of a group need of the order of accesses (R285): the cores that members have left in the generation under way and
the narrowest scope at which a member has released in it; of the generation before, its cores, that scope, and the number of the next
packet as it ended. -/
structure Barrier where
  left : List Nat := []
  least : Nat := 5
  cores : List Nat := []
  scope : Nat := 5
  no : Nat := 0
  deriving DecidableEq, Repr

/-- A bolt (R344 to R360). (assumption 6, DESIGN CHOICE) -/
structure Bolt where
  live : Bool := false
  clusters : List Nat := []
  slices : List Nat := []
  /-- the slice list before a rehash under way, the old homes whose sweep has not ended, and the list of a rehash to come
  (R349, R351) -/
  oldSlices : List Nat := []
  sweeping : List Nat := []
  newSlices : Option (List Nat) := Option.none
  root : Nat := 0
  swatches : List Nat := []
  imports : Map Import := []
  /-- group table: key 4 * entry + word (R289) -/
  groups : Map W64 := []
  /-- the gather of the generation under way: EVC0 to EVC15 by group * 2^40 + core (R301) -/
  snaps : Map (List Nat) := []
  /-- who requested it: group, thread, capability -/
  gathers : List (Nat × Nat × Val) := []
  /-- records of gathers that are still to be written in global memory before any member departs: group, thread, capability, bytes (R301) -/
  records : List (Nat × Nat × Val × List (BitVec 8)) := []
  /-- by group -/
  barriers : Map Barrier := []
  evict : BitVec 32 := 0
  /-- lost cycles, in units of a sixteen-hundredth (R358) -/
  lost : Nat := 0
  ltvec : W64 := 0
  trctl : W64 := 0
  trig : Map W64 := []
  wdog : W64 := 0
  /-- eligible cycles since the last commit, in hundredths (R359) -/
  wcount : Nat := 0
  /-- whether the count has fired since it was last reset (R359) -/
  wfired : Bool := false
  /-- the tick until which its slice of the shared clusters lasts, and the lost time, in ticks, that longer slices have repaid (R358) -/
  sliceEnd : Nat := 0
  repaid : Nat := 0
  rate : Map W64 := []
  rateCeil : Map W64 := []
  /-- token buckets in bytes, possibly in debt (R357) -/
  bucket : Map Int := []
  sstep : Nat := 0
  class0 : Bool := false
  template : Option (List Host.Cell × Nat) := Option.none
  pressed : Bool := false
  /-- individually pressed blocks -/
  pressedBlocks : List Nat := []
  /-- requests swept at a press, reinjected at resume (R346) -/
  swept : List Req := []
  /-- global accesses of its engines, streams and launches under way, by agent (R89) -/
  pulls : Map (List Pull) := []
  departing : List Nat := []
  stopped : Bool := false
  /-- an exchange boundary has come with STOPREQ set: the debug stop is due (R364) -/
  stopDue : Bool := false
  image : List (BitVec 8) := []
  /-- the capability its system image starts under (R371) -/
  entry : Val := {}
  deriving DecidableEq, Repr

/-- A Sorter (R259). -/
structure Sorter where
  queue : List (Nat × MReq) := []
  out : Bool := false
  /-- layout table: key 4 * entry + word (R260) -/
  layout : Map W64 := []
  deriving DecidableEq, Repr

/-- A compute die. -/
structure Die where
  sorter : Sorter := {}
  /-- packets crossing the bridge to this die (R89) -/
  bridge : List Packet := []
  deriving DecidableEq, Repr

/-- A status word on its way to a token register (R139), with the late fault recorded with it (R269). -/
structure Completion where
  tid : Nat
  reg : Nat
  word : W64
  seq : SeqNo
  late : Option Cause := Option.none
  /-- a LAUNCH whose image could not be read: the record's address and the TVAL of the first VA that failed (R390) -/
  image : Option (W64 × W64) := Option.none
  deriving DecidableEq, Repr

/-- A word on the exchange wires: bolt and group of its phase, core it stands at, side it enters by (4 = C), exchange cycle (R304). -/
structure XWord where
  bolt : Nat
  group : Nat := 0
  core : Nat
  from_ : Nat
  cyc : Nat
  word : W64
  deriving DecidableEq, Repr

/-- A word on its way into an arrival queue (R173): its sender's bolt (none for a boot router), and the group and exchange cycle of a
push made in an exchange phase. -/
structure PWord where
  core : Nat
  side : BitVec 2
  word : W64
  bolt : Option Nat := Option.none
  xat : Option (Nat × Nat) := Option.none
  deriving DecidableEq, Repr

/-- A record of a cluster's trace ring that the step in progress has made, but for STATE records (R366). -/
structure TraceRec where
  cluster : Nat
  core : Nat := 0
  slot : Nat := 0
  kind : Nat
  rest : List Nat := []
  deriving DecidableEq, Repr

/-- A report to Rolnis (R335, R341, R343, R359, R373). -/
structure Report where
  cause : Cause
  tid : Nat := 0
  first : BitVec 8 := 0
  second : BitVec 8 := 0
  tval : W64 := 0
  pc : W64 := 0
  deriving DecidableEq, Repr

/-- A fabric packet (R375): its TYPE and CLASS and the payloads of its one to four flits. -/
structure FPacket where
  type : Nat
  cls : BitVec 2
  words : List (BitVec 224)
  deriving DecidableEq, Repr

/-- A fabric lane (R375, R376). -/
structure Lane where
  /-- SEQ of the flit due, later flits held, whether the flit due has been asked for again, later flits that failed since, what grant flits
  held have the kernels do, how often a flit of a SEQ failed its CRC -/
  seq : BitVec 8 := 0
  held : List (BitVec 256) := []
  asking : Bool := false
  unheard : Nat := 0
  acts : List (BitVec 8 × GrantAct) := []
  fails : Map Nat := []
  retired : Bool := false
  /-- delivered packets in order, whether the flit delivered last is of the last of them, and flits counted and discarded -/
  delivered : List FPacket := []
  joined : Bool := false
  discarded : Nat := 0
  /-- flits sent, in order; SEQ of the next; how often a sent flit of a SEQ was asked for again; flits sent again; whether the lane is
  retired as one to send on -/
  sent : List (BitVec 256) := []
  outSeq : BitVec 8 := 0
  asked : Map Nat := []
  resent : List (BitVec 256) := []
  outRetired : Bool := false
  deriving DecidableEq, Repr

/-- What a press has saved of one cluster in the reserved memory of its bolt, while the cluster is another's (R346, R358). -/
structure Parked where
  bolt : Nat
  cluster : Nat
  image : Cluster
  cores : Map Core
  threads : Map Thread
  blocks : Map Block
  completions : List Completion
  replies : List Reply
  msgs : List Msg
  pwords : List PWord
  xwords : List XWord
  storeFaults : List StoreFault
  saved : List Nat
  deriving DecidableEq, Repr

/-- Boot progress of the module (R372, R373): reset, a verification failed, the routers run the discovery, the cores run the self-test,
the self-test is over and everything scrubbed, bolts have been created. -/
inductive Boot where
  | reset | recovery | discovery | selfTest | scrubbed | running
  deriving DecidableEq, Repr

/-- The stages of the boot whose image may fail to verify (R372, R373): steps 2, 4 and 6. -/
inductive Stage where
  | hypervisor | discovery | system
  deriving DecidableEq, Repr

/-- What a press has put into the reserved memory of bolts, inside their swatches, for a checkpoint to stream (R346, R378): the contexts and
what else of the bolts is saved, with the tags of their swatches. -/
structure Saved where
  tags : Map Bool
  bolts : Map Bolt
  parked : List Parked
  slices : Map Slice
  launches : Map Launch
  claims : Map (Nat × Nat)
  deriving DecidableEq, Repr

/-- The bytes of the reserved memory in which that lies, by physical address; the spec gives no layout. (assumption 94, DESIGN CHOICE) -/
opaque Config.reservedCells : Saved → List Host.Cell

/-- A checkpoint sent (R378): the manifest's digest of each swatch and its signature, and what lies in reserved memory. -/
structure Checkpoint where
  digests : List (Nat × BitVec 512)
  sig : List (BitVec 8)
  saved : Saved
  deriving DecidableEq, Repr

/-- An entry of the plan of what moves next: an event row, or an issue on a core. (assumption 1, DESIGN CHOICE) -/
inductive Move where
  | event (i : Instr)
  | core (c : Nat)
  deriving DecidableEq, Repr

/-- The module. (assumption 7, DESIGN CHOICE) -/
structure State where
  threads : Map Thread := []
  cores : Map Core := []
  clusters : Map Cluster := []
  slices : Map Slice := []
  dies : Map Die := []
  bolts : Map Bolt := []
  blocks : Map Block := []
  launches : Map Launch := []
  /-- evicted threads whose wakes have fired, in the order they fired (R300): an evicted thread's context is kept among
  `threads` under its slot's number plus a multiple of 8192, from 16384 on -/
  saved : List Nat := []
  /-- bonded DRAM by physical address (R65) -/
  dram : Mem := {}
  /-- frame maps: key size class * 2^40 + unit; owner VA[51:16] and bolt (R78) -/
  claims : Map (Nat × Nat) := []
  fused : List Nat := []
  gtime : Nat := 0
  completions : List Completion := []
  replies : List Reply := []
  /-- answers sent to peer modules, in order (R82, R83) -/
  peerReplies : List Reply := []
  msgs : List Msg := []
  pwords : List PWord := []
  xwords : List XWord := []
  storeFaults : List StoreFault := []
  reports : List Report := []
  lanes : Map Lane := []
  grants : Map Grant := []
  boot : Boot := .reset
  bootDigest : Option (BitVec 512) := Option.none
  /-- the stage at which a verification failed; what the management port and the sideband were told: stage and digest (R373) -/
  bootFailed : Option Stage := Option.none
  bootReports : List (Stage × BitVec 512) := []
  /-- the discovery image (R372), and the result words of the self-test by core -/
  discovery : List (BitVec 8) := []
  selfTest : Map W64 := []
  hypervisor : List (BitVec 8) := []
  /-- Rolnis's own translation table, the execute capability it starts under, and the bolt that each assigned system core serves (R371) -/
  rolnisRoot : Nat := 0
  rolnisEntry : Val := {}
  sysBolt : Map Nat := []
  powerLimit : Nat := 2400
  /-- the temperatures of the dies as the sideband last carried them (R379) -/
  dieTemps : List Nat := []
  /-- the module has stepped GTIME when joining the fabric (R377) -/
  joined : Bool := false
  checkpoints : List Checkpoint := []
  /-- whether this module is the reference of GTIME, and the lane to it; ticks by which the reference is ahead as last found; GTIME of the last exchange of
  time-sync flits, and of the last slewed tick (R377) -/
  reference : Bool := false
  refLane : Nat := 0
  behindBy : Int := 0
  syncAt : Option Nat := Option.none
  slewAt : Nat := 0
  /-- how often a packet failed its CRC, by its number, and lanes of whose retirement Rolnis was told (R342, R376) -/
  crcFails : Map Nat := []
  lanesTold : List Nat := []
  /-- bolts whose kernels were told that a recall of a grant was not acknowledged (R83) -/
  recallsTold : List (Nat × Nat) := []
  parked : List Parked := []
  /-- the thread whose instruction a step executes -/
  cur : Nat := 0
  /-- a seam member's forwarded instruction, to be executed next (R309) -/
  forward : Option (Nat × Nat × Instr × Bool) := Option.none
  /-- the plan of what moves next (the model's own field: the order of agents is free) -/
  sched : List Move := []
  /-- extra time before each step (the model's own field: timing is free) -/
  delays : List Nat := []
  /-- the trace records of the step in progress, written at its end in the order of R365 -/
  traces : List TraceRec := []
  /-- number of the next access or command -/
  accs : Nat := 0
  /-- number of the next packet, in the order of issue and of arrival at channels -/
  pkts : Nat := 0
  /-- number of the next free value -/
  free : Nat := 0
  deriving DecidableEq, Repr

/-- The module right after reset (R372): no bolt, every cluster, slice and swatch free, every core held in reset,
GTIME 0. (assumption 4, DESIGN CHOICE; assumption 6, DESIGN CHOICE; assumption 31, DESIGN CHOICE) -/
def State.reset : State := {}

end Sys2Proof.Machine
end

