-- ==== Sys2Proof/Machine/Ops.lean ====
section
/-!
DEFINITION. The named operations over the state: sparse maps and byte memories, the units of the module and their
places, time, event sources, the trap registers, taking an exception and returning from one (R327, R329, R330, R335),
and the order of checks in which an instruction issues (R52).
-/
namespace Sys2Proof.Machine

open Host (Outcome)

/-! ## Sparse maps and memories -/

/-- The value at key `k`, or `d` where the map lists none. -/
def Map.get {α : Type} (m : Map α) (k : Nat) (d : α) : α :=
  match m with
  | [] => d
  | (j, v) :: r => if j = k then v else Map.get r k d

/-- The entry at key `k`, if listed. -/
def Map.find {α : Type} (m : Map α) (k : Nat) : Option α :=
  match m with
  | [] => none
  | (j, v) :: r => if j = k then some v else Map.find r k

/-- `m` with `k` at `v`, keys kept rising. -/
def Map.set {α : Type} (m : Map α) (k : Nat) (v : α) : Map α :=
  match m with
  | [] => [(k, v)]
  | (j, u) :: r => if k < j then (k, v) :: (j, u) :: r else if k = j then (k, v) :: r else (j, u) :: Map.set r k v

/-- `m` without key `k`. -/
def Map.erase {α : Type} (m : Map α) (k : Nat) : Map α :=
  match m with
  | [] => []
  | (j, u) :: r => if k = j then r else (j, u) :: Map.erase r k

/-- `m` with `k` at `v`, an entry at the default `d` left out. -/
def Map.put {α : Type} [DecidableEq α] (d : α) (m : Map α) (k : Nat) (v : α) : Map α :=
  if v = d then Map.erase m k else Map.set m k v

/-- Keys strictly rising, all above `lo`, and no entry at the default: the canonical form. -/
def Map.canon {α : Type} [DecidableEq α] (d : α) : Option Nat → Map α → Bool
  | _, [] => true
  | lo, (j, v) :: r => (match lo with | none => true | some b => decide (b < j)) && decide (v ≠ d) && Map.canon d (some j) r

/-- What an unlisted byte of DRAM, local memory or a Damask slice reads as (assumption 2). (assumption 2, DESIGN CHOICE) -/
def Memory.unlisted : BitVec 8 := 0

/-- The canonical form of a list of bytes: addresses strictly rising, no byte at the unlisted value. -/
def Memory.wf (m : List Host.Cell) : Bool := Map.canon Memory.unlisted none m

/-- The byte at an address. (assumption 2, DESIGN CHOICE) -/
def Memory.read (m : List Host.Cell) (a : Nat) : BitVec 8 := Map.get m a Memory.unlisted

/-- One byte written; the canonical form is kept. (assumption 2, DESIGN CHOICE) -/
def Memory.write (m : List Host.Cell) (a : Nat) (b : BitVec 8) : List Host.Cell := Map.put Memory.unlisted m a b

/-- `n` bytes from `a`. -/
def Memory.readN (m : List Host.Cell) (a : Nat) : Nat → List (BitVec 8)
  | 0 => []
  | n + 1 => Memory.read m a :: Memory.readN m (a + 1) n

/-- Bytes written from `a` up. -/
def Memory.writeN (m : List Host.Cell) (a : Nat) : List (BitVec 8) → List Host.Cell
  | [] => m
  | b :: r => Memory.writeN (Memory.write m a b) (a + 1) r

/-- Bytes as a little-endian number (R5). -/
def bytesToNat : List (BitVec 8) → Nat
  | [] => 0
  | b :: r => b.toNat + 256 * bytesToNat r

/-- The `n` little-endian bytes of a number (R5). -/
def natToBytes : Nat → Nat → List (BitVec 8)
  | 0, _ => []
  | n + 1, v => BitVec.ofNat 8 (v % 256) :: natToBytes n (v / 256)

/-- The tag of the granule that holds `a` (R107). -/
def Mem.tagAt (m : Mem) (a : Nat) : Bool := Map.get m.tags (a / 16) false

/-- The tags of the granules of `[a, a+n)` cleared (R107). -/
def Mem.clearTags (m : Mem) (a n : Nat) : Mem :=
  if n = 0 then m
  else { m with tags := (List.range ((a + n - 1) / 16 + 1 - a / 16)).foldl (fun t i => Map.put false t (a / 16 + i) false) m.tags }

/-- Bytes written from `a`, tags of the touched granules cleared (R107). -/
def Mem.writeN (m : Mem) (a : Nat) (bs : List (BitVec 8)) : Mem :=
  let m' := m.clearTags a bs.length
  { m' with cells := Memory.writeN m'.cells a bs }

/-- A 16-byte aligned write that also sets the granule's tag when `tag` holds (R107). -/
def Mem.writeTagged (m : Mem) (a : Nat) (bs : List (BitVec 8)) (tag : Bool) : Mem :=
  let m' := m.writeN a bs
  if tag && decide (a % 16 = 0) && decide (bs.length = 16) then { m' with tags := Map.put false m'.tags (a / 16) true } else m'

/-- Bytes of a B-stage buffer: an unlisted byte is 0 until a walk has used the buffer, a free byte after (R228). (assumption 10, DESIGN CHOICE) -/
def bstageRead (c : Cluster) (a : Nat) : BitVec 8 :=
  match Map.find c.bstage a with
  | some b => b
  | none => if c.bstageGen = 0 then 0 else Config.freeByte c.bstageGen a

/-- A byte of a Damask slice; one past its last is a free value (R117). (assumption 54, DESIGN CHOICE) -/
def damaskRead (c : Cluster) (a : Nat) : BitVec 8 :=
  if a < Config.damaskBytes then Memory.read c.damask a else Config.freeByte c.bstageGen a

/-! ## Values -/

/-- Bits 63:0 of a register (R151). -/
def Val.lo (v : Val) : W64 := v.bits.setWidth 64
/-- Bits 63:0 as a number. -/
def Val.nat (v : Val) : Nat := v.bits.toNat % 2 ^ 64
/-- The untagged register of a 64-bit word. -/
def Val.ofW (w : W64) : Val := { bits := w.setWidth 128 }
/-- The untagged register of a number. -/
def Val.ofNat (n : Nat) : Val := { bits := BitVec.ofNat 128 n }

/-! ## Places of the units (R2, R381, R386) -/

/-- The core of a thread slot. Mesh cores are numbered from 0, and system core k of die d is 2048 + 1024 d + k (R371); the slots of a
core are the numbers from four times its own. A saved context keeps the number of its slot modulo 8192, from 16384 on; the contexts
of a seam that waits in reserved memory for clusters (R349) keep theirs modulo 2^40. (assumption 32, DESIGN CHOICE;
assumption 78, DESIGN CHOICE) -/
def coreOf (tid : Nat) : Nat :=
  let t := tid % 2 ^ 40
  tid / 2 ^ 40 * 2 ^ 24 + (if t / 8192 = 1 then t / 4 else t / 4 % 2048)
/-- Whether a core is a system core (R2). -/
def isSystem (core : Nat) : Bool := decide (core / 2048 = 1)
/-- Whether a cluster stands for one whose contents wait in reserved memory (R349). -/
def inReserve (cl : Nat) : Bool := decide (cl ≥ 2 ^ 21)
/-- The slot within its core. (assumption 32, DESIGN CHOICE) -/
def slotOf (tid : Nat) : Nat := tid % 4
/-- The die of a core. -/
def dieOf (core : Nat) : Nat := core / 1024 % 2
/-- Mesh column of a core. -/
def xOf (core : Nat) : Nat := core % 32
/-- Mesh row of a core. -/
def yOf (core : Nat) : Nat := core / 32 % 32
/-- The core at a mesh position. -/
def coreAt (die x y : Nat) : Nat := die * 1024 + y * 32 + x
/-- The cluster of a core: runs of eight along a row (R2). -/
def clusterOf (core : Nat) : Nat := core / 1024 * 128 + yOf core * 4 + xOf core / 8
/-- The first core of a cluster. -/
def firstCore (cl : Nat) : Nat := cl / 128 * 1024 + (cl % 128) / 4 * 32 + cl % 4 * 8
/-- The die of a cluster. -/
def dieOfCluster (cl : Nat) : Nat := cl / 128 % 2
/-- The die of a slice. -/
def dieOfSlice (h : Nat) : Nat := h / 64
/-- The live cores of a cluster in logical order: fused cores are skipped (R224). (assumption 31, DESIGN CHOICE) -/
def liveCores (s : State) (cl : Nat) : List Nat :=
  ((List.range 8).map (firstCore cl + ·)).filter (fun c => !s.fused.contains (c % 2 ^ 24))
/-- The logical number of a core in its cluster (R224). (assumption 31, DESIGN CHOICE) -/
def logical (s : State) (core : Nat) : Nat := (liveCores s (clusterOf core)).idxOf core
/-- The neighbour of a core on side N, E, S, W of its die's mesh. -/
def neighbour (core : Nat) (side : BitVec 2) : Option Nat :=
  let x := xOf core; let y := yOf core; let d := dieOf core
  if core ≥ 2048 then none else match side.toNat with
  | 0 => if y = 0 then none else some (coreAt d x (y - 1))
  | 1 => if x = 31 then none else some (coreAt d (x + 1) y)
  | 2 => if y = 31 then none else some (coreAt d x (y + 1))
  | _ => if x = 0 then none else some (coreAt d (x - 1) y)
/-- The opposite side. -/
def opposite (side : BitVec 2) : BitVec 2 := side + 2

/-! ## Units of the state -/

/-- A thread slot. -/
def State.thread (s : State) (tid : Nat) : Thread := Map.get s.threads tid {}
/-- A thread slot replaced. -/
def State.setThread (s : State) (tid : Nat) (t : Thread) : State := { s with threads := Map.set s.threads tid t }
/-- A core. -/
def State.core (s : State) (c : Nat) : Core := Map.get s.cores c {}
/-- A core replaced. -/
def State.setCore (s : State) (c : Nat) (x : Core) : State := { s with cores := Map.set s.cores c x }
/-- A cluster. -/
def State.cluster (s : State) (c : Nat) : Cluster := Map.get s.clusters c {}
/-- A cluster replaced. -/
def State.setCluster (s : State) (c : Nat) (x : Cluster) : State := { s with clusters := Map.set s.clusters c x }
/-- A home slice. -/
def State.slice (s : State) (h : Nat) : Slice := Map.get s.slices h {}
/-- A home slice replaced. -/
def State.setSlice (s : State) (h : Nat) (x : Slice) : State := { s with slices := Map.set s.slices h x }
/-- A die. -/
def State.die (s : State) (d : Nat) : Die := Map.get s.dies d {}
/-- A die replaced. -/
def State.setDie (s : State) (d : Nat) (x : Die) : State := { s with dies := Map.set s.dies d x }
/-- A bolt. -/
def State.bolt (s : State) (b : Nat) : Bolt := Map.get s.bolts b {}
/-- A bolt replaced. -/
def State.setBolt (s : State) (b : Nat) (x : Bolt) : State := { s with bolts := Map.set s.bolts b x }

/-- The thread whose instruction executes. -/
def State.t (s : State) : Thread := s.thread s.cur
/-- That thread replaced. -/
def State.setT (s : State) (t : Thread) : State := s.setThread s.cur t
/-- Its core's number. -/
def State.curCore (s : State) : Nat := coreOf s.cur
/-- Its cluster's number. -/
def State.curCluster (s : State) : Nat := clusterOf s.curCore
/-- Its core. -/
def State.c (s : State) : Core := s.core s.curCore
/-- Its core replaced. -/
def State.setC (s : State) (c : Core) : State := s.setCore s.curCore c
/-- Its cluster. -/
def State.cl (s : State) : Cluster := s.cluster s.curCluster
/-- Its cluster replaced. -/
def State.setCl (s : State) (c : Cluster) : State := s.setCluster s.curCluster c
/-- Its bolt. -/
def State.b (s : State) : Bolt := s.bolt s.t.bolt
/-- Its bolt replaced. -/
def State.setB (s : State) (b : Bolt) : State := s.setBolt s.t.bolt b

/-- A register of a thread as it stands: g0 reads 128 zero bits untagged (R152). -/
def Thread.reg (t : Thread) (r : Reg) : Val := if r = 0 then {} else Map.get t.regs r.toNat {}
/-- A register written as it stands: a write to g0 is discarded (R152). -/
def Thread.setReg (t : Thread) (r : Reg) (v : Val) : Thread :=
  if r = 0 then t else { t with regs := Map.set t.regs r.toNat v }
/-- A flag (R176). -/
def Thread.flag (t : Thread) (k : Flag) : Bool := t.flags.getLsbD k.toNat
/-- A flag written (R176). -/
def Thread.setFlag (t : Thread) (k : Flag) (b : Bool) : Thread :=
  { t with flags := if b then t.flags ||| (1#8 <<< k.toNat) else t.flags &&& ~~~(1#8 <<< k.toNat) }

/-- The block's placement, if the thread's block is placed. -/
def State.blockOf (s : State) (t : Thread) : Option Block := Map.find s.blocks t.block

/-- The key of a block: its bolt and window number. (assumption 32, DESIGN CHOICE) -/
def blockKey (bolt w : Nat) : Nat := bolt * 8192 + w

/-- Whether a press halts what a thread of a bolt has asked for (R346): of the bolt, or of the thread's block, in which an evicted thread is
halted too. The system cores that serve the bolt are no part of it. -/
def halted (s : State) (bolt tid : Nat) : Bool :=
  ((s.bolt bolt).pressed && !isSystem (coreOf tid)) || decide ((s.thread tid).occ = .pressed) ||
  (s.bolt bolt).pressedBlocks.any (fun w => decide ((s.thread tid).block = blockKey bolt w) && decide ((s.thread tid).occ ≠ .empty) && !isSystem (coreOf tid))

/-- The threads resident on a core, as slots. -/
def residents (s : State) (core : Nat) : List Nat :=
  ((List.range 4).map (core * 4 + ·)).filter (fun i => decide ((s.thread i).occ ≠ .empty ∧ (s.thread i).occ ≠ .evicted))

/-- Register entries of a core that hold the saved contexts of evicted threads (R299). -/
def lentEntries (s : State) (core : Nat) : Nat :=
  ((s.threads.filter (fun p => decide (p.2.occ = .evicted) && decide (p.2.room = some (.entries core)))).map (·.2.allot)).sum

/-- Free physical register entries of a core (R165). -/
def freeEntries (s : State) (core : Nat) : Nat :=
  Config.regEntries - (((residents s core).map (fun i => (s.thread i).allot)).sum + lentEntries s core)

/-! ## Event sources (R368, R369) -/

/-- A counter saturates at 0xFFFF_FFFF (R368). -/
def evcAdd (v : BitVec 32) (n : Nat) : BitVec 32 := BitVec.ofNat 32 (min (v.toNat + n) 0xFFFFFFFF)

/-- Whether counter `i` of a core counts an event of `source` from `slot`: FILT is ignored for the sources marked core. -/
def evSelects (c : Core) (i source slot : Nat) : Bool :=
  let e := (Map.get c.evs i 0).toNat
  decide (bits e 7 0 = source) && (decide (source ∈ [1, 10, 12]) || !bitAt e 8 || decide (bits e 10 9 = slot))

/-- `n` events of a source in a core, from one slot (R368). -/
def Core.count (c : Core) (source slot n : Nat) : Core :=
  if n = 0 ∨ source = 0 then c
  else (List.range 16).foldl
    (fun c i => if evSelects c i source slot then { c with evc := Map.set c.evc i (evcAdd (Map.get c.evc i 0) n) } else c) c

/-- `n` events of a source from a thread. -/
def countEvent (s : State) (tid source n : Nat) : State :=
  s.setCore (coreOf tid) ((s.core (coreOf tid)).count source (slotOf tid) n)

/-! ## The trace ring (R365 to R367) -/

/-- Words written at the ring of a cluster, wrapping; the trace unit bypasses the protection unit (R361, R365). -/
def ringWords (c : Cluster) : List Nat → Cluster
  | [] => c
  | w :: r =>
    let m := c.mem.writeN (c.trBase * 65536 + c.trWptr * 4) (natToBytes 4 w)
    ringWords { c with mem := m, trWptr := (c.trWptr + 1) % 16384, trWrap := c.trWrap || decide (c.trWptr = 16383) } r

/-- A record whose word 0 has the fields given, with the TIME record that a long gap needs first; a TIME record's own DELTA is 0 (R366).
(assumption 45, DEDUCED) -/
def traceRecord (c : Cluster) (now core slot st kind : Nat) (rest : List Nat) : Cluster :=
  let d := if kind = 1 then 0 else now - c.trTick
  let c1 := if d > 65535 then ringWords c [1, now % 2 ^ 32, now / 2 ^ 32 % 2 ^ 32] else c
  let d' := if d > 65535 then 0 else d
  { ringWords c1 ((d' * 65536 + core * 8192 + slot * 2048 + st * 512 + kind) :: rest) with trTick := now }

/-- Whether a cluster's bolt captures trace (R361). (assumption 45, DEDUCED) -/
def capturing (s : State) (cl : Nat) : Bool :=
  match (s.cluster cl).owner with
  | .bolt b => (s.bolt b).trctl.getLsbD 63
  | _ => false

/-- The trace state of a slot (R367). -/
def traceState (t : Thread) : BitVec 2 :=
  match t.occ with
  | .resident | .stopped =>
    match t.wait with
    | .none | .place | .seamEnd | .qclass => 0
    | .message | .portIn _ | .portOut _ | .arrival | .barrier _ _ _ | .exchange _ _ _ | .xend => 1
    | .idle => 3
    | _ => 2
  | _ => 3

/-- `n` cycles of a core counted: source 1, and sources 13 and 14 for every slot that waits, but for `tid`, which issues (R369). -/
def countCycles (s : State) (core n : Nat) (tid : Option Nat) : State :=
  if n = 0 then s
  else
    let one := fun (c : Core) (i : Nat) =>
      if some (core * 4 + i) = tid then c
      else match (traceState (s.thread (core * 4 + i))).toNat with
        | 1 => c.count 13 i n
        | 2 => c.count 14 i n
        | _ => c
    s.setCore core ((List.range 4).foldl one ((s.core core).count 1 0 n))

/-- A thread of a bolt has committed an instruction: the count of its watchdog restarts (R359). -/
def commit (s : State) (bolt : Nat) : State := s.setBolt bolt { s.bolt bolt with wcount := 0, wfired := false }

/-- Whether the event that ends a wait completes the instruction, which does not issue again. -/
def Wait.completes : Wait → Bool
  | .answer | .barrier _ _ _ | .exchange _ _ _ | .xend | .idle | .hcall _ | .seamEnd => true
  | _ => false

/-- A thread's wait changed; an instruction that ends with it has committed (R359). -/
def setWait (s : State) (tid : Nat) (w : Wait) : State :=
  let t := s.thread tid
  if t.wait = w then s
  else
    let s1 := s.setThread tid { t with wait := w, blockedAt := s.gtime }
    if w = .none ∧ t.wait.completes then commit s1 t.bolt else s1

/-- A record of the tick for the ring of a cluster that captures (R365, R366). -/
def traceNote (s : State) (x : TraceRec) : State :=
  if capturing s x.cluster then { s with traces := s.traces ++ [x] } else s

/-- A record in every ring of a bolt (R362, R366). -/
def traceBolt (s : State) (b kind : Nat) (rest : List Nat) : State :=
  (s.bolt b).clusters.foldl (fun s cl => traceNote s { cluster := cl, kind := kind, rest := rest }) s

/-- The STATE records that a tick's changes call for, one at most for a slot (R367): the slot's state at the end of the tick, with
the record. -/
def stateRecords (s : State) : List (TraceRec × Nat) :=
  (s.threads.filter (fun p => decide (p.1 < 8192) && decide (traceState p.2 ≠ p.2.traced))).map (fun p =>
    ({ cluster := clusterOf (coreOf p.1), core := logical s (coreOf p.1), slot := slotOf p.1, kind := 0 }, (traceState p.2).toNat))

/-- Whether one record comes before another of the same tick (R365): by logical core, thread slot and kind. -/
def traceBefore (x y : TraceRec) : Bool :=
  let k := fun (r : TraceRec) => (r.core * 4 + r.slot) * 16 + r.kind
  decide (k x ≤ k y)

/-- A record put in its place among the others. -/
def insertTrace (x : TraceRec × Nat) : List (TraceRec × Nat) → List (TraceRec × Nat)
  | [] => [x]
  | y :: r => if traceBefore y.1 x.1 then y :: insertTrace x r else x :: y :: r

/-- The records of the tick written to the rings, in order (R365), and every slot's state kept as the one last shown (R367).
(assumption 45, DEDUCED) -/
def traceTick (s : State) : State :=
  let due := (stateRecords s).filter (fun x => capturing s x.1.cluster)
  let all := (s.traces.map (fun x => (x, 0)) ++ due).foldl (fun l x => insertTrace x l) []
  if all.isEmpty ∧ (stateRecords s).isEmpty then s
  else
    let s1 := all.foldl (fun s x => s.setCluster x.1.cluster
      (traceRecord (s.cluster x.1.cluster) s.gtime x.1.core x.1.slot x.2 x.1.kind x.1.rest)) s
    { s1 with traces := [], threads := s1.threads.map (fun p => (p.1, { p.2 with traced := traceState p.2 })) }

/-! ## Taking an exception (R325 to R335) -/

/-- The code of a cause (R325). -/
def Cause.code : Cause → BitVec 8
  | .illegal => 0x01 | .allot => 0x02 | .group => 0x03 | .captag => 0x04 | .capbound => 0x05 | .capperm => 0x06
  | .localprot => 0x07 | .page => 0x08 | .storefault => 0x09 | .scale => 0x0A | .stallcount => 0x0B | .coproc => 0x0C
  | .walk => 0x0D | .damask => 0x0E | .perm => 0x0F | .seamfray => 0x10 | .stream => 0x11 | .trap => 0x12 | .hcall => 0x13
  | .watchdog => 0x14 | .nested => 0x15 | .savefault => 0x16 | .map => 0x17 | .machinecheck => 0x1F

/-- What ends an instruction before its effect: a precise fault (R8), or a wait after which it issues again. -/
inductive Stop where
  | trap (c : Cause) (tval : W64)
  | wait (w : Wait)
  /-- a wait for the answers of global reads: what is asked for next, if anything (R57, R72) -/
  | pull (a : Option Ask)
  deriving DecidableEq, Repr

/-- The result of a part of an instruction. -/
abbrev Res (α : Type) := Except Stop α

/-- `Fault(CAUSE, tval)` of R7 and R8. -/
def faultR {α : Type} (c : Cause) (tval : W64) : Res α := .error (.trap c tval)
/-- The instruction waits and issues again. -/
def waitR {α : Type} (w : Wait) : Res α := .error (.wait w)
/-- A part of an instruction whose waits for a place are waits on memory (R367). -/
def memoryWait {α : Type} : Res α → Res α
  | .error (.wait .place) => .error (.wait .memPlace)
  | x => x

/-- The bounds exponent of a capability (R154). -/
def capE (v : Val) : Nat := bits v.bits.toNat 85 80

/-- Length, base and top of a capability before they are cut to the address space, and its centre (R155). -/
structure Bounds where
  len : Nat
  base : Int
  top : Int
  centre : Int
  deriving DecidableEq, Repr

/-- The bounds of a capability with E ≤ 44, placed round the centre nearest the cursor (R155). -/
def capBounds (v : Val) : Bounds :=
  let n : Nat := v.bits.toNat
  let tm : Nat := bits n 127 107
  let bm : Nat := bits n 106 86
  let e : Nat := bits n 85 80
  let a : Nat := bits n 63 0
  let u : Nat := 2 ^ e
  let span : Nat := 2 ^ (e + 21)
  let len : Nat := (tm + 2 ^ 21 - bm) % 2 ^ 21
  let half : Nat := len / 2 * u
  let h : Nat := (bm * u + half) % span
  let q : Nat := (a + span / 2 + (span - h)) % span
  let centre : Int := (a : Int) - (q : Int) + ((span / 2 : Nat) : Int)
  let base : Int := centre - (half : Int)
  let top : Int := base + ((len * u : Nat) : Int)
  { len := len, base := max base 0, top := min top ((2 ^ 64 : Nat) : Int), centre := centre }

/-- A cursor move, as CINC makes it: outside the representable region, or of a malformed capability, the tag is cleared
(R156, R164). -/
def capMove (v : Val) (c : W64) : Val :=
  let b := capBounds v
  let half : Int := ((2 ^ (capE v + 20) : Nat) : Int)
  let inside := decide (capE v ≤ 44) && decide (b.centre - half ≤ (c.toNat : Int)) && decide ((c.toNat : Int) < b.centre + half)
  { bits := (v.bits >>> 64 <<< 64) ||| c.setWidth 128, tag := v.tag && inside }

/-- A report to Rolnis. -/
def report (s : State) (r : Report) : State := { s with reports := s.reports ++ [r] }

/-- A trap that cannot be taken: the thread stops and Rolnis is told (R335). -/
def escalate (s : State) (tid : Nat) (c : Cause) (tval pc : W64) : State :=
  let t := s.thread tid
  report (s.setThread tid { t with occ := .stopped, stage := 0, phases := [] })
    { cause := .nested, tid := tid, first := if t.handler then t.cause.setWidth 8 else 0, second := c.code, tval := tval, pc := pc }

/-- The members of the seam a head leads, itself included. -/
def seamMembers (s : State) (head : Nat) : List Nat :=
  (s.threads.filter (fun p => match p.2.seam with | some m => decide (m.head = head) && decide (p.2.occ ≠ .empty) | none => false)).map (·.1)

/-- A stopping member gives up an access it awaits, except an ATOM: bindings are as before it. It keeps the wait for the reply of
an HCALL and IDLE's (R317). -/
def abandon (t : Thread) : Thread :=
  match t.await with
  | some a => if a.atom then t else { t with await := none, wait := .none, pc := a.pc, binds := a.binds, stage := 0 }
  | none => match t.wait with
    | .hcall _ => t
    | .idle => t
    | _ => { t with wait := .none, phases := [], stage := 0 }

/-- Port words that an abandoned or faulting access had popped, back at the head of their queues (R8, R170). -/
def giveBack (s : State) (tid : Nat) (l : List (BitVec 2 × W64)) : State :=
  let k := coreOf tid
  s.setCore k { s.core k with ports := l.reverse.foldl (fun m w => Map.set m w.1.toNat (w.2 :: Map.get m w.1.toNat [])) (s.core k).ports }

/-- A member stops (R317). (assumption 51, DEDUCED) -/
def stopMember (s : State) (j : Nat) : State :=
  let t := s.thread j
  let s1 := match t.await with
    | some a => if a.atom then s else giveBack s j a.popped
    | none => s
  match t.seam with
  | none => s
  | some m => s1.setThread j (abandon { t with seam := some { m with stopped := true } })

/-- Whether a head runs the handler of its fray: what it does there is not of the stream (R318, R319). -/
def frayRuns (t : Thread) : Bool :=
  t.handler && (match t.strm with | some st => st.frayed && !st.draining | none => false)

/-- A seam frays: member `k` faults at the index it executes. Members of a smaller delay stop, and those of the same delay, but
for the members of later rows that are still to execute the index; members of a greater delay drain to it. A fault at or above
the index of a fray under way is discarded (R317). -/
def fray (s : State) (k : Nat) (c : Cause) (tval : W64) (late completed : Bool) : State :=
  match (s.thread k).seam with
  | none => s
  | some mk =>
    let i := mk.next
    let head := s.thread mk.head
    match head.strm with
    | none => s
    | some st =>
      if st.frayed ∧ i ≥ st.frayIndex then stopMember s k
      else
        let s0 := s.setThread mk.head
          { head with strm := some { st with
              frayed := true, draining := true, frayIndex := i, frayTid := k, frayCause := c, frayTval := tval
              frayLate := if late then (s.thread k).late.head?.map (·.seq) else none
              log := if k = mk.head ∧ !completed ∧ i ≥ st.index then ((i, head.pc) :: st.log).take 512 else st.log } }
        let t0 := s0.thread k
        let s1 := s0.setThread k { t0 with seam := some { mk with next := if completed then i + 1 else i } }
        (seamMembers s mk.head).foldl
          (fun s j =>
            match (s.thread j).seam with
            | none => s
            | some m =>
              let d := m.row + m.col
              let dk := mk.row + mk.col
              let stop := decide (j = k) || decide (d < dk) || (decide (d = dk) && !(decide (m.next = i) && decide (m.row > mk.row))) || decide (d > dk ∧ m.next ≥ i)
              if stop && !m.stopped then stopMember s j else s) s1

/-- The bits of CAUSE at entry (R326, R327). -/
def causeWord (t : Thread) (c : Cause) (late lost : Bool) (sub : BitVec 8) : W64 :=
  BitVec.ofNat 64 (lost.toNat * 2 ^ 24 + sub.toNat * 2 ^ 16 + late.toNat * 2 ^ 10 + t.xchg.toNat * 2 ^ 9 + t.mode.toNat * 2 ^ 8 + c.code.toNat)

/-- The entry itself, of a thread that has a handler and is in none (R327). (assumption 16, DESIGN CHOICE) -/
def enterHandler (t : Thread) (c : Cause) (tval tpc : W64) (late lost : Bool) (sub : BitVec 8) : Thread :=
  { t with
    cause := causeWord t c late lost sub
    tval := tval
    tpc := tpc
    mode := true
    handler := true
    xchg := false
    pc := t.tvec
    ecap := capMove t.ecap t.tvec
    wait := .none
    stage := 0
    phases := []
    relOk := false
    await := none }

/-- TAKING AN EXCEPTION (R327): in a seam every cause but SEAMFRAY frays it, except in the handler of the fray; with a handler
running or none installed the trap escalates; otherwise the thread enters its handler. (assumption 16, DESIGN CHOICE) -/
def takeTrap (s : State) (tid : Nat) (c : Cause) (tval tpc : W64) (late lost completed : Bool) (sub : BitVec 8) : State :=
  let t := s.thread tid
  if t.seamed ∧ !frayRuns t ∧ c ≠ .seamfray then fray s tid c tval late completed
  else if t.handler ∨ t.tvec = 0 then escalate s tid c tval tpc
  else s.setThread tid (enterHandler t c tval tpc late lost sub)

/-- The oldest store fault of a thread, or its lost bit, goes out (R333). -/
def dropStoreFault (s : State) (tid : Nat) : State :=
  let c := s.core (coreOf tid)
  let s1 := s.setCore (coreOf tid) { c with sfq := match c.sfq.find? (fun e => decide (e.tid = tid)) with | some e => c.sfq.erase e | none => c.sfq }
  s1.setThread tid { s1.thread tid with lost := false }

/-- STOREFAULT at a reporting instruction that finds an entry of its thread, or its lost bit: the oldest entry goes out
only when the handler takes the trap (R333); in a seam it frays, and the entry goes out at SEAMFRAY. -/
def takeStoreFault (s : State) (tid : Nat) (tpc : W64) : State :=
  let t := s.thread tid
  let e := (s.core (coreOf tid)).sfq.find? (fun e => decide (e.tid = tid))
  let sub : BitVec 8 := match e with | some e => e.cause.code | none => 0
  let tv : W64 := match e with | some e => e.tval | none => 0
  if t.seamed ∧ !frayRuns t then takeTrap s tid .storefault tv tpc false t.lost false sub
  else if t.handler ∨ t.tvec = 0 then
    report (s.setThread tid { t with occ := .stopped, stage := 0, phases := [] })
      { cause := .nested, tid := tid, first := if t.handler then t.cause.setWidth 8 else 0, second := sub, tval := tv, pc := tpc }
  else takeTrap (dropStoreFault s tid) tid .storefault tv tpc false t.lost false sub

/-- Whether a thread has a store fault to report (R333). -/
def hasStoreFault (s : State) (tid : Nat) : Bool :=
  (s.core (coreOf tid)).sfq.any (fun e => decide (e.tid = tid)) || (s.thread tid).lost

/-- RETURN FROM AN EXCEPTION, the thread's part (R330): mode and exchange bit from CAUSE, the handler ended, the pc and
the execute capability's cursor at TPC. -/
def leaveHandler (t : Thread) : Thread :=
  { t with
    mode := t.cause.getLsbD 8
    xchg := t.cause.getLsbD 9
    handler := false
    lateSeq := none
    pc := t.tpc
    ecap := capMove t.ecap t.tpc
    wait := .none
    stage := 0 }

/-- The core whose ring holds a command's entry (R331): the one that dispatched it, wherever its thread is now. -/
def ringCore (s : State) (q : SeqNo) : Option Nat := (s.cores.find? (fun p => p.2.ring.any (fun r => decide (r.seq = q)))).map (·.1)

/-- The ring that holds a command's entry changed. -/
def onRing (s : State) (q : SeqNo) (f : List Ring → List Ring) : State :=
  match ringCore s q with
  | some k => s.setCore k { s.core k with ring := f (s.core k).ring }
  | none => s

/-- A ring entry freed (R331). -/
def freeRing (s : State) (q : SeqNo) : State := onRing s q (·.filter (fun r => decide (r.seq ≠ q)))

/-- A late fault recorded against its issuing thread (R9, R329); its ring entry is marked (R331). -/
def recordLate (s : State) (tid : Nat) (c : Cause) (q : SeqNo) : State :=
  let t := s.thread tid
  if t.occ = .empty then s
  else
    let s1 := s.setThread tid { t with late := t.late ++ [{ cause := c, seq := q }] }
    onRing s1 q (·.map (fun r => if r.seq = q then { r with fault := true } else r))

/-! ## Issuing an instruction (R52) -/

/-- What an instruction says of itself to the checks of R52: its base parcel, whether its encoding is accepted, its
privilege, the registers and flags it reads and writes, its register groups, its fixed latency. -/
structure Spec where
  base : Parcel
  ok : Bool := true
  priv : Bool := false
  reads : List Reg := []
  writes : List Reg := []
  /-- groups read: first register and size -/
  rgroups : List (Reg × Nat) := []
  /-- groups written -/
  wgroups : List (Reg × Nat) := []
  rflags : List Flag := []
  wflags : List Flag := []
  /-- registers read or written without being named by a field: a FORK's g3 and g4 to g7, a LAUNCH's g3, the registers a
  SEAM copies; the scoreboard watches them as the named ones (R55, R57, R138) -/
  implied : List Reg := []
  /-- registers of its groups that this execution does not read: those of the empty or unused regions of a command (R233, R235, R238, R239) -/
  unread : List Reg := []
  /-- latency of a fixed-latency result (R54); none when it is variable -/
  lat : Option Nat := none
  /-- legal in an exchange phase when no port-bound register is among its operands: XSEL, XSEND, XEND (R302) -/
  xok : Bool := false
  /-- legal in an exchange phase when a port-bound register is among its operands: MOV (R302) -/
  xport : Bool := false
  /-- raises ILLEGAL in a seam (R311) -/
  noSeam : Bool := false
  /-- the count of HOLD (R53) -/
  holdN : Nat := 0
  /-- group members need not be unbound: MM checks its own (R233) -/
  ownGroup : Bool := false
  deriving Repr

/-- The registers of a group. -/
def groupRegs (g : Reg × Nat) : List Reg := (List.range g.2).map (fun i => g.1 + BitVec.ofNat 6 i)

/-- Every register an instruction names. (assumption 14, DEDUCED) -/
def Spec.named (k : Spec) : List Reg :=
  k.reads ++ k.writes ++ (k.rgroups ++ k.wgroups).flatMap groupRegs

/-- Every register an instruction reads or writes, named or not, but those of its groups that it does not read: those the scoreboard
watches (R55, R57). (assumption 14, DEDUCED) -/
def Spec.watched (k : Spec) : List Reg :=
  k.reads ++ k.writes ++ ((k.rgroups ++ k.wgroups).flatMap groupRegs).filter (fun r => !k.unread.contains r) ++ k.implied

/-- Least element of a list of numbers. -/
def leastNat : List Nat → Option Nat
  | [] => none
  | a :: r => match leastNat r with | none => some a | some b => some (min a b)

/-- The TVAL of ILLEGAL at the base parcel (R62). -/
def illTval (q : Pre) (base : Parcel) : W64 := BitVec.ofNat 64 ((q.parcels - 1) * 65536 + base.toNat)

/-- The scoreboard entries of registers or flags read or written too early by the counts (R55). (assumption 15, DEDUCED) -/
def earlyBy (t : Thread) (cnt : Nat) (regs : List Reg) (flags : List Flag) : List Nat :=
  (t.due.filter (fun d => decide (cnt < d.cnt) &&
    (regs.any (fun r => decide (r.toNat = d.what)) || flags.any (fun f => decide (64 + f.toNat = d.what))))).map (·.what)

/-- The cycle until which the shadow scoreboard holds a consumer (R56). (assumption 15, DEDUCED) -/
def heldUntil (t : Thread) (regs : List Reg) (flags : List Flag) : Nat :=
  (t.due.filter (fun d => regs.any (fun r => decide (r.toNat = d.what)) || flags.any (fun f => decide (64 + f.toNat = d.what)))).foldl
    (fun a d => max a d.cyc) 0

/-- STALLCOUNT's TVAL: the lowest early g register, else the lowest early flag (R56). (assumption 15, DEDUCED) -/
def stallTval (early : List Nat) : W64 :=
  match leastNat (early.filter (· < 64)) with
  | some r => BitVec.ofNat 64 r
  | none => match leastNat early with
    | some f => BitVec.ofNat 64 (0x100 + (f - 64))
    | none => 0

/-- Whether the guard lets the instruction execute (R50). -/
def guardOn (t : Thread) (q : Pre) : Bool := !q.gen || (t.flag q.flag != q.inv)

/-- The head's flags decide a SEAMEND's guard; for it `forced` carries the answer (R315). -/
def guardFlags (q : Pre) : List Flag := if q.gen then [q.flag] else []

/-- The count and the issue cycle of an instruction, and the cycles of a stall-count shortfall since the core's last cycle (R53, R56, R368): counted cycles advance by 1 + h and any HOLD before it. A guarded HOLD that
is itself the consumer C leaves its own n out of the sum of R55, for its n delays only the instruction after it (R53).
(assumption 59, DEDUCED) -/
def issueCycle (s : State) (t : Thread) (q : Pre) (regs : List Reg) (flags : List Flag) : Nat × Nat × Nat :=
  let cnt := t.cnt + 1 + q.h.toNat + t.hold
  let cyc := t.cyc + 1 + q.h.toNat + t.hold
  let next := (s.core (coreOf s.cur)).cycle + 1
  let held := max cyc (heldUntil t regs flags)
  (cnt, max held next, max held next - max cyc next)

/-- The state in which the operation runs: the instruction has issued (R53, R296), the pc stands after it, the events of
its issue are counted. -/
def issued (s : State) (q : Pre) (k : Spec) (cnt cyc short : Nat) : State :=
  let t := s.t
  let s := countCycles s s.curCore (cyc - s.c.cycle) (some s.cur)
  let s1 := s.setC { s.c with cycle := cyc, frac := s.c.frac - 1600 * ((cyc - s.c.cycle : Nat) : Int), last := slotOf s.cur }
  let s2 := s1.setT { t with cnt := cnt, cyc := cyc, hold := k.holdN, passed := 0, wait := .none,
                              pc := t.pc + BitVec.ofNat 64 (2 * q.parcels) }
  countEvent (countEvent s2 s.cur 3 short) s.cur 2 1

/-- The scoreboard after an instruction (R54): entries that are over go, the new results come; an entry stays although its
register or flag is written again, for R55 speaks of every later instruction that reads what P wrote. (assumption 15, DEDUCED) -/
def scoreboard (t : Thread) (k : Spec) : Thread :=
  let ws := (k.writes ++ k.wgroups.flatMap groupRegs).filter (· ≠ 0)
  let keep := t.due.filter (fun d => decide (t.cnt < d.cnt) || decide (t.cyc < d.cyc))
  match k.lat with
  | none => { t with due := keep }
  | some l => { t with due := keep ++ (ws.map (fun r => { what := r.toNat, cnt := t.cnt + l, cyc := t.cyc + l })) ++
                               (k.wflags.map (fun f => { what := 64 + f.toNat, cnt := t.cnt + l, cyc := t.cyc + l })) }

/-- The first registers of misaligned groups. -/
def misaligned (k : Spec) : List Nat := ((k.rgroups ++ k.wgroups).filter (fun g => decide (g.1.toNat % g.2 ≠ 0))).map (·.1.toNat)

/-- Registers named at or above the allotment (R151). -/
def beyondAllot (t : Thread) (k : Spec) : List Nat :=
  ((k.reads ++ k.writes).map (·.toNat) ++ (k.rgroups ++ k.wgroups).flatMap (fun g => (List.range g.2).map (g.1.toNat + ·))).filter (t.allot ≤ ·)

/-- Whether a register is bound to a port. -/
def portBound (t : Thread) (r : Reg) : Bool := match Map.find t.binds r.toNat with | some (.port _ _) => true | _ => false

/-- The instruction in progress stays at its place: it waits, at stage `st` of its operation. -/
def stay (q : Pre) (w : Wait) (st : Nat) (s : State) : State :=
  setWait (s.setT { s.t with pc := s.t.pc - BitVec.ofNat 64 (2 * q.parcels), stage := st }) s.cur w

/-- The checks of R52 before the guard: ILLEGAL, PERM, GROUP, ALLOT, the first that fails. What is illegal in a seam is so in the
members that execute it (R311). (assumption 14, DEDUCED) -/
def decodeChecks (t : Thread) (q : Pre) (k : Spec) : Option Stop :=
  if !k.ok || (t.xchg && !(if k.named.any (portBound t) then k.xport else k.xok)) || (t.seamed && k.noSeam && guardOn t q) then
    some (.trap .illegal (illTval q k.base))
  else if k.priv && !t.mode then some (.trap .perm (k.base.setWidth 64))
  else match leastNat (misaligned k) with
    | some r => some (.trap .group (BitVec.ofNat 64 r))
    | none => match leastNat (beyondAllot t k) with
      | some r => some (.trap .allot (BitVec.ofNat 64 r))
      | none => none

/-! ## Requests leave a network interface (R357) -/

/-- A bucket charged, in thousandths of a byte (R357). -/
def charge (b : Bolt) (cls : Nat) (bytes : Nat) : Bolt :=
  if (Map.get b.rate cls 0#64).getLsbD 63 then { b with bucket := Map.set b.bucket cls (Map.get b.bucket cls 0 - bytes * 1000) } else b

/-- The bytes a request is charged: 16 and its data (R357). -/
def reqCharge (r : Req) : Nat :=
  16 + match r.op with
    | .load _ => 0 | .store _ _ => r.n | .atom _ w _ _ _ => w / 8 | .pref _ => 0 | .probe => 0

/-- The cluster a request was sent from. -/
def Req.cluster (r : Req) : Nat := clusterOf r.core

/-- A request accepted by the network interface of its cluster: injected, or held while its bucket is below zero (R357). -/
def inject (s : State) (r : Req) : State :=
  let cl := r.cluster
  let b := s.bolt r.bolt
  let c := s.cluster cl
  if (Map.get b.rate r.cls.toNat 0#64).getLsbD 63 ∧
      (Map.get b.bucket r.cls.toNat 0 < 0 ∨ c.rated.any (fun x => decide (x.cls = r.cls) && decide (x.bolt = r.bolt))) then
    s.setCluster cl { c with rated := c.rated ++ [r] }
  else
    (s.setBolt r.bolt (charge b r.cls.toNat (reqCharge r))).setCluster cl { c with ni := c.ni ++ [r] }

/-- An agent's access as it now stands, kept in its list. -/
def keepPull (s : State) (a : Ask) : State :=
  let b := s.bolt a.bolt
  { s with accs := if a.pull.acc = s.accs then s.accs + 1 else s.accs }.setBolt a.bolt
    { b with pulls := Map.set b.pulls a.key ((Map.get b.pulls a.key []).take a.keep ++ [a.pull]) }

/-- What an agent asks for goes out by its cluster's network interface, numbered in the order of sending. -/
def sendAsk (s : State) (a : Ask) : State :=
  a.reqs.foldl (fun s r => inject { s with pkts := s.pkts + 1 } { r with no := s.pkts }) (keepPull s a)

/-- A thread's stream elements and reads under way are given up: their answers are discarded. -/
def dropPulls (s : State) (tid : Nat) : State :=
  let b := s.bolt (s.thread tid).bolt
  let mine := fun (k : Nat) => decide (k / 64 = tid)
  if b.pulls.any (fun p => mine p.1) then s.setBolt (s.thread tid).bolt { b with pulls := b.pulls.filter (fun p => !mine p.1) } else s

/-- A precise fault or a wait of the current thread's instruction; the state is the one before the instruction (R8). (assumption 16, DESIGN CHOICE) -/
def stopped (s : State) (x : Stop) : State :=
  match x with
  | .trap c v => takeTrap (dropPulls s s.cur) s.cur c v s.t.pc false false false 0
  | .wait w => setWait s s.cur w
  | .pull a => setWait (match a with | some x => sendAsk s x | none => s) s.cur .operand

/-- After an instruction of the current thread of `s` has run to `s'`: the scoreboard follows, and one that waits no more has committed
(R54, R359). -/
def issueEnd (s s' : State) (k : Spec) : State :=
  let t := s'.thread s.cur
  let s1 := s'.setThread s.cur (scoreboard { t with stage := if t.wait = .none then 0 else t.stage } k)
  if t.wait = .none then commit s1 s.t.bolt else s1

/-- ISSUING AN INSTRUCTION, in the order of R52: the decode checks, the guard, the scoreboard, the stall counts, then the
instruction's own operation. A fault leaves the state as it was (R8). -/
def issue (q : Pre) (k : Spec) (op : State → Res State) (s : State) : Outcome State Fault Refusal :=
  let t := s.t
  match decodeChecks t q k with
  | some x => .next (stopped s x)
  | none =>
    let on := guardOn t q
    let regs := if on then k.watched else []
    let flags := guardFlags q ++ (if on then k.rflags else [])
    if regs.any (fun r => t.pending.contains r.toNat) then .next (setWait s s.cur .operand)
    else
      let (cnt, cyc, short) := issueCycle s t q regs flags
      if t.check && t.stage == 0 && !(earlyBy t cnt regs flags).isEmpty then
        .next (stopped s (.trap .stallcount (stallTval (earlyBy t cnt regs flags))))
      else if !on then .next (commit (issued s q k cnt cyc short) t.bolt)
      else if !k.ownGroup && ((k.rgroups ++ k.wgroups).flatMap groupRegs).any (fun r => (Map.find t.binds r.toNat).isSome) then
        let r := (leastNat ((((k.rgroups ++ k.wgroups).flatMap groupRegs).filter (fun r => (Map.find t.binds r.toNat).isSome)).map (·.toNat))).getD 0
        .next (stopped s (.trap .stream (BitVec.ofNat 64 (r + 2 * 256))))
      else
        let s0 := if t.stage = 0 then issued s q k cnt cyc short
                  else s.setT { t with wait := .none, pc := t.pc + BitVec.ofNat 64 (2 * q.parcels) }
        match op s0 with
        | .ok s' => .next (issueEnd s s' k)
        | .error x => .next (stopped s x)

end Sys2Proof.Machine
end

