-- ==== Sys2Proof/Machine/Caps.lean ====
section
/-!
DEFINITION. Capabilities: kinds and permissions (R159), the checks of a global, local, Damask and B-stage access and the
TVAL of a refused one (R106, R131, R124, R142, R158), the protection unit (R132, R133).
-/
namespace Sys2Proof.Machine

/-- PERM of a register (R154). -/
def capPerm (v : Val) : Nat := bits v.bits.toNat 79 64
/-- CURSOR of a register (R154). -/
def capCursor (v : Val) : Nat := v.nat
/-- LOC (R159). -/
def capLoc (v : Val) : Bool := bitAt (capPerm v) 5
/-- DAM (R159). -/
def capDam (v : Val) : Bool := bitAt (capPerm v) 8

/-- Permission bit numbers (R159). -/
def permR : Nat := 0
def permW : Nat := 1
def permX : Nat := 2
def permLC : Nat := 3
def permSC : Nat := 4
def permSYS : Nat := 6
def permAT : Nat := 7

/-- The TVAL of a refused dereference (R158). -/
def capTval (reg : Nat) (fetch : Bool) (detail : Nat) (addr : Nat) : W64 :=
  BitVec.ofNat 64 ((if fetch then 0 else reg % 64) * 2 ^ 58 + fetch.toNat * 2 ^ 57 + detail % 16 * 2 ^ 53 + addr % 2 ^ 53)

/-- The TVAL of PAGE, MAP and LOCALPROT (R70). -/
def pageTval (level reason va : Nat) : W64 :=
  BitVec.ofNat 64 (level % 4 * 2 ^ 55 + reason % 8 * 2 ^ 52 + va % 2 ^ 52)

/-- The lowest required permission bit that is missing. -/
def missingPerm (v : Val) (need : List Nat) : Option Nat := leastNat (need.filter (fun i => !bitAt (capPerm v) i))

/-- Bounds check of `[a, a+n)` (R155, R157, R158): detail and first byte refused; an empty range names no byte. (assumption 57, DEDUCED) -/
def boundFault (v : Val) (a n : Nat) : Option (Nat × Nat) :=
  if n = 0 then none
  else if capE v > 44 then some (2, a)
  else
    let b := capBounds v
    if (a : Int) < b.base then some (0, a)
    else if ((a + n : Nat) : Int) > b.top then some (1, max a b.top.toNat)
    else none

/-- Tag, kind and permissions of a dereference, then its bounds, in the order every check of R157 keeps: `kind` says
whether LOC and DAM suit the access. (assumption 57, DEDUCED) -/
def derefCheck (reg : Nat) (fetch : Bool) (v : Val) (kind : Bool) (need : List Nat) (a n : Nat) : Res Unit :=
  if !v.tag then faultR .captag (capTval reg fetch 0 a)
  else if !kind then faultR .capperm (capTval reg fetch 0xF a)
  else match missingPerm v need with
    | some i => faultR .capperm (capTval reg fetch i a)
    | none => match boundFault v a n with
      | some (d, x) => faultR .capbound (capTval reg fetch d x)
      | none => .ok ()

/-- The four checks of a global access, in order (R106). -/
def checkGlobal (reg : Nat) (v : Val) (need : List Nat) (ea n : Nat) : Res Unit := do
  derefCheck reg false v (!capLoc v && !capDam v) need ea n
  if n ≠ 0 ∧ (ea ≥ 2 ^ 52 ∨ (ea / 2 ^ 48 = 15 ∧ bits ea 47 34 ≠ 0)) then faultR .page (pageTval 0 5 ea) else .ok ()

/-- Whether the protection unit of a cluster refuses a 4 KiB page to an access (R133): the highest-numbered enabled
region that holds the page decides. -/
def puRefuses (c : Cluster) (mode rd wr : Bool) (page : Nat) : Bool :=
  let regs := (List.range 16).reverse.map (fun i => (Map.get c.lpreg i 0#64).toNat)
  match regs.find? (fun r => bitAt r 63 && decide (bits r 8 0 ≤ page) && decide (page ≤ bits r 40 32)) with
  | none => false
  | some r =>
    let okR := if mode then bitAt r 59 else bitAt r 57
    let okW := if mode then bitAt r 58 else bitAt r 56
    (rd && !okR) || (wr && !okW)

/-- The first byte of `[a, a+n)` of local memory that the protection unit refuses (R131, R133). -/
def puFault (c : Cluster) (mode rd wr : Bool) (a n : Nat) : Option Nat :=
  if n = 0 then none
  else
    let p0 := a / 4096
    match ((List.range ((a + n - 1) / 4096 + 1 - p0)).map (p0 + ·)).find? (puRefuses c mode rd wr) with
    | none => none
    | some p => some (max a (p * 4096))

/-- The window of a thread: base, size and window number. A thread away from its block's cluster has none, which is a
window of size 0 (R294, R314). -/
def windowOf (s : State) (tid : Nat) : Nat × Nat × Nat :=
  match s.blockOf (s.thread tid) with
  | some b => if b.cluster = clusterOf (coreOf tid) then (b.lb, b.ws, b.window) else (0, 0, b.window)
  | none => (0, 0, 0)

/-- The global address of a byte of a window (R80). -/
def windowVa (w o : Nat) : Nat := 0xF000000000000 + w * 0x200000 + o

/-- Steps 4 and 5 of R131: the window's end and the protection unit. -/
def checkWindow (s : State) (tid : Nat) (o n : Nat) (rd wr : Bool) : Res Unit :=
  let (lb, ws, w) := windowOf s tid
  if n = 0 then .ok ()
  else if o + n > ws then faultR .localprot (pageTval 0 0 (windowVa w (max o ws)))
  else match puFault (s.cluster (clusterOf (coreOf tid))) (s.thread tid).mode rd wr (lb + o) n with
    | some a => faultR .localprot (pageTval 0 0 (windowVa w (a - lb)))
    | none => .ok ()

/-- A check of `[a, a+n)` with an address that is exact, not narrowed (R7): a first byte below 0 lies under every base. -/
def exactCheck (reg : Nat) (v : Val) (chk : Nat → Nat → Res Unit) (a : Int) (n : Nat) : Res Unit :=
  if 0 ≤ a then chk a.toNat n
  else do
    chk (w64 a).toNat 0
    if n = 0 then pure () else faultR .capbound (capTval reg false (if capE v > 44 then 2 else 0) (w64 a).toNat)

/-- The five checks of a local access, in order (R131). -/
def checkLocal (s : State) (tid reg : Nat) (v : Val) (o n : Nat) (rd wr : Bool) : Res Unit := do
  derefCheck reg false v (capLoc v && !capDam v) ((if rd then [permR] else []) ++ (if wr then [permW] else [])) o n
  checkWindow s tid o n rd wr

/-- The check of a Damask access (R124, R125, R235). -/
def checkDamask (reg : Nat) (v : Val) (need : List Nat) (o n : Nat) : Res Unit :=
  derefCheck reg false v (capDam v && !capLoc v) need o n

/-- The check of a B-stage access: a byte at or above 0x4_0000 is out of bounds (R142). (assumption 57, DEDUCED) -/
def checkBstage (reg : Nat) (v : Val) (need : List Nat) (o n : Nat) : Res Unit := do
  derefCheck reg false v (capDam v && capLoc v) need o n
  if n ≠ 0 ∧ o + n > Config.bstageBytes then faultR .capbound (capTval reg false 1 (max o Config.bstageBytes)) else .ok ()

end Sys2Proof.Machine
end

