-- ==== Sys2Proof/Machine/Home.lean ====
section
/-!
DEFINITION. Main memory seen from the home slices: physical addresses and page tables (03_main_memory_and_addresses.md),
claims, the lines a slice holds, its staging buffer and stream detector, the home ALU (04_crossbar_and_home_slices.md),
local and fabric windows, and the access of one line part that every agent makes through them.
-/
namespace Sys2Proof.Machine

/-! ## Addresses -/

/-- Regions of the virtual space (R69). -/
inductive Region where
  | ordinary | fabric | window | reserved
  deriving DecidableEq, Repr

/-- The region of a virtual address (R69). -/
def regionOf (va : Nat) : Region :=
  if va ≥ 2 ^ 52 then .reserved
  else if va / 2 ^ 48 < 14 then .ordinary
  else if va / 2 ^ 48 = 14 then .fabric
  else if bits va 47 34 = 0 then .window else .reserved

/-- H of a virtual address (R90). -/
def homeHash (va : Nat) : Nat :=
  let x := va / 4096
  bits x 15 0 ^^^ bits x 31 16 ^^^ bits x 39 32

/-- The home slice of an address in a slice list (R90). -/
def homeIn (l : List Nat) (va : Nat) : Nat := if l.isEmpty then 0 else l.getD (homeHash va % l.length) 0

/-- The home of record of an ordinary address of a bolt (R90, R351): during a rehash the old home, until the line has arrived at the
new one or the old home's sweep has ended. (assumption 43, DEDUCED) -/
def recordHome (s : State) (bolt va : Nat) : Nat :=
  let b := s.bolt bolt
  let n := homeIn b.slices va
  let o := homeIn b.oldSlices va
  if b.oldSlices.isEmpty ∨ o = n ∨ !b.sweeping.contains o ∨ (s.slice n).record.contains (va / 64) then n else o

/-- Whether a physical address names no memory (R65). -/
def noMemory (pa : Nat) : Bool := decide (pa / 2 ^ 39 % 2 ^ 9 ≠ 0) || decide (pa / 2 ^ 30 ≥ Config.swatches)

/-! ## Lines -/

/-- A 64-byte line as a number and its four tags, from DRAM. -/
def dramLine (s : State) (pa : Nat) : Nat × BitVec 4 :=
  let b := pa / 64 * 64
  (bytesToNat (Memory.readN s.dram.cells b 64),
   BitVec.ofNat 4 (((List.range 4).map (fun i => (Map.get s.dram.tags (b / 16 + i) false).toNat * 2 ^ i)).sum))

/-- A line written back to DRAM with its tags. -/
def dramWriteLine (s : State) (pa : Nat) (data : Nat) (tags : BitVec 4) : State :=
  let b := pa / 64 * 64
  { s with dram := { cells := Memory.writeN s.dram.cells b (natToBytes 64 data)
                     tags := (List.range 4).foldl (fun t i => Map.put false t (b / 16 + i) (tags.getLsbD i)) s.dram.tags } }

/-- The way of a slice that holds a line, if any (R91). -/
def findWay (sl : Slice) (bolt line : Nat) : Option (Nat × Line) :=
  sl.ways.find? (fun p => decide (p.2.bolt = bolt) && decide (p.2.line = line))

/-- The newest value a slice holds for a line: the cached line, else a pending write merge, else DRAM (R92). (assumption 30, DEDUCED) -/
def newest (s : State) (h bolt line pa : Nat) : Nat × BitVec 4 :=
  let sl := s.slice h
  match findWay sl bolt line with
  | some (_, l) => (l.data.toNat, l.tags)
  | none => match sl.staging.find? (fun e => decide (e.bolt = bolt) && decide (e.line = line) && decide (e.kind = 1)) with
    | some e => (e.data.toNat, e.tags)
    | none => dramLine s pa

/-! ## Page tables (R73 to R79) -/

/-- Access kinds as a leaf permits them (R73). -/
inductive Acc where
  | rd | wr | atom | fetch
  deriving DecidableEq, Repr

/-- The claim that covers a 64 KiB frame: its size class, its first physical address, owner page and bolt (R78). -/
def claimOver (s : State) (pa : Nat) : Option (Nat × Nat × Nat) :=
  match Map.find s.claims (pa / 2 ^ 16) with
  | some (o, b) => some (pa / 2 ^ 16 * 2 ^ 16, o, b)
  | none => match Map.find s.claims (2 ^ 40 + pa / 2 ^ 21) with
    | some (o, b) => some (pa / 2 ^ 21 * 2 ^ 21, o, b)
    | none => match Map.find s.claims (2 * 2 ^ 40 + pa / 2 ^ 30) with
      | some (o, b) => some (pa / 2 ^ 30 * 2 ^ 30, o, b)
      | none => none

/-- `ReadEntry`: coherent, from the home of the claiming address where the frame is claimed (R76). -/
def readEntry (s : State) (pa : Nat) : Nat :=
  let line := match claimOver s pa with
    | some (base, owner, b) =>
      let va := owner * 2 ^ 16 + (pa - base)
      (newest s (recordHome s b va) b (va / 64) pa).1
    | none => (dramLine s pa).1
  line / 2 ^ (pa % 64 / 8 * 64) % 2 ^ 64

/-- A malformed entry with V = 1 at a level (R73). -/
def malformed (e lvl : Nat) : Bool :=
  decide (bits e 63 48 ≠ 0) || decide (bits e 14 9 ≠ 0) ||
  (if bitAt e 1 then
    decide (lvl = 1) || bitAt e 15 || decide (bits e 3 2 = 3) || (decide (lvl = 2) && decide (bits e 3 2 ≤ 1)) ||
    (decide (lvl = 3) && decide (bits e 3 2 = 2)) || (decide (bits e 3 2 = 1) && decide (bits e 20 16 ≠ 0)) ||
    (decide (bits e 3 2 = 2) && decide (bits e 29 16 ≠ 0))
  else decide (lvl = 3) || decide (bits e 8 2 ≠ 0))

/-- The walk of R75 from a table: the leaf and its level, or the TVAL of PAGE. -/
def walkLevels (s : State) (mask : List Nat) (va : Nat) : List Nat → Nat → Except W64 (Nat × Nat)
  | [], _ => .error (pageTval 3 2 va)
  | lvl :: r, a =>
    let e := readEntry s (a + 8 * bits va (63 - 12 * lvl) (52 - 12 * lvl))
    let p := bits e 47 15 * 2 ^ 15
    if !bitAt e 0 then .error (pageTval lvl 0 va)
    else if malformed e lvl then .error (pageTval lvl 2 va)
    else if noMemory p then .error (pageTval lvl 3 va)
    else if !mask.contains (bits p 38 30) then .error (pageTval lvl 4 va)
    else if bitAt e 1 then .ok (e, lvl)
    else walkLevels s mask va r p

/-- Whether a leaf permits an access (R73). -/
def permits (e : Nat) : Acc → Bool
  | .rd => bitAt e 4
  | .wr => bitAt e 5
  | .atom => bitAt e 7 && bitAt e 5
  | .fetch => bitAt e 6

/-- Bytes of a leaf's page, and its claim class (R73, R78). -/
def pageBytes (e : Nat) : Nat := match bits e 3 2 with | 0 => 2 ^ 16 | 1 => 2 ^ 21 | _ => 2 ^ 30

/-- `Claim` (R78): the claims after it, or none where it fails. -/
def claim (s : State) (bolt e va : Nat) : Option (Map (Nat × Nat)) :=
  let size := pageBytes e
  let pa := bits e 47 16 * 2 ^ 16
  let cls := bits e 3 2
  let key := cls * 2 ^ 40 + pa / size
  let owner := va / size * size / 2 ^ 16
  let held := Map.find s.claims key
  let above := (if cls < 1 then [2 ^ 40 + pa / 2 ^ 21] else []) ++ (if cls < 2 then [2 * 2 ^ 40 + pa / 2 ^ 30] else [])
  let under := s.claims.any (fun p =>
    (decide (cls ≥ 1) && decide (p.1 / 2 ^ 40 = 0) && decide (p.1 % 2 ^ 40 * 2 ^ 16 / size = pa / size)) ||
    (decide (cls = 2) && decide (p.1 / 2 ^ 40 = 1) && decide (p.1 % 2 ^ 40 * 2 ^ 21 / size = pa / size)))
  if under || above.any (fun k => (Map.find s.claims k).isSome) then none
  else match held with
    | some p => if p = (owner, bolt) then some s.claims else none
    | none => some (Map.set s.claims key (owner, bolt))

/-- Translation of an ordinary address at its home (R75 to R78): the physical address, the leaf, the state with the claim
made and the translation cached; or the cause and TVAL, whose LEVEL is 0 where a cached leaf refuses the access, since no walk is made
(R70). A fault result is never cached. -/
def translate (s : State) (bolt h va : Nat) (acc : Acc) : Except (Cause × W64) (State × Nat × Nat) :=
  let sl := s.slice h
  let vp := va / 2 ^ 16
  match sl.xlat.find? (fun x => decide (x.bolt = bolt) && decide (x.page ≤ vp) && decide (vp < x.page + x.pages)) with
  | some x =>
    let e := x.leaf.toNat
    if permits e acc then .ok (s, bits e 47 16 * 2 ^ 16 + va % pageBytes e, e)
    else .error (.page, pageTval 0 1 va)
  | none =>
    match walkLevels s sl.swmask va [1, 2, 3] (s.bolt bolt).root with
    | .error tv => .error (.page, tv)
    | .ok (e, lvl) =>
      if !permits e acc then .error (.page, pageTval lvl 1 va)
      else match claim s bolt e va with
        | none => .error (.map, pageTval lvl 0 va)
        | some cs =>
          let size := pageBytes e
          let x : Xlat := { bolt := bolt, page := va / size * size / 2 ^ 16, pages := size / 2 ^ 16, leaf := BitVec.ofNat 64 e }
          .ok ({ s with claims := cs }.setSlice h { sl with xlat := (x :: sl.xlat).take 2048 }, bits e 47 16 * 2 ^ 16 + va % size, e)

/-! ## System cores (R371) -/

/-- Whether an access is translated by Rolnis's own tables: a system core's, and that of a thread in no bolt, which runs on Rolnis's behalf
(R344, R371, R372). -/
def byRolnis (bolt core : Nat) : Bool := isSystem core || decide (bolt = 0)

/-- Translation for a system core, by Rolnis's own tables, which bound it to no bolt's swatches and make no claim: the physical address.
(assumption 78, DESIGN CHOICE) -/
def systemTranslate (s : State) (va : Nat) (acc : Acc) : Except (Cause × W64) Nat :=
  match walkLevels s (List.range Config.swatches) va [1, 2, 3] s.rolnisRoot with
  | .error tv => .error (.page, tv)
  | .ok (e, lvl) => if permits e acc then .ok (bits e 47 16 * 2 ^ 16 + va % pageBytes e) else .error (.page, pageTval lvl 1 va)

/-- The bolt and address under which a physical address is claimed (R78): there a system core's access meets the others of the line. -/
def claimedAs (s : State) (pa : Nat) : Option (Nat × Nat) := (claimOver s pa).map (fun c => (c.2.2, c.2.1 * 2 ^ 16 + (pa - c.1)))

/-- The newest value of a physical line, coherently (R76). -/
def systemLine (s : State) (pa : Nat) : Nat × BitVec 4 :=
  match claimedAs s pa with
  | some (b, va) => newest s (recordHome s b va) b (va / 64) pa
  | none => dramLine s pa

/-! ## The line a slice serves (R91 to R99) -/

/-- The bolt of a requester charged for `bytes` bytes in a packet of its class. -/
def chargeWho (s : State) (w : Who) (bytes : Nat) : State := s.setBolt w.bolt (charge (s.bolt w.bolt) w.cls.toNat (16 + bytes))

/-- A dirty line's write-back charged to the bolt that caused it: 16 bytes and the line's (R357). -/
def chargeBack (s : State) (bolt : Nat) (cls : BitVec 2) : State := s.setBolt bolt (charge (s.bolt bolt) cls.toNat (16 + 64))

/-- Eviction classes (R95): 0 evict-first, 1 normal, 2 keep. -/
def lineClass (pol : BitVec 32) (line : Nat) : Nat :=
  let p := pol.toNat
  let h := bits line 7 0 ^^^ bits line 15 8 ^^^ bits line 23 16 ^^^ bits line 31 24 ^^^ bits line 39 32 ^^^ bits line 45 40 ^^^ bits p 7 0
  if bits p 23 16 = 0 ∧ bits p 15 8 = 0 then 1
  else if h < bits p 23 16 then 2
  else if h < bits p 15 8 then 1 else 0

/-- The requesters of the stream detectors (R99): a core by its number, the copy engine of a cluster from here; an agent that is neither
has a number from the last on, and no detector. (assumption 85, DEDUCED) -/
def engineRequester : Nat := 2 ^ 50
/-- Assumption 85, DESIGN CHOICE. (assumption 85, DEDUCED) -/
def otherRequester : Nat := 2 ^ 51

/-- The stream detector after a read of a line (R99). -/
def detect (sl : Slice) (req line : Nat) : Slice × Nat :=
  let (last, n) := Map.get sl.detect req (0, 0)
  let n' := if n > 0 ∧ line = last + 1 ∧ line / 64 = last / 64 then min (n + 1) 8 else 1
  ({ sl with detect := Map.set sl.detect req (line, n') }, n')

/-- The victim of a set, in the order of R96: an invalid way, then the least recently used unpinned line of class
evict-first, normal, keep; none when all sixteen are pinned. -/
def victim (sl : Slice) (set : Nat) : Option Nat :=
  let ways := (List.range 16).map (fun w => (set * 16 + w, Map.find sl.ways (set * 16 + w)))
  match ways.find? (fun p => p.2.isNone) with
  | some p => some p.1
  | none =>
    let pick := fun (c : Nat) => (ways.filterMap (fun p => match p.2 with
      | some l => if l.pin.isNone ∧ l.cls = c then some (l.used, p.1) else none
      | none => none)).foldl (fun (a : Option (Nat × Nat)) x => match a with | none => some x | some y => if x.1 < y.1 then some x else some y) none
    match pick 0 with
    | some x => some x.2
    | none => match pick 1 with
      | some x => some x.2
      | none => (pick 2).map (·.2)

/-- Threads waiting or about to wait on a line of a bolt are woken by a write to it (R306). -/
def wakeWatchers (s : State) (bolt line : Nat) : State :=
  { s with threads := s.threads.map (fun p =>
      let t := p.2
      let hit := decide (t.bolt = bolt) && (match t.wait with
        | .watch va _ => decide (va / 64 = line)
        | _ => match t.await with
          | some a => (match a.watch with | some (va, _) => decide (va / 64 = line) | none => false)
          | none => false)
      (p.1, if hit then { t with woken := true } else t)) }

/-- The class a queue serves next among those with a request it may take, where `m` counts how often classes 2 and 3 have been passed over:
class 0; a class that 64 requests of higher classes would else pass; the highest (R88, R355). (assumption 66, DEDUCED) -/
def classTurn (m : Map Nat) (waiting : Nat → Bool) : Option Nat :=
  if waiting 0 then some 0
  else match [2, 3].find? (fun k => waiting k && decide (Map.get m k 0 ≥ 63)) with
    | some k => some k
    | none => [1, 2, 3].find? waiting

/-- The counts after class `k` is served. -/
def classPassed (m : Map Nat) (k : Nat) (waiting : Nat → Bool) : Map Nat :=
  [2, 3].foldl (fun m j => Map.put 0 m j (if j = k then 0 else if k < j ∧ k ≠ 0 ∧ waiting j then Map.get m j 0 + 1 else Map.get m j 0)) m

/-- The class whose fills and merges DRAM serves next for a slice (R355). -/
def dramClass (sl : Slice) : Option Nat := classTurn sl.dramSkipped (fun k => sl.staging.any (fun e => decide (e.kind ≠ 2) && decide (e.cls.toNat = k)))

/-- Whether DRAM may answer a staging entry now: a fill or merge of the class it serves next. -/
def dramTurn (sl : Slice) (e : Staged) : Bool := decide (e.kind ≠ 2) && decide (dramClass sl = some e.cls.toNat)

/-- DRAM answers staging entry `i`, of the class it serves next (R355): a fill is freed, a merge is written and freed (R98); a staged line
stays. -/
def dramResponse (s : State) (h i : Nat) : State :=
  let sl := s.slice h
  match sl.staging[i]? with
  | none => s
  | some e =>
    if !dramTurn sl e then s
    else
      let s1 := if e.kind = 1 then dramWriteLine s e.pa e.data.toNat e.tags else s
      let rest := sl.staging.eraseIdx i
      let waiting := fun (k : Nat) => rest.any (fun x => decide (x.kind ≠ 2) && decide (x.cls.toNat = k))
      s1.setSlice h { s1.slice h with staging := rest, dramSkipped := classPassed sl.dramSkipped e.cls.toNat waiting }

/-- A free staging entry: the oldest staged line gives way, else the request waits for the oldest fill or merge that DRAM serves (R98, R355). -/
def stagingRoom (s : State) (h : Nat) : State :=
  let sl := s.slice h
  if sl.staging.length < 32 then s
  else match sl.staging.findIdx? (fun e => decide (e.kind = 2)) with
    | some i => s.setSlice h { sl with staging := sl.staging.eraseIdx i }
    | none => match sl.staging.findIdx? (dramTurn sl) with
      | some i => dramResponse s h i
      | none => s

/-- How an access uses a line: a read, a write (an atomic among them, R100), or a prefetch, which no stream detector notices (R116). -/
inductive Use where
  | read | write | prefetch
  deriving DecidableEq, Repr

/-- A slice serves one line (R92, R96, R97): `f` turns the newest value and tags into a new value and tags, or leaves
them. Answers the value and tags before the access. A staged line is freed by a read of the core that staged it and by every write,
an atomic that leaves the bytes as they were included (R98). An access that pins its line installs it whatever asks for
no-allocate, for the pin is kept with the line (R91, R281). A dirty victim's write-back is charged to the requester's bolt (R357).
(assumption 62, DEDUCED) -/
def serveLine (s : State) (h : Nat) (w : Who) (line pa : Nat) (nc : Bool) (u : Use) (f : Nat → BitVec 4 → Option (Nat × BitVec 4)) :
    State × Nat × BitVec 4 :=
  let (d, tg) := newest s h w.bolt line pa
  let (sl0, run) := if u = .read ∧ w.requester < otherRequester then detect (s.slice h) w.requester line else (s.slice h, 0)
  let sl := { sl0 with clock := sl0.clock + 1 }
  let s := s.setSlice h sl
  let cls := lineClass w.pol line
  let noAlloc := !w.pins && (w.pol.getLsbD 24 || nc || (decide (run = 8) && decide (cls ≠ 2)))
  let new := f d tg
  let (d', tg') := new.getD (d, tg)
  let s := if new.isSome then wakeWatchers s w.bolt line else s
  let drop := fun (l : List Staged) => l.filter (fun e => !(decide (e.bolt = w.bolt) && decide (e.line = line) && (decide (e.kind = 2) && (decide (u = .write) || decide (e.core = w.requester)))))
  match findWay sl w.bolt line with
  | some (k, l) =>
    let l' := { l with data := BitVec.ofNat 512 d', tags := tg', dirty := l.dirty || new.isSome, cls := cls,
                       used := if noAlloc && decide (u ≠ .write) then l.used else sl.clock }
    (s.setSlice h { sl with ways := Map.set sl.ways k l', staging := drop sl.staging }, d, tg)
  | none =>
    let merging := sl.staging.any (fun e => decide (e.bolt = w.bolt) && decide (e.line = line) && decide (e.kind = 1))
    match (if noAlloc then none else victim sl (line % 1024)) with
    | some k =>
      let s1 := match Map.find sl.ways k with
        | some v => if v.dirty then chargeWho (dramWriteLine s v.pa v.data.toNat v.tags) w 64 else s
        | none => s
      let l : Line := { bolt := w.bolt, line := line, pa := pa / 64 * 64, data := BitVec.ofNat 512 d', tags := tg',
                        dirty := new.isSome || merging, cls := cls, used := sl.clock }
      let st := (drop sl.staging).filter (fun e => !(decide (e.bolt = w.bolt) && decide (e.line = line) && decide (e.kind ≤ 1)))
      (s1.setSlice h { s1.slice h with ways := Map.set sl.ways k l, staging := st }, d, tg)
    | none =>
      let e : Staged := { kind := if new.isSome then 1 else 0, bolt := w.bolt, line := line, pa := pa / 64 * 64,
                          data := BitVec.ofNat 512 d', tags := tg', cls := w.cls }
      if new.isNone && (merging || sl.staging.any (fun e => decide (e.bolt = w.bolt) && decide (e.line = line) && decide (e.kind = 2))) then
        (s.setSlice h { sl with staging := drop sl.staging }, d, tg)
      else
        let s1 := stagingRoom (s.setSlice h { sl with staging := (drop sl.staging).filter (fun x => !(decide (x.bolt = w.bolt) && decide (x.line = line) && decide (x.kind = 1) && new.isSome)) }) h
        (s1.setSlice h { s1.slice h with staging := (s1.slice h).staging ++ [e] }, d, tg)

/-- PREF.SLICE installs a line under its class, as if read, without a detector's notice (R116). -/
def prefetchLine (s : State) (h : Nat) (w : Who) (line pa : Nat) (nc : Bool) : State :=
  (serveLine s h w line pa nc .prefetch (fun _ _ => none)).1

/-! ## The home ALU (R104) -/

/-- Operation codes of ATOM and RED (R49). (assumption 20, DEDUCED) -/
def atomNew (op w old opnd cmp : Nat) : Nat :=
  let m := 2 ^ w
  match op with
  | 0 => (old + opnd) % m
  | 1 => if sext old w ≤ sext opnd w then old else opnd
  | 2 => if sext old w ≥ sext opnd w then old else opnd
  | 3 => min old opnd
  | 4 => max old opnd
  | 5 => old &&& opnd
  | 6 => old ||| opnd
  | 7 => old ^^^ opnd
  | 8 => opnd
  | 9 => if old = cmp then opnd else old
  | 10 => min old opnd
  | _ => old

/-- The new value of an ATOM or RED on its `n` bytes; ST4 replaces one nibble; memory is written only when the value
changes, or by XCHG and ST4 (R113). (assumption 20, DEDUCED) -/
def atomWrite (op w : Nat) (opnd cmp : Nat) (old : Nat) : Option Nat :=
  if op = 11 then
    let k := bits opnd 4 4
    some (old - bits old (4 * k + 3) (4 * k) * 2 ^ (4 * k) + bits opnd 3 0 * 2 ^ (4 * k))
  else
    let v := atomNew op w old (opnd % 2 ^ w) (cmp % 2 ^ w)
    if v ≠ old ∨ op = 8 then some v else none

/-! ## One line part of a global access -/

/-- The old bytes of a part replaced in its line, tags cleared, or set by a tagged 16-byte store (R107). (assumption 20, DEDUCED) -/
def lineUpdate (off n : Nat) (g : Nat → Option (Nat × Bool)) (d : Nat) (tg : BitVec 4) : Option (Nat × BitVec 4) :=
  let old := d / 2 ^ (8 * off) % 2 ^ (8 * n)
  match g old with
  | none => none
  | some (v, tag) =>
    let d' := d - old * 2 ^ (8 * off) + v % 2 ^ (8 * n) * 2 ^ (8 * off)
    let cleared := (List.range 4).foldl (fun (t : BitVec 4) i =>
      if i * 16 < off + n ∧ off < i * 16 + 16 then t &&& ~~~(1#4 <<< i) else t) tg
    some (d', if tag && decide (off % 16 = 0) && decide (n = 16) then cleared ||| (1#4 <<< (off / 16)) else cleared)

/-- A part of an access to a local window, at the target cluster (R80, R105): found, permitted, wholly within the
window, allowed by the protection unit. -/
def windowPart (s : State) (w : Who) (va n : Nat) (acc : Acc) (g : Nat → Option (Nat × Bool)) :
    Except (Cause × W64) (State × Nat × Bool) :=
  let win := bits va 33 21
  let o := bits va 20 0
  match s.blocks.find? (fun p => decide (p.2.bolt = w.bolt) && decide (p.2.window = win) && decide (p.2.live > 0)) with
  | none => .error (.page, pageTval 0 7 va)
  | some (_, b) =>
    if b.cluster ≠ w.cluster ∧ !(s.cluster w.cluster).permt.contains b.cluster then .error (.page, pageTval 0 7 va)
    else if o + n > b.ws then .error (.page, pageTval 0 7 va)
    else
      let c := s.cluster b.cluster
      match puFault c w.mode (decide (acc ≠ .wr)) (decide (acc ≠ .rd)) (b.lb + o) n with
      | some a => .error (.localprot, pageTval 0 0 (windowVa win (a - b.lb)))
      | none =>
        let a := b.lb + o
        let old := bytesToNat (Memory.readN c.mem.cells a n)
        let tag := decide (n = 16) && decide (a % 16 = 0) && c.mem.tagAt a
        match g old with
        | none => .ok (s, old, tag)
        | some (v, tg) =>
          .ok (wakeWatchers (s.setCluster b.cluster { c with mem := c.mem.writeTagged a (natToBytes n v) tg }) w.bolt (va / 64), old, tag)

/-- A part of an access to a fabric window (R82): the import slot's checks are the importer's; the exporter's answer is a
free value; a capability's tag does not travel through the window, so what is read there is untagged. An atomic needs W of the slot as well as AT, as it needs both of a capability: R105 names only AT. (assumption 9, DESIGN
CHOICE; assumption 63, DEDUCED; assumption 93, DESIGN CHOICE) -/
def fabricPart (s : State) (w : Who) (va n : Nat) (acc : Acc) : Except (Cause × W64) (State × Nat × Bool) :=
  let i := Map.get (s.bolt w.bolt).imports (bits va 47 40) {}
  let allowed := match acc with | .rd => i.rd | .wr => i.w | .atom => i.at_ && i.w | .fetch => false
  if !i.bound || decide (va % 2 ^ 40 + n > i.len) || !allowed then .error (.page, pageTval 0 6 va)
  else
    let s' := { s with free := s.free + 1 }
    if Config.peerRefuses s.gtime s.free then .error (.page, pageTval 0 6 va)
    else .ok (s', bytesToNat ((List.range n).map (Config.peerByte s.free)), false)

/-- The slice to which an ordinary address of a bolt is sent (R90). -/
def homeSlice (s : State) (bolt va : Nat) : Nat := homeIn (s.bolt bolt).slices va

/-- A line part of a system core's ordinary access: at the home of the line its physical address is claimed as, else in DRAM.
(assumption 78, DESIGN CHOICE) -/
def systemPart (s : State) (w : Who) (va n : Nat) (acc : Acc) (g : Nat → Option (Nat × Bool)) : Except (Cause × W64) (State × Nat × Bool) :=
  match systemTranslate s va acc with
  | .error e => .error e
  | .ok pa =>
    let off := va % 64
    let f := lineUpdate off n g
    let (s1, d, tg) := match claimedAs s pa with
      | some (b, v) => serveLine s (recordHome s b v) { w with bolt := b } (v / 64) pa false (if acc = Acc.rd then Use.read else Use.write) f
      | none =>
        let (d, tg) := dramLine s pa
        ((match f d tg with | some (d', tg') => dramWriteLine s pa d' tg' | none => s), d, tg)
    .ok (s1, d / 2 ^ (8 * off) % 2 ^ (8 * n), decide (n = 16) && decide (off % 16 = 0) && tg.getLsbD (off / 16))

/-- ONE LINE PART of a global access served at slice `h`: `[va, va+n)` within one 64-byte line. `g` turns the old bytes into
the new ones and their tag, or leaves them. Answers the old bytes and, for an aligned granule, its tag. -/
def globalPartAt (s : State) (h : Nat) (w : Who) (va n : Nat) (acc : Acc) (g : Nat → Option (Nat × Bool)) :
    Except (Cause × W64) (State × Nat × Bool) :=
  match regionOf va with
  | .reserved => .error (.page, pageTval 0 5 va)
  | .fabric => fabricPart s w va n acc
  | .window => windowPart s w va n acc g
  | .ordinary =>
    if byRolnis w.bolt w.core then systemPart s w va n acc g
    else match translate s w.bolt h va acc with
    | .error e => .error e
    | .ok (s1, pa, leaf) =>
      let off := va % 64
      let (s2, d, tg) := serveLine s1 h w (va / 64) pa (bitAt leaf 8) (if acc = .rd then .read else .write) (fun d tg => lineUpdate off n g d tg)
      .ok (s2, d / 2 ^ (8 * off) % 2 ^ (8 * n), decide (n = 16) && decide (off % 16 = 0) && tg.getLsbD (off / 16))

/-- The line parts of `[va, va+n)`: address and length of each (R108). -/
def lineParts (va n : Nat) : List (Nat × Nat) :=
  if n = 0 then []
  else
    (List.range ((va + n - 1) / 64 + 1 - va / 64)).map (fun i =>
      let lo := max va ((va / 64 + i) * 64)
      let hi := min (va + n) ((va / 64 + i + 1) * 64)
      (lo, hi - lo))

/-- An engine of a core's cluster that acts for a bolt: the cluster's number for the stream detectors (R99). -/
def engineWho (bolt core : Nat) (mode : Bool) (pol : BitVec 32) (cls : BitVec 2) : Who :=
  { bolt := bolt, cluster := clusterOf core, core := core, mode := mode, requester := engineRequester + clusterOf core,
    pol := pol &&& 0x01FFFFFF#32, cls := cls }

end Sys2Proof.Machine
end

