-- ==== Sys2Proof/Machine/Packets.lean ====
section
/-!
DEFINITION. Requests on their way: injection, channels, the die bridge, the homes that perform them, pins and RETRY, the
phases a release closes and their answers (R86 to R103, R271 to R283), the rate limiters (R357); and the event rows
CHANNEL_PACKET_SEND, BRIDGE_FORWARD, HOME_REQUEST, RETRY_REISSUE, PHASE_ANSWER, PHASE_COMPLETE, PIN_RECALL, PIN_END,
LOCAL_WINDOW_ACCESS, STORE_FAULT_ARRIVAL, RATE_RELEASE and DRAM_RESPONSE.
-/
namespace Sys2Proof.Machine

open Host (Outcome)

/-- The answer of a step that goes on. -/
abbrev Step := Outcome State Fault Refusal

/-- An event about a unit the module has; one about any other is a fault of its own (R2). (assumption 12, DESIGN CHOICE) -/
def withUnit (ok : Bool) (s : State) : Step := if ok then .next s else .fault .noSuchUnit

/-- `f` with the thread `tid` as the current one. -/
def withCur (tid : Nat) (f : State → State) (s : State) : State :=
  let s' := f { s with cur := tid }
  { s' with cur := s.cur }

/-! ## Policies and scopes -/

/-- ORD of a policy word; a reserved value is acquire-release (R93, R94). -/
def polOrd (p : BitVec 32) : Nat := let o := bits p.toNat 31 28; if o > 3 then 3 else o
/-- SCOPE of a policy word; a reserved value is system (R93, R94). -/
def polScope (p : BitVec 32) : Nat := let c := bits p.toNat 27 25; if c > 5 then 5 else c
/-- Whether an access under the policy is preceded by a release (R94). -/
def polReleases (p : BitVec 32) : Bool := decide (polOrd p ≥ 2)
/-- Whether an access under the policy is followed by an acquire (R94). -/
def polAcquires (p : BitVec 32) : Bool := decide (polOrd p = 1 ∨ polOrd p = 3)

/-- The physical address of a system core's ordinary address, whatever its leaf permits. (assumption 78, DESIGN CHOICE) -/
def systemPa (s : State) (va : Nat) : Option Nat :=
  match walkLevels s (List.range Config.swatches) va [1, 2, 3] s.rolnisRoot with
  | .ok (e, _) => some (bits e 47 16 * 2 ^ 16 + va % pageBytes e)
  | .error _ => none

/-- The slice to which a system core's request goes: the home of the line its physical address is claimed as; a slice of the module by the
address where it is claimed by none. (assumption 78, DESIGN CHOICE) -/
def systemHome (s : State) (va : Nat) : Nat :=
  let pa := (systemPa s va).getD va
  match claimedAs s pa with
  | some (b, v) => recordHome s b v
  | none => homeIn (List.range Config.slices) pa

/-- The destination of a request of a core or an agent: a slice, or 128 + the cluster of a local window (R90, R80). A window that no
placed block holds has no cluster to go to: its access, which faults, is settled at the sender's own network interface, for
local-window accesses do not go to a slice. (assumption 64, DEDUCED) -/
def destOf (s : State) (bolt core va : Nat) : Nat :=
  match regionOf va with
  | .window =>
    match s.blocks.find? (fun p => decide (p.2.bolt = bolt) && decide (p.2.window = bits va 33 21) && decide (p.2.live > 0)) with
    | some (_, b) => 128 + b.cluster
    | none => 128 + clusterOf core
  | _ => if byRolnis bolt core then systemHome s va else homeSlice s bolt va

/-! ## Phases (R100 to R103) -/

/-- Key of a sent count. -/
def destSpan : Nat := 2 ^ 40
def sentKey (phase dest : Nat) : Nat := phase * destSpan + dest

/-- The close of a core's current phase (R101): none while two earlier phases are still open. -/
def closePhase (c : Core) (pins : List (Nat × Nat)) : Option Core :=
  if c.closing.length ≥ 2 then none
  else
    let p := c.phase.toNat
    let ds := (c.sent.filter (fun e => decide (e.1 / destSpan = p) && decide (e.2 > 0))).map (·.1 % destSpan)
    some { c with phase := c.phase + 1, closing := if ds.isEmpty then c.closing else c.closing ++ [{ phase := p, dests := ds, pins := pins }] }

/-- Whether `n` more writes of a core might pass a count of its phase that cannot be closed yet, two earlier phases being open
(R101, R103). -/
def phaseFull (c : Core) (n : Nat) : Bool :=
  decide (c.closing.length ≥ 2) && c.sent.any (fun e => decide (e.1 / destSpan = c.phase.toNat) && decide (e.2 + n > 2 ^ 32 - 1))

/-- A write counted when it issues (R100); a full count closes the phase first (R103). The instruction has waited until it can
(`sendRoom`). -/
def countSent (c : Core) (dest : Nat) : Core :=
  let k := sentKey c.phase.toNat dest
  let c := if Map.get c.sent k 0 ≥ 2 ^ 32 - 1 then (closePhase c []).getD c else c
  let k := sentKey c.phase.toNat dest
  { c with sent := Map.set c.sent k (Map.get c.sent k 0 + 1) }

/-- A write that has arrived at its destination, performed or found to fault (R100). -/
def countArrived (s : State) (dest core phase : Nat) : State :=
  let k := core * 4 + phase
  if dest < 128 then
    let h := s.slice dest
    s.setSlice dest { h with arrived := Map.set h.arrived k (Map.get h.arrived k 0 + 1) }
  else
    let c := s.cluster (dest - 128)
    s.setCluster (dest - 128) { c with arrived := Map.set c.arrived k (Map.get c.arrived k 0 + 1) }

/-- What has arrived at a destination. -/
def arrivedAt (s : State) (dest core phase : Nat) : Nat :=
  if dest < 128 then Map.get (s.slice dest).arrived (core * 4 + phase) 0
  else Map.get (s.cluster (dest - 128)).arrived (core * 4 + phase) 0

/-- An arrival count cleared by its answer (R101). -/
def clearArrived (s : State) (dest core phase : Nat) : State :=
  if dest < 128 then s.setSlice dest { s.slice dest with arrived := Map.erase (s.slice dest).arrived (core * 4 + phase) }
  else s.setCluster (dest - 128) { s.cluster (dest - 128) with arrived := Map.erase (s.cluster (dest - 128)).arrived (core * 4 + phase) }

/-- Whether a packet on the bridge is a fault for a core. -/
def Packet.faultOf (core : Nat) : Packet → Bool
  | .fault f => decide (coreOf f.tid = core)
  | _ => false

/-- Whether a store fault of a core is on its way to its queue (R102). -/
def faultsOut (s : State) (core : Nat) : Bool :=
  s.storeFaults.any (fun f => decide (coreOf f.tid = core)) || s.dies.any (fun d => d.2.bridge.any (Packet.faultOf core))

/-- PHASE_ANSWER (R101, R102): destination `dest` answers the oldest closing phase of a core that waits for it, once the
arrival count reaches the sent count and no fault of the core is still on its way. -/
def answerPhase (s : State) (core dest : Nat) : State :=
  let c := s.core core
  match c.closing.find? (fun k => k.dests.contains dest) with
  | none => s
  | some k =>
    if arrivedAt s dest core k.phase ≥ Map.get c.sent (sentKey k.phase dest) 0 ∧ !faultsOut s core then
      let c' := { c with closing := c.closing.map (fun j => if j = k then { j with dests := j.dests.filter (· ≠ dest) } else j)
                         sent := Map.erase c.sent (sentKey k.phase dest) }
      (clearArrived s dest core k.phase).setCore core c'
    else s

/-- Whether an answer is due. -/
def answerDue (s : State) (core : Nat) : Option Nat :=
  let c := s.core core
  if faultsOut s core then none
  else (c.closing.flatMap (fun k => (k.dests.filter (fun d => decide (arrivedAt s d core k.phase ≥ Map.get c.sent (sentKey k.phase d) 0))))).head?

/-- PHASE_COMPLETE (R101): a closing phase with every answer in is over. -/
def completePhase (s : State) (core : Nat) : State :=
  let c := s.core core
  match c.closing.find? (fun k => k.dests.isEmpty) with
  | none => s
  | some k => s.setCore core { c with closing := c.closing.erase k }

/-! ## Injection and rate limiters (R357) -/

/-- Whether a bucket of a bolt lets a held request of a class go (R357). -/
def rateFree (s : State) (bolt : Nat) (cls : BitVec 2) : Bool :=
  decide (Map.get (s.bolt bolt).bucket cls.toNat 0 > 0) || !(Map.get (s.bolt bolt).rate cls.toNat 0#64).getLsbD 63

/-- RATE_RELEASE (R357): the first held request of a class enters once its bucket is positive. -/
def rateRelease (s : State) (cl : Nat) (cls : BitVec 2) : State :=
  let c := s.cluster cl
  match c.rated.find? (fun r => decide (r.cls = cls) && rateFree s r.bolt cls) with
  | none => s
  | some r =>
    (s.setBolt r.bolt (charge (s.bolt r.bolt) cls.toNat (reqCharge r))).setCluster cl { c with rated := c.rated.erase r, ni := c.ni ++ [r] }

/-- The places left in the injection queue of a network interface, of class 0 or of the other classes (R88, R357).
(assumption 61, DESIGN CHOICE) -/
def niRoom (s : State) (cl : Nat) (cls : BitVec 2) : Nat :=
  let c := s.cluster cl
  Config.injectionPlaces - ((c.ni ++ c.rated).filter (fun r => decide ((r.cls = 0) = (cls = 0)))).length

/-- Whether the current thread can send `n` requests now: places in the injection queue of its network interface (R357), and a phase
whose counts take its writes (R103). (assumption 61, DESIGN CHOICE) -/
def sendRoom (s : State) (n : Nat) (isWrite : Bool) : Res Unit :=
  if niRoom s s.curCluster s.t.qclass < n then waitR .place
  else if isWrite && phaseFull s.c n then waitR .place
  else .ok ()

/-- A request of the current thread for one line part: built, counted when it is a write, injected. -/
def sendPart (s : State) (va n off : Nat) (pol : BitVec 32) (op : ReqOp) (isWrite : Bool) : State :=
  let t := s.t
  let d := destOf s t.bolt s.curCore va
  let c := if isWrite then countSent s.c d else s.c
  let r : Req := { tid := s.cur, bolt := t.bolt, cls := t.qclass, phase := if isWrite then c.phase else s.c.phase, va := va, n := n, off := off,
                   pol := pol, op := op, mode := t.mode, dest := d, acc := s.accs, no := s.pkts, core := s.curCore }
  inject { s.setC c with pkts := s.pkts + 1 } r

/-- A posted store of `n` bytes at `va`, its line parts separate writes (R108, R110). -/
def postStore (s : State) (va n : Nat) (data : Nat) (tag : Bool) (pol : BitVec 32) : State :=
  (lineParts va n).foldl (fun s p =>
    sendPart s p.1 p.2 (p.1 - va) pol (.store (BitVec.ofNat 512 (data / 2 ^ (8 * (p.1 - va)) % 2 ^ (8 * p.2))) (tag && decide (p.2 = 16))) true) s

/-- The parts of a load sent out. -/
def sendLoad (s : State) (va n : Nat) (lc : Bool) (pol : BitVec 32) : State :=
  (lineParts va n).foldl (fun s p => sendPart s p.1 p.2 (p.1 - va) pol (.load (lc && decide (p.2 = 16))) false) s

/-! ## Channels and bridge (R86 to R89) -/

/-- The die a destination lies on. -/
def dieOfDest (d : Nat) : Nat := if d < 128 then dieOfSlice d else dieOfCluster (d - 128)

/-- A request that enters a home's queue, with its number in the order of arrival; class 0 keeps its own queue (R88). -/
def arriveAt (s : State) (h : Nat) (r : Req) : State :=
  let x := s.slice h
  let r := { r with at_ := s.pkts }
  { s with pkts := s.pkts + 1 }.setSlice h (if r.cls = 0 then { x with chan0 := x.chan0 ++ [r] } else { x with chan := x.chan ++ [r] })

/-- A packet written by a writer to its home channel. -/
def deliver (s : State) (src : Nat) (r : Req) : State :=
  if r.dest < 128 then arriveAt s r.dest r
  else
    let c := s.cluster (r.dest - 128)
    { s with pkts := s.pkts + 1 }.setCluster (r.dest - 128) { c with win := c.win ++ [{ r with at_ := s.pkts, src := src }] }

/-- The writer of a channel that stands for the die bridge (R86). -/
def bridgeWriter : Nat := 2 ^ 50

/-- A packet written to the channel of its home or cluster by a writer, numbered in the order of sending (R86, R87). -/
def writeChannel (s : State) (src : Nat) (p : Packet) : State :=
  match p with
  | .request r => deliver s src r
  | .reply y => { s with replies := s.replies ++ [{ y with src := src, no := s.pkts }], pkts := s.pkts + 1 }
  | .fault f => { s with storeFaults := s.storeFaults ++ [{ f with src := src, no := s.pkts }], pkts := s.pkts + 1 }

/-- The cluster or port to which an answer goes: its thread's, or that of the agent's place. -/
def Reply.port (y : Reply) : Nat := if y.agent.isSome then clusterOf y.core else clusterOf (coreOf y.tid)

/-- Thread and class of a packet, and the die it goes to. -/
def Packet.tid : Packet → Nat
  | .request r => r.tid | .reply y => y.tid | .fault f => f.tid
def Packet.cls : Packet → BitVec 2
  | .request r => r.cls | .reply y => y.cls | .fault f => f.cls
def Packet.die : Packet → Nat
  | .request r => dieOfDest r.dest | .reply y => dieOfCluster y.port | .fault f => dieOfCluster (clusterOf (coreOf f.tid))

/-- Whether a request is a write of its line. -/
def Req.writes (r : Req) : Bool := match r.op with | .store _ _ => true | .atom _ _ _ _ _ => true | _ => false

/-- Whether a granted matrix request of a write's thread came after it: the granted request completes at a press, and what it then reads is
to show the write (R229, R241, R346). (assumption 42, DESIGN CHOICE) -/
def Req.owed (s : State) (r : Req) : Bool :=
  r.writes && r.agent.isNone &&
  match (s.core (coreOf r.tid)).mq with
  | q :: _ => decide (q.grant ≠ 0) && decide (q.tid = r.tid) && decide (r.acc ≤ q.seq.id)
  | [] => false

/-- Whether a request goes on although its bolt is pressed: of an accepted request of the Sorter or of a granted matrix request, or a write
that such a one waits for (R241, R265, R346). -/
def Req.goesOn (s : State) (r : Req) : Bool := r.agent.any (·.free) || r.owed s

/-- Whether a press holds a request, or an answer. -/
def Req.held (s : State) (r : Req) : Bool := halted s r.bolt r.tid && !r.goesOn s
def Reply.held (s : State) (y : Reply) : Bool :=
  !y.agent.any (·.free) && halted s (match y.agent with | some a => a.bolt | none => (s.thread y.tid).bolt) y.tid
def Packet.held (s : State) : Packet → Bool
  | .request r => r.held s | .reply y => y.held s | .fault f => halted s (s.thread f.tid).bolt f.tid

/-- A packet leaves a unit of a die: to a channel of the die, or to the bridge when it goes to the other (R89). -/
def sendPacket (s : State) (die src : Nat) (p : Packet) : State :=
  if p.die = die then writeChannel s src p
  else s.setDie p.die { s.die p.die with bridge := (s.die p.die).bridge ++ [p] }

/-- Whether a packet on a cluster's channel is not the next that its writer sent there on its wavelengths (R87, R88): an answer, a store
fault or a window request for cluster `cl` of the same writer has a smaller number, and no press has swept it away. -/
def behind (s : State) (cl src no : Nat) (cls : BitVec 2) : Bool :=
  let first := fun (s' n : Nat) (c : BitVec 2) => decide (s' = src) && decide (n < no) && decide ((c = 0) = (cls = 0))
  s.replies.any (fun y => decide (y.port = cl) && first y.src y.no y.cls && !y.held s) ||
  s.storeFaults.any (fun f => decide (clusterOf (coreOf f.tid) = cl) && first f.src f.no f.cls && !halted s (s.thread f.tid).bolt f.tid) ||
  (s.cluster cl).win.any (fun r => first r.src r.at_ r.cls && !r.held s)

/-- Whether a request goes to a window whose block waits in reserved memory: its network interface holds it (R81, R349). -/
def windowHeld (r : Req) : Bool := decide (r.dest ≥ 128) && inReserve (r.dest - 128)

/-- CHANNEL_PACKET_SEND (R87, R89): a cluster's network interface, holding the token of its class-0 or of its other wavelengths, sends
its oldest packet there to the home's channel, or to the bridge when the home lies on the other die. -/
def packetSend (s : State) (cl : Nat) (zero : Bool) : State :=
  let c := s.cluster cl
  match c.ni.find? (fun r => !r.held s && !windowHeld r && decide ((r.cls = 0) = zero)) with
  | none => s
  | some r => sendPacket (s.setCluster cl { c with ni := c.ni.erase r }) (dieOfCluster cl) (128 + cl) (.request r)

/-- BRIDGE_FORWARD (R89): the far bridge port writes the oldest packet that crosses, of class 0 or of the other classes, to the
channel it is for. -/
def bridgeForward (s : State) (d : Nat) (zero : Bool) : State :=
  match (s.die d).bridge.find? (fun p => !p.held s && decide ((p.cls = 0) = zero)) with
  | none => s
  | some p => writeChannel (s.setDie d { s.die d with bridge := (s.die d).bridge.erase p }) bridgeWriter p

/-! ## Homes (R92, R281, R282) -/

/-- Where the numbers of peer modules begin, among those of the cores that make requests. (assumption 65, DESIGN CHOICE) -/
def firstPeer : Nat := 2 ^ 20

/-- The die of an agent that makes a request: a mesh core's or a system core's; a peer module has none here.
(assumption 65, DESIGN CHOICE) -/
def agentDie (core : Nat) : Option Nat := if core < firstPeer ∨ core ≥ 2 ^ 24 then some (dieOf core) else none

/-- Whether a request is a peer module's. -/
def Req.peer (r : Req) : Bool := (agentDie r.core).isNone

/-- The scope a pin of cluster `pc` must have to serve a requester of another cluster (R271, R282). -/
def requesterScope (core pc : Nat) : Nat :=
  match agentDie core with
  | some d => if d = dieOfCluster pc then 3 else 4
  | none => 5

/-- Whether a line of a slice is pinned away from a requester (R282). -/
def pinnedFrom (sl : Slice) (bolt line core : Nat) : Bool :=
  match findWay sl bolt line with
  | some (_, l) => (match l.pin with
    | some p => decide (p.cluster ≠ clusterOf core) && decide (p.scope < requesterScope core p.cluster)
    | none => false)
  | none => false

/-- The bolt and line that an address of a bolt names on a core; a system core's is the one under which its physical address is claimed.
(assumption 78, DESIGN CHOICE) -/
def lineAt (s : State) (bolt core va : Nat) : Nat × Nat :=
  if byRolnis bolt core then
    let pa := (systemPa s va).getD va
    match claimedAs s pa with
    | some (b, v) => (b, v / 64)
    | none => (0, pa / 64)
  else (bolt, va / 64)

/-- The bolt and line a request is for. (assumption 78, DESIGN CHOICE) -/
def lineOf (s : State) (r : Req) : Nat × Nat := lineAt s r.bolt r.core r.va

/-- Whether two requests are of one line of a bolt. -/
def sameLine (s : State) (x y : Req) : Bool := decide (lineOf s x = lineOf s y)

/-- Whether a press holds a request at a home: its own bolt's, or that of the memory it names (R347). -/
def heldHome (s : State) (r : Req) : Bool := r.held s || (byRolnis r.bolt r.core && (s.bolt (lineOf s r).1).pressed)

/-- Whether a press holds a core of a bolt: the bolt is pressed, or all the threads there are (R346). -/
def corePressed (s : State) (bolt core : Nat) : Bool :=
  (s.bolt bolt).pressed || (!(residents s core).isEmpty && (residents s core).all (fun t => decide ((s.thread t).occ = .pressed)))

/-- Whether a request that goes on under a press does not wait for the pin of a line: the pinning core is pressed, and a recall would be
acted on at resume only (R347), while the request completes before that (R241, R265). (assumption 42, DESIGN CHOICE) -/
def passesPin (s : State) (h : Nat) (r : Req) : Bool :=
  r.goesOn s &&
  match findWay (s.slice h) (lineOf s r).1 (lineOf s r).2 with
  | some (_, l) => l.pin.any (fun p => corePressed s l.bolt p.core)
  | none => false

/-- Whether a home may serve a request now: the line is not pinned away from its requester, and no earlier request of its
cluster for the line is recorded, but those that a press holds (R282, R347). (assumption 55, DEDUCED) -/
def mayServe (s : State) (h : Nat) (before : List Req) (r : Req) : Bool :=
  !before.any (fun x => sameLine s x r && decide (x.cluster = r.cluster) && !heldHome s x) &&
  (passesPin s h r || !pinnedFrom (s.slice h) (lineOf s r).1 (lineOf s r).2 r.core)

/-- The first recorded request of those selected that may be served in its recorded turn (R282). (assumption 55, DEDUCED) -/
def firstServable (s : State) (h : Nat) (f : Req → Bool) : List Req → List Req → Option Req
  | _, [] => none
  | before, r :: rest => if f r && !heldHome s r && mayServe s h before r then some r else firstServable s h f (before ++ [r]) rest

/-- The recorded request that comes before a request for its line (R282): the homes serve what they refused, in order, where they now
may. (assumption 55, DEDUCED) -/
def recordedFirst (s : State) (h : Nat) (r : Req) : Option Req := firstServable s h (fun x => sameLine s x r) [] (s.slice h).refused

/-- Whether an access pins its line (R281); a system core is of no cluster, for which it could. -/
def pinsLine (r : Req) : Bool :=
  !byRolnis r.bolt r.core && decide (polOrd r.pol ≠ 0) && decide (polScope r.pol ≤ 2) && decide (regionOf r.va = .ordinary) &&
  match r.op with
  | .atom _ _ _ _ _ => true
  | .store _ _ => decide (polOrd r.pol ≥ 2)
  | _ => false

/-- The pin set by an access that its home performed, unless the line is pinned or a requester is recorded for it, or it
could not be installed (R281, R282). (assumption 97, DESIGN CHOICE) -/
def setPin (s : State) (h : Nat) (r : Req) : State :=
  let sl := s.slice h
  if !pinsLine r || sl.refused.any (fun x => sameLine s x r) then s
  else match findWay sl r.bolt (r.va / 64) with
    | none => s
    | some (k, l) =>
      if l.pin.isSome then s
      else s.setSlice h { sl with ways := Map.set sl.ways k { l with pin := some { cluster := r.cluster, core := r.core, tick := s.gtime, scope := 2, no := r.no } } }

/-- Who makes a request. -/
def reqWho (r : Req) : Who :=
  let w : Who := { bolt := r.bolt, cluster := r.cluster, core := r.core, mode := r.mode, requester := r.core, pol := r.pol, cls := r.cls, pins := pinsLine r }
  match r.agent with
  | some a => { w with cluster := a.cluster, requester := a.requester, free := a.free }
  | none => w

/-- A reply leaves the destination of its request, charged to the bolt that made it (R89, R357); a peer module's goes out by the fabric
links, with its fault if there is one (R82). -/
def sendReply (s : State) (r : Req) (y : Reply) : State :=
  if r.peer then { s with peerReplies := s.peerReplies ++ [{ y with acc := r.acc, cls := r.cls }] }
  else sendPacket (s.setBolt r.bolt (charge (s.bolt r.bolt) r.cls.toNat (16 + y.bytes.length))) (dieOfDest r.dest) r.dest
    (.reply { y with acc := r.acc, cls := r.cls, agent := r.agent, core := r.core })

/-- Whether every access of a requester is answered, a write as well, and none counted in a core's phases (R100): a peer module's, an
agent's. -/
def Req.answered (r : Req) : Bool := r.peer || r.agent.isSome

/-- The fault of a posted write leaves its destination (R102). -/
def sendFault (s : State) (r : Req) (c : Cause) (tv : W64) : State :=
  if r.answered then sendReply s r { tid := r.tid, off := r.off, bytes := [], fault := some (c, tv) }
  else sendPacket s (dieOfDest r.dest) r.dest (.fault { tid := r.tid, cause := c, tval := tv, cls := r.cls })

/-- Whether a write of a line part would be translated and permitted at its home, a claim made as the write makes it (R78, R264). -/
def probeWrite (s : State) (h : Nat) (w : Who) (va n : Nat) : Except (Cause × W64) State :=
  match regionOf va with
  | .reserved => .error (.page, pageTval 0 5 va)
  | .fabric => (fabricPart s w va n .wr).map (·.1)
  | .window => (windowPart s w va n .wr (fun _ => none)).map (·.1)
  | .ordinary => (translate s w.bolt h va .wr).map (·.1)

/-- What PREF names at its home (R116): the translated line as the slice that serves it holds it, bolt, address and physical address, with
NC of its page; none where it cannot be translated, or where a system core's address is claimed by no bolt, whose line no slice caches.
(assumption 86, DEDUCED) -/
def prefTarget (s : State) (h : Nat) (r : Req) : Option (State × Nat × Nat × Nat × Bool) :=
  if regionOf r.va ≠ .ordinary then none
  else if byRolnis r.bolt r.core then
    match systemTranslate s r.va .rd with
    | .error _ => none
    | .ok pa => (claimedAs s pa).map (fun x => (s, x.1, x.2, pa, false))
  else match translate s r.bolt h r.va .rd with
    | .error _ => none
    | .ok (s1, pa, leaf) => some (s1, r.bolt, r.va, pa, bitAt leaf 8)

/-- A request performed at its destination (R92, R100, R102, R104): the reply goes to a waiting thread or agent, a posted write is
counted, its fault sent to the core's store-fault queue. -/
def performReq (s : State) (h : Nat) (r : Req) : State :=
  let w := reqWho r
  let reply := fun (s : State) (y : Reply) => sendReply s r y
  let counted := fun (s : State) => if r.answered then s else countArrived s r.dest r.core r.phase.toNat
  match r.op with
  | .probe => match probeWrite s h w r.va r.n with
    | .error e => reply s { tid := r.tid, off := r.off, bytes := [], fault := some e }
    | .ok s1 => reply s1 { tid := r.tid, off := r.off, bytes := [] }
  | .load lc =>
    match globalPartAt s h w r.va r.n .rd (fun _ => none) with
    | .error e => reply s { tid := r.tid, off := r.off, bytes := [], fault := some e }
    | .ok (s1, v, tg) => reply s1 { tid := r.tid, off := r.off, bytes := natToBytes r.n v, tag := lc && tg }
  | .store data tag =>
    match globalPartAt s h w r.va r.n .wr (fun _ => some (data.toNat, tag)) with
    | .error (c, tv) => counted (sendFault s r c tv)
    | .ok (s1, _, _) => (fun s => if r.answered then reply s { tid := r.tid, off := r.off, bytes := [] } else s) (setPin (counted s1) h r)
  | .atom op wd opnd cmp rep =>
    match globalPartAt s h w r.va r.n .atom (fun old => (atomWrite op wd opnd.toNat cmp.toNat old).map (fun v => (v, false))) with
    | .error (c, tv) =>
      if rep then reply (counted s) { tid := r.tid, off := r.off, bytes := [], fault := some (c, tv) }
      else counted (sendFault s r c tv)
    | .ok (s1, old, _) =>
      let s2 := setPin (counted s1) h r
      if rep then reply s2 { tid := r.tid, off := r.off, bytes := natToBytes r.n old } else s2
  | .pref stage =>
    match prefTarget s h r with
    | none => s
    | some (s1, b, va, pa, nc) =>
      if stage then
        let (d, tg) := newest s1 h b (va / 64) pa
        let e : Staged := { kind := 2, bolt := b, line := va / 64, pa := pa / 64 * 64, data := BitVec.ofNat 512 d, tags := tg, core := r.core }
        -- a line the core has staged already needs no other entry
        if (s1.slice h).staging.any (fun x => decide (x.kind = 2) && decide (x.bolt = e.bolt) && decide (x.line = e.line) && decide (x.core = e.core)) then s1
        else
          let s2 := stagingRoom s1 h
          s2.setSlice h { s2.slice h with staging := (s2.slice h).staging ++ [e] }
      else prefetchLine s1 h { w with bolt := b, requester := otherRequester } (va / 64) pa nc

/-- Where a request that stands at slice `h` belongs during a rehash (R351): here, at the new home to which its line has moved, or
held here until its line arrives. -/
inductive Place where
  | here | moved (n : Nat) | shadowed
  deriving DecidableEq, Repr

/-- The place of a request at a slice (R351). -/
def placeOf (s : State) (h : Nat) (r : Req) : Place :=
  let b := s.bolt r.bolt
  if b.oldSlices.isEmpty ∨ regionOf r.va ≠ .ordinary ∨ byRolnis r.bolt r.core then .here
  else
    let rec_ := recordHome s r.bolt r.va
    if rec_ = h then .here
    else if homeSlice s r.bolt r.va = h then .shadowed
    else if homeSlice s r.bolt r.va = rec_ then .moved rec_ else .here

/-- How often a class has been passed over by higher ones since its oldest request was served (R355). -/
def skips (sl : Slice) (k : Nat) : Nat := Map.get sl.skipped k 0

/-- The class a slice serves next among those with a request it may take: class 0; a class that 64 requests of higher classes would
else pass; the highest (R88, R355). (assumption 66, DEDUCED) -/
def nextClass (sl : Slice) (waiting : Nat → Bool) : Option Nat :=
  classTurn sl.skipped waiting

/-- The classes passed over when class `k` is served. -/
def passClasses (sl : Slice) (k : Nat) (waiting : Nat → Bool) : Slice :=
  { sl with skipped := classPassed sl.skipped k waiting }

/-- The request a slice takes next: the oldest of the class it serves, or the one for the same line that arrived before it, for the
requests for one line are performed in the order they arrive, whatever their classes (R92). -/
def nextRequest (s : State) (h : Nat) : Option (Req × Nat) :=
  let sl := s.slice h
  let all := (sl.chan0 ++ sl.chan).filter (fun r => !heldHome s r)
  match nextClass sl (fun k => all.any (fun r => decide (r.cls.toNat = k))) with
  | none => none
  | some k => match all.find? (fun r => decide (r.cls.toNat = k)) with
    | none => none
    | some r => some ((all.filter (fun x => sameLine s x r)).foldl (fun a x => if x.at_ < a.at_ then x else a) r, k)

/-- HOME_REQUEST (R88, R92): the slice takes its next request, and performs it, refuses it with RETRY, forwards it to the line's new
home or holds it for a shadow fetch. A recorded request of the line that may now be served goes before it (R282).
(assumption 55, DEDUCED) -/
def homeRequest (s : State) (h : Nat) : State :=
  match nextRequest s h with
  | none => s
  | some (r, k) =>
    let sl := s.slice h
    let waiting := fun (j : Nat) => (sl.chan.erase r).any (fun x => decide (x.cls.toNat = j))
    let sl' := passClasses { sl with chan0 := sl.chan0.erase r, chan := sl.chan.erase r } k waiting
    let s1 := s.setSlice h sl'
    match placeOf s1 h r with
      | .moved n => arriveAt s1 n r
      | .shadowed => s1.setSlice h { sl' with heldReqs := sl'.heldReqs ++ [r] }
      | .here =>
        match recordedFirst s h r with
        | some x => performReq (s.setSlice h { sl with refused := sl.refused.erase x }) h x
        | none =>
          if mayServe s1 h sl.refused r then performReq s1 h r
          else
            let s2 := s1.setSlice h { sl' with refused := sl'.refused ++ [r] }
            if r.peer then s2 else countEvent s2 r.tid 15 1

/-- RETRY_REISSUE (R282): the first recorded request that may now be served is performed, in recorded order. (assumption 55, DEDUCED) -/
def retryReissue (s : State) (h : Nat) : State :=
  let sl := s.slice h
  match firstServable s h (fun _ => true) [] sl.refused with
  | none => s
  | some r => performReq (s.setSlice h { sl with refused := sl.refused.erase r }) h r

/-- LOCAL_WINDOW_ACCESS (R80): the target cluster's network interface checks and performs its oldest access that its writer's order lets
be read (R87), of class 0 or of the other classes. -/
def localWindowAccess (s : State) (cl : Nat) (zero : Bool) : State :=
  let c := s.cluster cl
  match c.win.find? (fun r => !r.held s && decide ((r.cls = 0) = zero) && !behind s cl r.src r.at_ r.cls) with
  | none => s
  | some r => performReq (s.setCluster cl { c with win := c.win.erase r }) 0 r

/-! ## What is on the way -/

/-- Whether a request anywhere between its network interface and its home, or one a home holds, is as `f` says. (assumption 43, DEDUCED) -/
def onTheWay (s : State) (f : Req → Bool) : Bool :=
  s.clusters.any (fun c => c.2.ni.any f || c.2.rated.any f || c.2.win.any f) ||
  s.dies.any (fun d => d.2.bridge.any (fun p => match p with | .request r => f r | _ => false)) ||
  s.slices.any (fun h => h.2.chan.any f || h.2.chan0.any f || h.2.refused.any f || h.2.heldReqs.any f) ||
  s.bolts.any (fun b => b.2.swept.any f) || s.parked.any (fun p => p.image.ni.any f || p.image.rated.any f || p.image.win.any f)

/-! ## Global accesses of agents (R89, R92, R282, R357) -/

/-- The line parts of an access that go out next: of a read as many as the network interface takes; of a write or a probe the next, once
those before it are answered; none after a fault (R72, R108). -/
def nextParts (s : State) (w : Who) (p : Pull) : List (Nat × Nat) :=
  let left := (lineParts p.va p.n).drop p.sent
  let room := niRoom s (clusterOf w.core) w.cls
  if p.fault.isSome then []
  else if p.data.isSome || p.probe then (if p.sent = p.got then left.take (min 1 room) else [])
  else left.take room

/-- The request of one line part of an agent's access. -/
def partReq (s : State) (key : Nat) (w : Who) (tid : Nat) (p : Pull) (x : Nat × Nat) : Req :=
  { tid := tid, bolt := w.bolt, cls := w.cls, phase := 0, va := x.1, n := x.2, off := x.1 - p.va, pol := w.pol, mode := w.mode
    op := if p.probe then .probe else match p.data with
      | some bs => .store (BitVec.ofNat 512 (bytesToNat ((bs.drop (x.1 - p.va)).take x.2))) false
      | none => .load true
    dest := match regionOf x.1 with
      | .window => if destOf s w.bolt w.core x.1 = 128 + clusterOf w.core then 128 + w.cluster else destOf s w.bolt w.core x.1
      | _ => destOf s w.bolt w.core x.1
    acc := p.acc, core := w.core
    agent := some { bolt := w.bolt, key := key, requester := w.requester, cluster := w.cluster, free := w.free } }

/-- Whether every answer of an access is in: of one that met a fault, those of the parts that were sent. -/
def Pull.over (p : Pull) : Bool := if p.fault.isSome then decide (p.got = p.sent) else decide (p.got = (lineParts p.va p.n).length)

/-- How an agent's access ends otherwise than done: it waits, with what it asks for next; or its first failing part ends it, with the
bytes before it and the fault (R72). -/
inductive PullEnd where
  | wait (a : Option Ask)
  | fault (done : Nat) (c : Cause) (tval : W64)
  deriving DecidableEq, Repr

/-- The bytes that a read has brought. -/
def Pull.data_ (p : Pull) : List (BitVec 8) := (List.range p.n).map (fun i => Map.get p.bytes i 0)

/-- A GLOBAL ACCESS OF AN AGENT: its parts go as requests to their homes and come back as answers (R89). The agent performs what it does
from the start at every attempt, and here finds the next of the answers that its list under `key` holds, or what it asks for next; what
it has used is marked in the state that it carries on, so that an attempt that must wait leaves the list as it was. (assumption 67, DESIGN CHOICE) -/
def pull (s : State) (key stamp : Nat) (w : Who) (tid va n : Nat) (data : Option (List (BitVec 8))) (probe : Bool) :
    Except (Option Ask) (State × Pull) :=
  let b := s.bolt w.bolt
  let l := Map.get b.pulls key []
  let k := (l.takeWhile (·.used)).length
  let new : Pull := { va := va, n := n, data := data, probe := probe, stamp := stamp, acc := s.accs }
  let p := match l[k]? with
    | some p => if p.va = va ∧ p.n = n ∧ p.data.isSome = data.isSome ∧ p.probe = probe ∧ p.stamp = stamp then p else new
    | none => new
  if p.over then
    .ok (s.setBolt w.bolt { b with pulls := Map.set b.pulls key (l.take k ++ { p with used := true } :: l.drop (k + 1)) }, p)
  else
    let out := nextParts s w p
    if out.isEmpty then .error none
    else .error (some { bolt := w.bolt, key := key, keep := k, pull := { p with sent := p.sent + out.length },
                        reqs := out.map (partReq s key w tid p) })

/-- An access that has met no fault; the first failing part of another ends it. -/
def pulled : Except (Option Ask) (State × Pull) → Except PullEnd (State × Pull)
  | .error a => .error (.wait a)
  | .ok (s, p) => match p.fault with
    | some (o, c, tv) => .error (.fault o c tv)
    | none => .ok (s, p)

/-- A read by an agent. -/
def pullRead (s : State) (key stamp : Nat) (w : Who) (tid va n : Nat) : Except PullEnd (State × List (BitVec 8)) :=
  (pulled (pull s key stamp w tid va n none false)).map (fun x => (x.1, x.2.data_))

/-- A write by an agent. -/
def pullWrite (s : State) (key : Nat) (w : Who) (tid va : Nat) (bs : List (BitVec 8)) : Except PullEnd State :=
  (pulled (pull s key 0 w tid va bs.length (some bs) false)).map (·.1)

/-- Whether a write by an agent would be translated (R264). -/
def pullProbe (s : State) (key : Nat) (w : Who) (tid va n : Nat) : Except PullEnd State :=
  (pulled (pull s key 0 w tid va n none true)).map (·.1)

/-- What an agent that waits asks for goes out. -/
def askFor (s : State) (a : Option Ask) : State := match a with | some x => sendAsk s x | none => s

/-- An agent has performed what it does: its answers go. -/
def endPulls (s : State) (bolt key : Nat) : State :=
  let b := s.bolt bolt
  if (Map.find b.pulls key).isSome then s.setBolt bolt { b with pulls := Map.erase b.pulls key } else s

/-- An answer for an agent: one of an access given up is discarded; the fault of the lowest failing part counts (R72). -/
def answerPull (s : State) (a : Agent) (y : Reply) : State :=
  let b := s.bolt a.bolt
  match Map.find b.pulls a.key with
  | none => s
  | some l =>
    let low := fun (f : Option (Nat × Cause × W64)) => match y.fault with
      | none => f
      | some e => match f with
        | some x => if x.1 ≤ y.off then f else some (y.off, e)
        | none => some (y.off, e)
    s.setBolt a.bolt { b with pulls := Map.set b.pulls a.key (l.map (fun p => if p.acc ≠ y.acc then p else
      { p with got := p.got + 1, tag := p.tag || y.tag, fault := low p.fault
               bytes := (List.range y.bytes.length).foldl (fun m i => Map.set m (y.off + i) (y.bytes.getD i 0)) p.bytes })) }

/-- The lists of a bolt's agents: a thread's reads for its instruction and the elements of its streams by register; a command; a launch;
a gather of a group; the reply of a thread's HCALL. -/
def threadKey (tid r : Nat) : Nat := tid * 64 + r
def commandKey (q : SeqNo) : Nat := 2 ^ 60 + q.id
def launchKey (k : Nat) : Nat := 2 ^ 61 + k
def gatherKey (group tid : Nat) : Nat := 2 ^ 62 + tid * 256 + group
def hcallKey (tid : Nat) : Nat := 2 ^ 63 + tid

/-- The core number that stands for an agent of a die that belongs to no cluster, the Sorter or system software; its requests enter by a
port of their own. (assumption 65, DESIGN CHOICE) -/
def dieAgent (die : Nat) : Nat := 4096 + 1024 * die

/-- PIN_RECALL (R282): 4,358 ticks after it began, a pin is recalled; the pinning core closes its phase with no thread
waiting. (assumption 55, DEDUCED) -/
def pinRecall (s : State) (h line : Nat) : State :=
  let sl := s.slice h
  match sl.ways.find? (fun p => decide (p.2.line = line) && p.2.pin.isSome) with
  | none => s
  | some (k, l) =>
    match l.pin with
    | none => s
    | some p =>
      if p.recalled ∨ s.gtime < p.tick + 4358 ∨ corePressed s l.bolt p.core then s
      else match closePhase (s.core p.core) [(l.bolt, line)] with
        | none => s
        | some c => (s.setSlice h { sl with ways := Map.set sl.ways k { l with pin := some { p with recalled := true } } }).setCore p.core c

/-- The core of a bolt, where it is parked too (R358). -/
def coreOfBolt (s : State) (bolt core : Nat) : Core :=
  match s.parked.find? (fun p => decide (p.bolt = bolt) && decide (p.cluster = clusterOf core)) with
  | some p => Map.get p.cores core {}
  | none => s.core core

/-- PIN_END (R282): when the recalled close has completed, the pin ends. -/
def pinEnd (s : State) (h line : Nat) : State :=
  let sl := s.slice h
  match sl.ways.find? (fun p => decide (p.2.line = line) && p.2.pin.isSome) with
  | none => s
  | some (k, l) =>
    match l.pin with
    | none => s
    | some p =>
      if p.recalled ∧ !(coreOfBolt s l.bolt p.core).closing.any (fun x => x.pins.contains (l.bolt, line)) then
        s.setSlice h { sl with ways := Map.set sl.ways k { l with pin := none } }
      else s

/-- A completed release at scope `sc` widens the pins of its core that accesses issued before the release made, of the bolt that has the
core now; one widened to system ends (R282, R358). -/
def widenPins (s : State) (core sc upTo : Nat) : State :=
  { s with slices := s.slices.map (fun p => (p.1, { p.2 with ways := p.2.ways.map (fun w =>
      (w.1, match w.2.pin with
        | some x => if x.core = core ∧ x.no < upTo ∧ (s.cluster (clusterOf core)).owner = .bolt w.2.bolt then { w.2 with pin := if sc ≥ 5 then none else some { x with scope := max x.scope sc } } else w.2
        | none => w.2)) })) }

/-- STORE_FAULT_ARRIVAL (R332): a fault on its way enters its core's queue, or sets its thread's lost bit when sixteen are
there. (assumption 100, DESIGN CHOICE) -/
def storeFaultArrival (s : State) (n : Nat) : State :=
  match s.storeFaults[n]? with
  | none => s
  | some f =>
    if behind s (clusterOf (coreOf f.tid)) f.src f.no f.cls then s else
    let s1 := { s with storeFaults := s.storeFaults.eraseIdx n }
    let c := s1.core (coreOf f.tid)
    let t := s1.thread f.tid
    if t.occ = .empty then s1
    else if t.occ = .evicted ∨ t.occ = .pressed then
      -- a saved context keeps its faults, which fill no queue (R332)
      (if t.savedFaults.length < 16 then s1.setThread f.tid { t with savedFaults := t.savedFaults ++ [f] } else s1.setThread f.tid { t with lost := true })
    else if c.sfq.length < 16 then s1.setCore (coreOf f.tid) { c with sfq := c.sfq ++ [f] }
    else s1.setThread f.tid { s1.thread f.tid with lost := true }

/-! ## The release of a thread (R276 to R279) -/

/-- Whether every earlier read of a thread has been performed: its local loads and the words of its gathers; a global load
blocks its thread until it is answered (R270, R276). -/
def readsDone (s : State) (tid : Nat) : Bool :=
  let c := s.cluster (clusterOf (coreOf tid))
  !c.lq.any (fun r => decide (r.tid = tid) && !r.store) && !c.gq.any (fun r => decide (r.tid = tid))

/-- Whether every earlier read and every earlier local write of a thread has been performed (R276). -/
def localsDone (s : State) (tid : Nat) : Bool :=
  readsDone s tid && !(s.cluster (clusterOf (coreOf tid))).lq.any (fun r => decide (r.tid = tid))

/-- Whether nothing is under way of what a thread asked for beside its own accesses: its commands to the engines, and the elements of its
streams (R138, R171). -/
def agentsDone (s : State) (tid : Nat) : Bool :=
  !(s.thread tid).cmds.any (fun c => decide (c.2.2 = 2)) &&
  !(s.bolt (s.thread tid).bolt).pulls.any (fun p => decide (p.1 / 64 = tid) && p.2.any (fun x => decide (x.got < x.sent)))

/-- Whether every earlier access of the current thread has been performed: what its core sent has arrived, and its commands and streams
have no access out (R355). (assumption 52, DEDUCED) -/
def accessesDone (s : State) : Bool :=
  localsDone s s.cur && agentsDone s s.cur && s.c.sent.all (fun e => decide (arrivedAt s (e.1 % destSpan) s.curCore (e.1 / destSpan) ≥ e.2))

/-- Whether a cluster is mixed-class: two of its resident threads hold different QCLASS values (R277). -/
def mixedClass (s : State) (cl : Nat) : Bool :=
  let ts := (s.threads.filter (fun p => decide (clusterOf (coreOf p.1) = cl) && decide (p.2.occ = .resident))).map (·.2.qclass)
  match ts with
  | [] => false
  | q :: r => r.any (· ≠ q)

/-- Whether a write of a thread to a local window is still on its way: its next local access, which may name the same bytes,
waits for it (R272), and so does its release at cluster scope, for another thread of the cluster may then read the window by a local
access, which no channel keeps behind the write (R277). (assumption 68, DEDUCED) -/
def windowOut (s : State) (tid : Nat) : Bool :=
  onTheWay s (fun r => r.writes && r.agent.isNone && decide (r.tid = tid) && decide (128 ≤ r.dest))

/-- A release that has not begun waits for the thread's reads and local writes, then closes the phase where its scope asks
for it; the phases to await are left in the thread (stage 1). -/
def releaseBegin (s : State) (sc : Nat) : Res State :=
  let s := s.setT { s.t with relNo := s.pkts }
  if sc = 0 then .ok s
  else if !localsDone s s.cur ∨ (sc ≤ 2 ∧ windowOut s s.cur) then waitR .release
  else if sc ≥ 3 ∨ mixedClass s s.curCluster then
    match closePhase s.c [] with
    | none => waitR .release
    | some c => .ok ((s.setC c).setT { s.t with phases := c.closing.map (·.phase) })
  else .ok s

/-- Whether the phases a release awaits have completed. -/
def releaseDone (s : State) : Bool := !(s.c.closing.any (fun k => s.t.phases.contains k.phase))

/-- A release completed: the pins of the core widen to its scope. -/
def releaseEnd (s : State) (sc : Nat) : State :=
  let s1 := s.setT { s.t with phases := [] }
  if sc = 0 then s1 else widenPins s1 s.curCore sc s.t.relNo

/-- The TRAP of a reporting instruction: STOREFAULT is entered at the instruction (R276, R333). The instruction's own
ordering has taken effect; a seam frays there (R318). (assumption 17, DEDUCED) -/
def storeFaultAt (q : Pre) (s : State) : State :=
  let pc := s.t.pc - BitVec.ofNat 64 (2 * q.parcels)
  takeStoreFault (s.setT { s.t with stage := 0, pc := pc }) s.cur pc

/-- The release part of an instruction `op` (R276, R279, R290, R295): stage 0 begins it, stage 1 waits for its phases, then a
store fault of the thread is reported, else `op` runs. -/
def releasing (q : Pre) (sc : Nat) (reports : Bool) (op : State → Res State) (s : State) : Res State :=
  let finish := fun (s : State) =>
    let s := releaseEnd s sc
    if reports && hasStoreFault s s.cur then .ok (storeFaultAt q s) else op s
  if s.t.stage = 0 then
    match releaseBegin s sc with
    | .error e => .error e
    | .ok s1 => if releaseDone s1 then finish s1 else .ok (stay q .release 1 s1)
  else if s.t.stage = 1 then
    if releaseDone s then finish s else waitR .release
  else op s

/-! ## The event rows -/

/-- Whether a number is a cluster's, or stands for the system-core port of a die (R86) or for that of its other agents.
(assumption 65, DESIGN CHOICE) -/
def hasPort (cl : Nat) : Bool := decide (cl < Config.clusters) || decide (cl ∈ [256, 384, 512, 640])
/-- Whether a number is a core's, of the mesh or a system core's (R2). -/
def hasCore (core : Nat) : Bool := decide (core < 2048) || (isSystem core && decide (core % 1024 < 8))

/-- Whether a number is a thread slot's. -/
def hasThread (tid : Nat) : Bool := decide (tid < 16384) && hasCore (coreOf tid)

/-- CHANNEL_PACKET_SEND (R87). -/
def execChannelPacketSend (from_ : ClassQueue) (s : State) : Step := withUnit (hasPort from_.unit) (packetSend s from_.unit from_.zero)
/-- BRIDGE_FORWARD (R89). -/
def execBridgeForward (to_ : ClassQueue) (s : State) : Step := withUnit (decide (to_.unit < Config.dies)) (bridgeForward s to_.unit to_.zero)
/-- HOME_REQUEST (R92). -/
def execHomeRequest (slice : Nat) (s : State) : Step := withUnit (decide (slice < Config.slices)) (homeRequest s slice)
/-- RETRY_REISSUE (R282). -/
def execRetryReissue (slice : Nat) (s : State) : Step := withUnit (decide (slice < Config.slices)) (retryReissue s slice)
/-- PHASE_ANSWER (R101). -/
def execPhaseAnswer (core dest : Nat) (s : State) : Step := withUnit (hasCore core && decide (dest < 768)) (answerPhase s core dest)
/-- PHASE_COMPLETE (R101). -/
def execPhaseComplete (core : Nat) (s : State) : Step := withUnit (hasCore core) (completePhase s core)
/-- PIN_RECALL (R282). -/
def execPinRecall (slice line : Nat) (s : State) : Step := withUnit (decide (slice < Config.slices)) (pinRecall s slice line)
/-- PIN_END (R282). -/
def execPinEnd (slice line : Nat) (s : State) : Step := withUnit (decide (slice < Config.slices)) (pinEnd s slice line)
/-- LOCAL_WINDOW_ACCESS (R80). -/
def execLocalWindowAccess (at_ : ClassQueue) (s : State) : Step := withUnit (hasPort at_.unit) (localWindowAccess s at_.unit at_.zero)
/-- STORE_FAULT_ARRIVAL (R332). -/
def execStoreFaultArrival (n : Nat) (s : State) : Step := .next (storeFaultArrival s n)
/-- RATE_RELEASE (R357). -/
def execRateRelease (cluster : Nat) (cls : BitVec 2) (s : State) : Step := withUnit (hasPort cluster) (rateRelease s cluster cls)
/-- DRAM_RESPONSE (R67, R98). -/
def execDramResponse (slice i : Nat) (s : State) : Step := withUnit (decide (slice < Config.slices)) (dramResponse s slice i)

end Sys2Proof.Machine
end

