-- ==== Sys2Proof/Machine/Operands.lean ====
section
/-!
DEFINITION. Operand forms: a register read or written, bound or not (R152, R170, R173), the elements of a stream (R169, R171),
register groups and lanes (R200), local-memory requests (R128, R135), extension of a loaded value (R109).
-/
namespace Sys2Proof.Machine

/-- The base parcel of an instruction: the parcel a fault found after decoding names (R62). -/
def baseParcel (i : Instr) : Parcel := (encode i).getLast?.getD 0

/-! ## Widths -/

/-- Bits of a width code 0 to 5 (R47). -/
def widthBits (w : Nat) : Nat := 4 * 2 ^ w
/-- Bytes of a width code 1 to 5. -/
def widthBytes (w : Nat) : Nat := 2 ^ w / 2
/-- The width code of a format code. -/
def codeWidth (f : Code) : Nat := f.toNat % 8
/-- The type code of a format code. -/
def codeType (f : Code) : Nat := f.toNat / 8

/-- A loaded value extended (R109): `n` is the number of bits read. -/
def extend (e : Ext) (n v : Nat) : BitVec 128 :=
  match e with
  | .sx m => (w64 (sext (v % 2 ^ m) m)).setWidth 128
  | .zx => BitVec.ofNat 128 (v % 2 ^ n)
  | .full _ => BitVec.ofNat 128 v
  | .group => BitVec.ofNat 128 v

/-! ## Arrival queues (R172, R173) -/

/-- Places of a core's arrival queue. -/
def portPlaces : Nat := 8

/-- The words of a side's arrival queue that can be popped. -/
def portQueue (c : Core) (side : BitVec 2) : List W64 := Map.get c.ports side.toNat []

/-- Words on their way into a side's queue. -/
def portComing (s : State) (core : Nat) (side : BitVec 2) : Nat :=
  (s.pwords.filter (fun p => decide (p.core = core) && decide (p.side = side))).length

/-- Free places of a side's queue. -/
def portFree (s : State) (core : Nat) (side : BitVec 2) : Nat :=
  portPlaces - ((portQueue (s.core core) side).length + portComing s core side)

/-- A word sets out for a queue (R173). -/
def pushPort (s : State) (core : Nat) (side : BitVec 2) (w : W64) (bolt : Option Nat) (xat : Option (Nat × Nat)) : State :=
  { s with pwords := s.pwords ++ [{ core := core, side := side, word := w, bolt := bolt, xat := xat }] }

/-- The exchange cycle in which the current thread's instruction has issued, with its group, in an exchange phase (R302). -/
def exchangeNow (t : Thread) : Option (Nat × Nat) := t.xphase.bind (fun j => if t.xchg then some (j, t.cnt - t.xcyc) else none)

/-! ## Stream elements (R169, R170) -/

/-- STREAM's TVAL (R170): 0 past the count, 1 wrong direction, 2 group, 3 port already bound. -/
def streamTval (r : Reg) (reason : Nat) : W64 := BitVec.ofNat 64 (r.toNat + reason * 256)

/-- The exact address and the nibble of element `k` of a stream (R7, R169). -/
def elementExact (cap : Val) (stride : Int) (w k : Nat) : Int × Bool :=
  if w = 0 then
    let i : Int := ((2 * capCursor cap : Nat) : Int) + stride * (k : Int)
    (i / 2, decide (i % 2 = 1))
  else (((capCursor cap : Nat) : Int) + stride * (k : Int), false)

/-- The address and nibble of an element whose check BIND has made. -/
def elementAt (cap : Val) (stride : Int) (w k : Nat) : Nat × Bool :=
  let x := elementExact cap stride w k
  (x.1.toNat, x.2)

/-- Bytes an element touches. -/
def elementBytes (w : Nat) : Nat := if w = 0 then 1 else widthBytes w

/-- A local access keeps its place behind the thread's window accesses (R272). -/
def afterWindow (s : State) : Res Unit := if windowOut s s.cur then waitR .place else .ok ()

/-- A global access to a local window keeps its place behind the thread's local accesses (R272). -/
def afterLocal (s : State) (ea n : Nat) : Res Unit :=
  if (regionOf ea = .window ∨ regionOf (ea + n - 1) = .window) ∧ (s.cl.lq.any (fun r => decide (r.tid = s.cur))) then waitR .place else .ok ()

/-- The bytes of a local stream element or of any local access of a thread: through its window (R131). -/
def localBytesOf (s : State) (tid o n : Nat) : Nat × Bool :=
  let cl := clusterOf (coreOf tid)
  let (lb, _, _) := windowOf s tid
  let c := s.cluster cl
  (bytesToNat (Memory.readN c.mem.cells (lb + o) n), decide (n = 16) && decide ((lb + o) % 16 = 0) && c.mem.tagAt (lb + o))

/-- A thread as the requester of a load (R99). -/
def threadWho (s : State) (tid : Nat) (pol : BitVec 32) : Who :=
  { bolt := (s.thread tid).bolt, cluster := clusterOf (coreOf tid), core := coreOf tid, mode := (s.thread tid).mode,
    requester := coreOf tid, pol := pol &&& 0x01FFFFFF#32, cls := (s.thread tid).qclass }

/-- The value of element `k` of a read stream from the bytes at its address (R169). -/
def elementVal (cap : Val) (stride : Int) (w : Nat) (sx : Bool) (k v : Nat) (tag : Bool) : Val :=
  let v := if w = 0 then (if (elementAt cap stride w k).2 then v / 16 % 16 else v % 16) else v
  let e := if w = 5 then Ext.full true else if sx then .sx (widthBits w) else .zx
  { bits := extend e (widthBits w) v, tag := tag && decide (w = 5) && bitAt (capPerm cap) permLC }

/-- Element `k` of the read stream bound to register `r`: a relaxed load (R171). A local one is read as LDL reads, so the protection unit
is asked again (R133). A global one is asked for, and its value joins the fetched elements when it arrives; a translation fault is the
popping instruction's (R72). (assumption 18, DEDUCED) -/
def readElement (s : State) (tid : Nat) (r : Reg) (cap : Val) (stride : Int) (w : Nat) (sx : Bool) (pol : BitVec 32) (k : Nat) : Res (State × Val) :=
  let a := (elementAt cap stride w k).1
  let n := elementBytes w
  if capLoc cap then
    match checkWindow s tid a n true false with
    | .error e => .error e
    | .ok _ =>
    if (s.cluster (clusterOf (coreOf tid))).lq.any (fun r => decide (r.tid = tid) && r.store) || windowOut s tid then waitR .operand
    else
      let (v, tag) := localBytesOf s tid a n
      .ok (s, elementVal cap stride w sx k v tag)
  else
    match pulled (pull s (threadKey tid r.toNat) k (threadWho s tid pol) tid a n none false) with
    | .error (.wait x) => .error (.pull x)
    | .error (.fault _ c tv) => faultR c tv
    | .ok (s1, p) => .ok (s1, elementVal cap stride w sx k (bytesToNat p.data_) p.tag)

/-- A global read that the current thread's instruction makes before it goes on, LAUNCH's of its record, XSEL's of its table: governed by POL
(R93). -/
def threadRead (s : State) (va n : Nat) : Res (State × Pull) :=
  match pulled (pull s (threadKey s.cur 0) s.t.cnt (threadWho s s.cur s.t.pol) s.cur va n none false) with
  | .error (.wait x) => .error (.pull x)
  | .error (.fault _ c tv) => faultR c tv
  | .ok x => .ok x

/-- The instruction has made its reads. -/
def threadReadEnd (s : State) : State := endPulls s s.t.bolt (threadKey s.cur 0)

/-! ## A register read (R152, R170, R173) -/

/-- The binding of a register of the current thread. -/
def bindingOf (s : State) (r : Reg) : Option Binding := Map.find s.t.binds r.toNat

/-- A register read as an operand: a read stream pops its next element, an in port the oldest word. -/
def readReg (s : State) (r : Reg) : Res (State × Val) :=
  match bindingOf s r with
  | none => .ok (s, s.t.reg r)
  | some (.stream true _ _ _ _ _ _ _ _) => faultR .stream (streamTval r 1)
  | some (.stream false cap st n w sx pol pos fetched) =>
    if pos ≥ n then faultR .stream (streamTval r 0)
    else match fetched with
      | v :: rest => .ok (s.setT { s.t with binds := Map.set s.t.binds r.toNat (.stream false cap st n w sx pol (pos + 1) rest) }, v)
      | [] => match readElement s s.cur r cap st w sx pol pos with
        | .error e => .error e
        | .ok (s1, v) => .ok (s1.setT { s1.t with binds := Map.set s1.t.binds r.toNat (.stream false cap st n w sx pol (pos + 1) []) }, v)
  | some (.port true _) => faultR .stream (streamTval r 1)
  | some (.port false side) =>
    match portQueue s.c side with
    | [] => waitR (.portIn side)
    | w :: rest =>
      let at_ := match exchangeNow s.t with | some x => Map.set s.c.popAt side.toNat x.2 | none => s.c.popAt
      .ok (s.setC { s.c with ports := Map.set s.c.ports side.toNat rest, popAt := at_ }, Val.ofW w)

/-- The 64-bit value of a register operand, its tag ignored (R198). -/
def readW (s : State) (r : Reg) : Res (State × W64) := do
  let (s1, v) ← readReg s r
  pure (s1, v.lo)

/-- Two sources read in the order of their fields: x then y with XR (s, t), y then x without it (s, d) (R170, R199). -/
def readTwo (q : Pre) (s : State) (x y : Reg) : Res (State × Val × Val) :=
  if q.xr then do
    let (s1, a) ← readReg s x
    let (s2, b) ← readReg s1 y
    pure (s2, a, b)
  else do
    let (s1, b) ← readReg s y
    let (s2, a) ← readReg s1 x
    pure (s2, a, b)

/-! ## A register written (R152, R170, R173) -/

/-- The 16-byte units that `[a, a+n)` touches (R127). -/
def unitsOf (a n : Nat) : List Nat := if n = 0 then [] else (List.range ((a + n - 1) / 16 + 1 - a / 16)).map (a / 16 + ·)

/-- A local access queued at the banks of its units, with a number of its own (R128, R135). -/
def queueLocal (s : State) (r : LReq) : State :=
  let cl := clusterOf (coreOf r.tid)
  let r' := { r with left := (r.pieces.flatMap (fun p => unitsOf p.1 p.2.1)).eraseDups, no := s.accs }
  { s with accs := s.accs + 1 }.setCluster cl { s.cluster cl with lq := (s.cluster cl).lq ++ [r'] }

/-- The release that a write-stream element makes before it under its policy (R94): the thread makes it before its instruction goes on; one at
thread scope only reports a store fault, as REL.thread does.
(assumption 18, DEDUCED) -/
def streamRelease (s : State) (pol : BitVec 32) : Res Unit :=
  if polReleases pol && !s.t.relOk then waitR (.streamRelease (polScope pol)) else .ok ()

/-- Whether a register can take a result now: the direction of its binding, its count, room in a neighbour's queue. A push to another
cluster is an access to it, which PERMT must allow as it goes (R345): where its bit has gone since BINDP, PERM as BINDP raises it.
(assumption 18, DEDUCED; assumption 69, DEDUCED) -/
def writeCheck (s : State) (r : Reg) : Res Unit :=
  match bindingOf s r with
  | none => .ok ()
  | some (.stream false _ _ _ _ _ _ _ _) => faultR .stream (streamTval r 1)
  | some (.stream true cap st n w _ pol pos _) =>
    if pos ≥ n then faultR .stream (streamTval r 0)
    else if capLoc cap then do
      checkWindow s s.cur (elementAt cap st w pos).1 (elementBytes w) false true
      afterWindow s
    else do
      afterLocal s (elementAt cap st w pos).1 (elementBytes w)
      sendRoom s 2 true
      streamRelease s pol
  | some (.port false _) => faultR .stream (streamTval r 1)
  | some (.port true side) =>
    match neighbour s.curCore side with
    | none => .ok ()
    | some n =>
      if clusterOf n ≠ s.curCluster ∧ !s.cl.permt.contains (clusterOf n) then faultR .perm (side.setWidth 64)
      else if portFree s n (opposite side) = 0 then waitR (.portOut side) else .ok ()

/-- Whether a result that comes late can go into its register now: there is room for the element or word that it becomes, and for the
count of its phase (R103, R173, R357). -/
def landRoom (s0 : State) (tid : Nat) (r : Reg) : Bool :=
  let s := { s0 with cur := tid }
  match bindingOf s r with
  | some (.stream true cap _ _ _ _ _ _ _) => if capLoc cap then !windowOut s tid else (sendRoom s 2 true).isOk
  | some (.port true side) => match neighbour s.curCore side with
    | some n => decide (portFree s n (opposite side) > 0)
    | none => true
  | _ => true

/-- A result put into a register that can take it: a write stream appends an element as a store, an out port pushes a word. -/
def putReg (s : State) (r : Reg) (v : Val) : State :=
  match bindingOf s r with
  | none => s.setT (s.t.setReg r v)
  | some (.stream true cap st n w sx pol pos fetched) =>
    let (a, nib) := elementAt cap st w pos
    let s1 := s.setT { s.t with binds := Map.set s.t.binds r.toNat (.stream true cap st n w sx pol (pos + 1) fetched) }
    let m := elementBytes w
    let tag := v.tag && decide (w = 5) && bitAt (capPerm cap) permSC
    if capLoc cap then
      let (lb, _, _) := windowOf s s.cur
      queueLocal s1 { tid := s.cur, store := true, nib := if w = 0 then some nib else none, pieces := [(lb + a, m, 0)], data := v.bits.setWidth 512, tag := tag }
    else postStore (s1.setT { s1.t with relOk := false, acqDue := s1.t.acqDue || (polAcquires pol && decide (polScope pol ≠ 0)) }) a m
      (v.bits.toNat % 2 ^ widthBits w) tag (pol &&& 0x01FFFFFF#32)
  | some (.port true side) =>
    match neighbour s.curCore side with
    | none => s
    | some n => pushPort s n (opposite side) v.lo (some s.t.bolt) (exchangeNow s.t)
  | some _ => s

/-- A register written as a destination; a write to g0 is discarded (R152). -/
def writeReg (s : State) (r : Reg) (v : Val) : Res State := do
  writeCheck s r
  pure (putReg s r v)

/-- A 64-bit result: bits 127:64 zero, untagged (R198). -/
def writeW (s : State) (r : Reg) (w : W64) : Res State := writeReg s r (Val.ofW w)

/-! ## Groups and lanes (R200) -/

/-- The registers of a group as they stand. -/
def groupVals (t : Thread) (r : Reg) (n : Nat) : List Val := (groupRegs (r, n)).map t.reg

/-- V(n) of R200 as a number. -/
def vecOf (t : Thread) (r : Reg) : Nat :=
  (t.reg r).bits.toNat + (t.reg (r + 1)).bits.toNat * 2 ^ 128 + (t.reg (r + 2)).bits.toNat * 2 ^ 256 + (t.reg (r + 3)).bits.toNat * 2 ^ 384

/-- A group written from a 512-bit number, untagged. -/
def setVec (t : Thread) (r : Reg) (v : Nat) : Thread :=
  (List.range 4).foldl (fun t j => t.setReg (r + BitVec.ofNat 6 j) (Val.ofNat (v / 2 ^ (128 * j) % 2 ^ 128))) t

/-- Lane `i` of width `w`. -/
def lane (v w i : Nat) : Nat := v / 2 ^ (w * i) % 2 ^ w

/-- The lanes of a 512-bit number. -/
def lanesOf (v w : Nat) : List Nat := (List.range (512 / w)).map (lane v w)

/-- A number of its lanes, lane 0 lowest. -/
def ofLanes (w : Nat) : List Nat → Nat
  | [] => 0
  | x :: r => x % 2 ^ w + 2 ^ w * ofLanes w r

/-- The lane width of a lane code (R48): `.f32.v` and `.v` have 32-bit lanes and 512 lanes of one bit. -/
def laneBits (f : Code) : Nat :=
  if f.toNat = 22 then 32 else if f.toNat = 54 then 1 else widthBits (codeWidth f)

/-! ## Local memory written by engines -/

/-- Threads that watch a line of a window through its global address are woken by a write of local memory (R306). -/
def wakeBytes (s : State) (cl a n : Nat) : State :=
  match s.blocks.find? (fun b => decide (b.2.cluster = cl) && decide (b.2.lb ≤ a) && decide (a < b.2.lb + b.2.ws)) with
  | some (_, b) => (lineParts (windowVa b.window (a - b.lb)) n).foldl (fun s q => wakeWatchers s b.bolt (q.1 / 64)) s
  | none => s

/-- Bytes written into local memory, tags of their granules cleared. -/
def writeLocal (s : State) (cl a : Nat) (bs : List (BitVec 8)) : State :=
  let c := s.cluster cl
  wakeBytes (s.setCluster cl { c with mem := c.mem.writeN a bs }) cl a bs.length

/-! ## Local requests performed (R128, R135, R137) -/

/-- What an access names of one unit: the parts of its pieces that lie in it. -/
def unitPieces (r : LReq) (u : Nat) : List (Nat × Nat × Nat) :=
  r.pieces.filterMap (fun p =>
    let lo := max p.1 (16 * u)
    let hi := min (p.1 + p.2.1) (16 * u + 16)
    if lo < hi then some (lo, hi - lo, p.2.2 + (lo - p.1)) else none)

/-- The bytes of one unit that a local load gathers, each piece at its place. -/
def unitGather (c : Cluster) (r : LReq) (u : Nat) : Nat :=
  ((unitPieces r u).map (fun p => bytesToNat (Memory.readN c.mem.cells p.1 p.2.1) * 2 ^ (8 * p.2.2))).sum

/-- One unit of a local store performed: a nibble as an indivisible read-modify-write, else the pieces in order. -/
def unitStore (c : Cluster) (r : LReq) (u : Nat) : Cluster :=
  match r.nib with
  | some hi =>
    match r.pieces with
    | (a, _, _) :: _ =>
      let old := (Memory.read c.mem.cells a).toNat
      let x := r.data.toNat % 16
      { c with mem := c.mem.writeN a [BitVec.ofNat 8 (if hi then old % 16 + x * 16 else old / 16 * 16 + x)] }
    | [] => c
  | none =>
    { c with mem := (unitPieces r u).foldl (fun m p => m.writeTagged p.1 (natToBytes p.2.1 (r.data.toNat / 2 ^ (8 * p.2.2))) r.tag) c.mem }

/-! ## The banks of local memory (R127, R128) -/

/-- The bank of a unit (R127). -/
def bankOf (u : Nat) : Nat := u % 64

/-- How long a request has waited at a bank. -/
def LReq.waitedAt (r : LReq) (b : Nat) : Nat := Map.get r.waited b 0

/-- A cycle of some banks gone by: a request that still waits there has waited one more. -/
def LReq.waitOn (r : LReq) (bs : List Nat) : LReq :=
  { r with waited := (bs.filter (fun b => r.left.any (fun u => decide (bankOf u = b)))).foldl (fun m b => Map.set m b (Map.get m b 0 + 1)) r.waited }

/-- Whether an engine, or the matrix unit, must leave the banks of `[a, a+n)` to a core that has waited three cycles at one of them (R128).
(assumption 24, DEDUCED) -/
def banksOwed (c : Cluster) (a n : Nat) : Bool :=
  c.lq.any (fun r => (unitsOf a n).any (fun u => decide (r.waitedAt (bankOf u) ≥ 3) && r.left.any (fun x => decide (bankOf x = bankOf u))))

/-- An engine takes the banks of `[a, a+n)` for a cycle before every core's request (R128). -/
def takeBanks (s : State) (cl a n : Nat) : State :=
  s.setCluster cl { s.cluster cl with lq := (s.cluster cl).lq.map (·.waitOn ((unitsOf a n).map bankOf).eraseDups) }

end Sys2Proof.Machine
end

