-- ==== Sys2Proof/Machine/Fetch.lean ====
section
/-!
DEFINITION. Fetching an instruction: its parcels one by one through the execute capability and the page tables (R52, R389).
-/
namespace Sys2Proof.Machine

/-- The TVAL of ILLEGAL at a refused parcel (R62). (assumption 14, DEDUCED) -/
def rejectTval (e : Reject) : W64 := BitVec.ofNat 64 (e.index * 65536 + e.parcel.toNat)

/-- The local address and size of a core's boot area (R385). -/
def bootArea (core : Nat) : Nat := 0x1E0000 + 0x4000 * (xOf core % 8)
def bootBytes : Nat := 0x4000

/-- Whether a core runs the self-test (R372). -/
def inSelfTest (s : State) (bolt core : Nat) : Bool := decide (s.boot = .selfTest) && decide (bolt = 0) && !isSystem core

/-- One parcel at `a` for a thread of `bolt` on a core: outside the ordinary region PAGE with REASON 5, else translated at its home with
X as the permission, and read there (R389, R92); a fetch on Rolnis's behalf is translated by its tables (R371, R372), and a core in its self-test runs the image in
its boot area, whose first byte is address 0 (R372). A fetch is made in the step that issues the instruction: it is none of the requests that a
network interface injects and R357 charges. (assumption 89, DESIGN CHOICE; assumption 30, DEDUCED; assumption 48, DESIGN CHOICE) -/
def fetchParcel (s : State) (bolt core a : Nat) : Except (Cause × W64) (State × Parcel) :=
  if regionOf a ≠ .ordinary then .error (.page, pageTval 0 5 a)
  else if inSelfTest s bolt core then
    let c := s.cluster (clusterOf core)
    .ok (s, BitVec.ofNat 16 (bytesToNat (Memory.readN c.mem.cells (bootArea core + a % bootBytes) 2)))
  else if byRolnis bolt core then
    match systemTranslate s a .fetch with
    | .error e => .error e
    | .ok pa => .ok (s, BitVec.ofNat 16 ((systemLine s pa).1 / 2 ^ (8 * (a % 64)) % 65536))
  else
    let h := recordHome s bolt a
    match translate s bolt h a .fetch with
    | .error e => .error e
    | .ok (s1, pa, _) =>
      let (d, _) := newest s1 h bolt (a / 64) pa
      .ok (s1, BitVec.ofNat 16 (d / 2 ^ (8 * (a % 64)) % 65536))

/-- Whether a write that has arrived at the home of a parcel for its line is still to be performed: the fetch comes after it (R92).
(assumption 89, DESIGN CHOICE) -/
def fetchBehind (s : State) (bolt core a : Nat) : Bool :=
  let h := s.slice (if byRolnis bolt core then systemHome s a else recordHome s bolt a)
  decide (regionOf a = .ordinary) && (h.chan0 ++ h.chan).any (fun r => r.writes && !heldHome s r && decide (lineOf s r = lineAt s bolt core a))

/-- Whether a system core does not have the instruction that a base after the prefixes of `c` makes: those of pages 4 and 6 (R371). -/
def noSystem (core : Nat) (c : Scan) : Bool := isSystem core && (decide (c.xp.getD 0 / 64 = 4) || decide (c.xp.getD 0 / 64 = 6))

/-- The parcels of the instruction from `q` on, after the prefixes of `c` (R52). -/
def fetchFrom (s : State) (bolt core : Nat) (ecap : Val) : Nat → Scan → W64 → Except Stop (State × Instr)
  | 0, c, _ => .error (.trap .illegal (rejectTval { why := .truncated, parcel := 0, index := c.k }))
  | fuel + 1, c, q =>
    match derefCheck 0 true ecap (!capLoc ecap && !capDam ecap) [permX] q.toNat 2 with
    | .error e => .error (if c.k = 0 then e else .trap .illegal (rejectTval { why := .truncated, parcel := 0, index := c.k }))
    | .ok () =>
      if fetchBehind s bolt core q.toNat then .error (.wait .place)
      else match fetchParcel s bolt core q.toNat with
      | .error (cause, tv) => .error (.trap cause tv)
      | .ok (s1, p) =>
        if isPrefix p then
          match scanStep c p with
          | .error e => .error (.trap .illegal (rejectTval e))
          | .ok c' => fetchFrom s1 bolt core ecap fuel c' (q + 2)
        else match decodeBase c p with
          | .error e => .error (.trap .illegal (rejectTval e))
          | .ok i => if noSystem core c then .error (.trap .illegal (rejectTval { why := .reservedPage, parcel := p, index := c.k })) else .ok (s1, i)

/-- FETCH AND DECODE the instruction at the current thread's pc: at most four prefixes, a fifth that is refused, and a base. -/
def fetch (s : State) : Except Stop (State × Instr) := fetchFrom s s.t.bolt s.curCore s.t.ecap 6 {} s.t.pc

/-- The stall count of the instruction at `a`, read from its prefixes; 0 where none can be read (R53). -/
def peekStall (s : State) (bolt core : Nat) : Nat → W64 → Nat
  | 0, _ => 0
  | fuel + 1, a => match fetchParcel s bolt core a.toNat with
    | .error _ => 0
    | .ok (_, p) =>
      if !isPrefix p then 0
      else if p.toNat / 1024 % 4 = 3 then p.toNat / 64 % 16
      else peekStall s bolt core fuel (a + 2)

/-- The counted cycle at which a thread's next instruction issues at the earliest (R53). -/
def nextCount (s : State) (tid : Nat) : Nat :=
  let t := s.thread tid
  t.cnt + 1 + t.hold + peekStall s t.bolt (coreOf tid) 4 t.pc

end Sys2Proof.Machine
end

