-- ==== Sys2Proof/Machine/Formats.lean ====
section
/-!
DEFINITION. Number formats and their rounding (08_number_formats.md): exact values, the IEEE formats, Z8, E2M1, MXINT8, integers,
scales; the events of an operation (R185).
-/
namespace Sys2Proof.Machine

/-! ## Events (R185) -/

/-- How many element results met each condition: event sources 4 to 9. -/
structure Ev where
  inv : Nat := 0
  dz : Nat := 0
  ovf : Nat := 0
  unf : Nat := 0
  inx : Nat := 0
  nar : Nat := 0
  deriving DecidableEq, Repr

/-- Events of two element results together. -/
def Ev.add (a b : Ev) : Ev :=
  { inv := a.inv + b.inv, dz := a.dz + b.dz, ovf := a.ovf + b.ovf, unf := a.unf + b.unf, inx := a.inx + b.inx, nar := a.nar + b.nar }
/-- Each condition once, as a request of an engine counts them. -/
def Ev.once (a : Ev) : Ev :=
  { inv := min a.inv 1, dz := min a.dz 1, ovf := min a.ovf 1, unf := min a.unf 1, inx := min a.inx 1, nar := min a.nar 1 }
/-- Invalid, once. -/
def Ev.invalid : Ev := { inv := 1 }
/-- Invalid if `b`. -/
def Ev.invalidIf (b : Bool) : Ev := { inv := b.toNat }

/-- The events counted in a thread's core (R185, R369). -/
def countEv (s : State) (tid : Nat) (e : Ev) : State :=
  countEvent (countEvent (countEvent (countEvent (countEvent (countEvent s tid 4 e.inv) tid 5 e.dz) tid 6 e.ovf) tid 7 e.unf) tid 8 e.inx) tid 9 e.nar

/-! ## Formats and exact values -/

/-- An IEEE binary format: bits of exponent and fraction (R182). -/
structure Ieee where
  eb : Nat
  fb : Nat
  deriving DecidableEq, Repr

/-- binary32 -/
def f32 : Ieee := { eb := 8, fb := 23 }
/-- binary16 -/
def f16 : Ieee := { eb := 5, fb := 10 }
/-- bits 31:16 of a binary32 -/
def b16 : Ieee := { eb := 8, fb := 7 }

/-- An element format (R182). -/
inductive Fmt where
  | ieee (k : Ieee)
  | z8
  | e4
  | mx8
  | int (signed : Bool) (w : Nat)
  deriving DecidableEq, Repr

/-- Bits of an element. -/
def Fmt.bits : Fmt → Nat
  | .ieee k => 1 + k.eb + k.fb
  | .z8 => 8
  | .e4 => 4
  | .mx8 => 8
  | .int _ w => w

/-- The format a code names (R48, R217): `.f32.v` too. -/
def fmtOf (f : Code) : Fmt :=
  let c := f.toNat
  if c = 19 ∨ c = 22 then .ieee f32 else if c = 18 then .ieee f16 else if c = 26 then .ieee b16
  else if c = 33 then .z8 else if c = 40 then .e4
  else .int (decide (c / 8 = 0)) (widthBits (c % 8))

/-- An exact value: a NaN (signalling or quiet), an infinity, or ±m·2^e, zero with its sign. -/
inductive FV where
  | nan (signalling : Bool)
  | inf (neg : Bool)
  | fin (neg : Bool) (m : Nat) (e : Int)
  deriving DecidableEq, Repr

/-- An integer as an exact value. -/
def FV.ofInt (i : Int) : FV := .fin (decide (i < 0)) i.natAbs 0

/-- The value of IEEE bits (R182, R183). -/
def Ieee.decode (k : Ieee) (b : Nat) : FV :=
  let neg := b.testBit (k.eb + k.fb)
  let x := b / 2 ^ k.fb % 2 ^ k.eb
  let f := b % 2 ^ k.fb
  let bias : Int := ((2 ^ (k.eb - 1) - 1 : Nat) : Int)
  if x = 2 ^ k.eb - 1 then (if f = 0 then .inf neg else .nan (!f.testBit (k.fb - 1)))
  else if x = 0 then .fin neg f (1 - bias - (k.fb : Int))
  else .fin neg (2 ^ k.fb + f) ((x : Int) - bias - (k.fb : Int))

/-- The value of a Z8 byte (R186). -/
def z8Decode (z : Nat) : FV :=
  let neg := z.testBit 7
  let d := z.testBit 6
  let w := z % 64
  if w = 0 then (if d then .fin neg 1 11 else if neg then .nan false else .fin false 0 0)
  else
    let m := Nat.log2 w
    let l := 5 - m
    let b := if m ≥ 1 then w / 2 ^ (m - 1) % 2 else 0
    let f := if m ≥ 2 then w % 2 ^ (m - 1) else 0
    let c := 2 * l + b
    let t : Int := if d then (c : Int) else -((c : Int) + 1)
    if m ≥ 1 then .fin neg (2 ^ (m - 1) + f) (t - ((m - 1 : Nat) : Int)) else .fin neg 1 t

/-- The eight magnitudes of E2M1, in halves (R189). -/
def e4Mags : List Nat := [0, 1, 2, 3, 4, 6, 8, 12]

/-- The value of the bits of a format. -/
def Fmt.decode : Fmt → Nat → FV
  | .ieee k, b => k.decode b
  | .z8, b => z8Decode b
  | .e4, b => .fin (b.testBit 3) (e4Mags.getD (b % 8) 0) (-1)
  | .mx8, b => let i := sext (b % 256) 8; .fin (decide (i < 0)) i.natAbs (-6)
  | .int true w, b => FV.ofInt (sext (b % 2 ^ w) w)
  | .int false w, b => .fin false (b % 2 ^ w) 0

/-- The canonical NaN of an IEEE format (R183). -/
def Ieee.nan (k : Ieee) : Nat := (2 ^ k.eb - 1) * 2 ^ k.fb + 2 ^ (k.fb - 1)
/-- An infinity of an IEEE format. -/
def Ieee.inf (k : Ieee) (neg : Bool) : Nat := neg.toNat * 2 ^ (k.eb + k.fb) + (2 ^ k.eb - 1) * 2 ^ k.fb

/-! ## Rounding (R184, R188 to R190) -/

/-- Rounding modes of FRM (R180): 0 RNE, 1 RZ, 2 RU, 3 RD; whether a magnitude with last bit `odd` is raised when the
discarded part compares with one half as `half` says and is `rest` non-zero. (assumption 26, DEDUCED) -/
def raises (mode : BitVec 2) (neg odd rest : Bool) (half : Ordering) : Bool :=
  match mode.toNat with
  | 0 => half == .gt || (half == .eq && odd)
  | 1 => false
  | 2 => rest && !neg
  | _ => rest && neg

/-- `m / 2^sh` rounded to an integer, with what lies below `m` (`sticky`): the integer and whether it is inexact. -/
def roundShift (mode : BitVec 2) (neg : Bool) (m sh : Nat) (sticky : Bool) : Nat × Bool :=
  let q := m / 2 ^ sh
  let r := m % 2 ^ sh
  let half := if sh = 0 then Ordering.lt else
    (if r < 2 ^ (sh - 1) then .lt else if r > 2 ^ (sh - 1) then .gt else if sticky then .gt else .eq)
  let rest := decide (r ≠ 0) || sticky
  (q + (raises mode neg (decide (q % 2 = 1)) rest half).toNat, rest)

/-- ROUNDING INTO AN IEEE FORMAT (R184): the magnitude m·2^e, with something below its last bit when `sticky` holds (m then
has many bits). Overflow and tininess after rounding as IEEE 754-2019 has them. (assumption 26, DEDUCED) -/
def Ieee.round (k : Ieee) (mode : BitVec 2) (neg : Bool) (m : Nat) (e : Int) (sticky : Bool) : Nat × Ev :=
  let sign := neg.toNat * 2 ^ (k.eb + k.fb)
  if m = 0 then (sign, { inx := sticky.toNat })
  else
    let bias : Int := ((2 ^ (k.eb - 1) - 1 : Nat) : Int)
    let emin : Int := 1 - bias
    let top : Int := (Nat.log2 m : Int) + e
    let u : Int := max (top - (k.fb : Int)) (emin - (k.fb : Int))
    let at_ := fun (u : Int) => if u ≤ e then (m * 2 ^ (e - u).toNat, sticky) else roundShift mode neg m (u - e).toNat sticky
    let (n, inx) := at_ u
    let code := (u - (emin - (k.fb : Int))).toNat * 2 ^ k.fb + n
    if code ≥ (2 ^ k.eb - 1) * 2 ^ k.fb then
      let big := decide (mode = 0) || (decide (mode = 2) && !neg) || (decide (mode = 3) && neg)
      (sign + ((2 ^ k.eb - 1) * 2 ^ k.fb - (!big).toNat), { ovf := 1, inx := 1 })
    else
      let tiny := decide (top < emin) && !(decide (top = emin - 1) && decide ((at_ (top - (k.fb : Int))).1 = 2 ^ (k.fb + 1)))
      (sign + code, { inx := inx.toNat, unf := (inx && tiny).toNat })

/-- A ratio rounded into an IEEE format; `forced` says that the value lies above the ratio. -/
def Ieee.roundRatio (k : Ieee) (mode : BitVec 2) (neg : Bool) (n d : Nat) (forced : Bool) : Nat × Ev :=
  let sh := 80 + Nat.log2 d - Nat.log2 n
  let m := n * 2 ^ sh / d
  k.round mode neg m (-(sh : Int)) (forced || decide (n * 2 ^ sh % d ≠ 0))

/-- Positive Z8 codes with D = 0 or D = 1 whose c of R186 is given, in rising order of magnitude. -/
def z8Codes (d c : Nat) : List Nat :=
  let m := 5 - c / 2
  if m = 0 then [d * 64 + 1]
  else (List.range (2 ^ (m - 1))).map (fun f => d * 64 + 2 ^ m + c % 2 * 2 ^ (m - 1) + f)

/-- +0 and the positive Z8 codes by rank (R188). -/
def z8ByRank : List Nat :=
  0 :: ([10, 9, 8, 7, 6, 5, 4, 3, 2, 1, 0].flatMap (z8Codes 0)) ++ ([0, 1, 2, 3, 4, 5, 6, 7, 8, 9, 10].flatMap (z8Codes 1)) ++ [64]

/-- The magnitude of a positive Z8 code in units of 2^-11. -/
def z8Units (c : Nat) : Nat :=
  match z8Decode c with
  | .fin _ m e => m * 2 ^ (e + 11).toNat
  | _ => 0

/-- A ratio of naturals converted to Z8 (R188). One too small for any code but 0 is inexact and no underflow, which R184 defines for the
IEEE formats. (assumption 79, DEDUCED) -/
def z8Round (neg : Bool) (n d : Nat) : Nat × Ev :=
  if n > 2048 * d then (neg.toNat * 128 + 64, { nar := 1, inx := 1 })
  else
    let us := z8ByRank.map z8Units
    let i := (us.filter (fun u => decide (u * d ≤ n * 2048))).length - 1
    let lo := us.getD i 0
    if lo * d = n * 2048 then ((if i = 0 then 0 else neg.toNat * 128 + z8ByRank.getD i 0), {})
    else
      let hi := us.getD (i + 1) 0
      let up := decide (n * 4096 > (lo + hi) * d) || (decide (n * 4096 = (lo + hi) * d) && decide (i % 2 = 1))
      let j := if up then i + 1 else i
      ((if j = 0 then 0 else neg.toNat * 128 + z8ByRank.getD j 0), { inx := 1 })

/-- A ratio converted to E2M1 (R189). (assumption 79, DEDUCED; assumption 80, DEDUCED) -/
def e4Round (neg : Bool) (n d : Nat) : Nat × Ev :=
  if n > 6 * d then (neg.toNat * 8 + 7, { nar := 1, inx := 1 })
  else
    let i := (e4Mags.filter (fun u => decide (u * d ≤ n * 2))).length - 1
    let lo := e4Mags.getD i 0
    if lo * d = n * 2 then (neg.toNat * 8 + i, {})
    else
      let hi := e4Mags.getD (i + 1) 0
      let up := decide (n * 4 > (lo + hi) * d) || (decide (n * 4 = (lo + hi) * d) && decide (i % 2 = 1))
      (neg.toNat * 8 + i + up.toNat, { inx := 1 })

/-- A ratio rounded to an integer under a mode: the magnitude and whether it is inexact. -/
def ratioInt (mode : BitVec 2) (neg : Bool) (n d : Nat) : Nat × Bool :=
  let q := n / d
  let r := n % d
  let half := if 2 * r < d then Ordering.lt else if 2 * r > d then .gt else .eq
  (q + (raises mode neg (decide (q % 2 = 1)) (decide (r ≠ 0)) half).toNat, decide (r ≠ 0))

/-- A ratio converted to an integer format (R190). A clamp counts invalid and narrowing, and no inexact; a clamp to Z8, E2M1 or MXINT8
counts inexact too. (assumption 80, DEDUCED) -/
def intRound (mode : BitVec 2) (signed : Bool) (w : Nat) (neg : Bool) (n d : Nat) : Nat × Ev :=
  let (q, inx) := ratioInt mode neg n d
  let v : Int := if neg then -(q : Int) else q
  let lo : Int := if signed then -((2 ^ (w - 1) : Nat) : Int) else 0
  let hi : Int := if signed then ((2 ^ (w - 1) : Nat) : Int) - 1 else ((2 ^ w : Nat) : Int) - 1
  let r := if v < lo then lo else if v > hi then hi else v
  ((r % ((2 ^ w : Nat) : Int)).toNat, if r = v then { inx := inx.toNat } else { inv := 1, nar := 1 })

/-- A ratio converted to an MXINT8 element (R189, R193). -/
def mx8Round (neg : Bool) (n d : Nat) : Nat × Ev :=
  let (q, inx) := ratioInt 0 neg (n * 64) d
  let (q, e) : Nat × Ev := if q > 127 then (127, { nar := 1, inx := 1 }) else (q, { inx := inx.toNat })
  ((if neg then (256 - q) % 256 else q), e)

/-- CONVERSION OF AN EXACT RATIO to a format. -/
def Fmt.ofRatio (t : Fmt) (mode : BitVec 2) (neg : Bool) (n d : Nat) : Nat × Ev :=
  match t with
  | .ieee k => k.roundRatio mode neg n d false
  | .z8 => z8Round neg n d
  | .e4 => e4Round neg n d
  | .mx8 => mx8Round neg n d
  | .int sg w => intRound mode sg w neg n d

/-- CONVERSION OF AN EXACT VALUE to a format (R184, R188 to R190). -/
def Fmt.encode (t : Fmt) (mode : BitVec 2) (v : FV) : Nat × Ev :=
  match v with
  | .nan sg =>
    match t with
    | .ieee k => (k.nan, Ev.invalidIf sg)
    | .z8 => (128, Ev.invalidIf sg)
    | .mx8 => (0, Ev.invalid)
    | _ => (0, Ev.invalid)
  | .inf neg =>
    match t with
    | .ieee k => (k.inf neg, {})
    | .z8 => (neg.toNat * 128 + 64, { nar := 1 })
    | .e4 => (neg.toNat * 8 + 7, { nar := 1 })
    | .mx8 => ((if neg then 129 else 127), { nar := 1 })
    | .int sg w => ((if sg then (if neg then 2 ^ (w - 1) else 2 ^ (w - 1) - 1) else if neg then 0 else 2 ^ w - 1), { inv := 1, nar := 1 })
  | .fin neg m e =>
    if m = 0 then
      match t with
      | .ieee k => (neg.toNat * 2 ^ (k.eb + k.fb), {})
      | .e4 => (neg.toNat * 8, {})
      | _ => (0, {})
    else match t with
      | .ieee k => k.round mode neg m e false
      | _ => t.ofRatio mode neg (m * 2 ^ e.toNat) (2 ^ (-e).toNat)

/-- The ratio of a finite value's magnitude. -/
def ratioOf (m : Nat) (e : Int) : Nat × Nat := (m * 2 ^ e.toNat, 2 ^ (-e).toNat)

/-! ## Exact arithmetic (R213, R185) -/

/-- Whether a value is a signalling NaN. -/
def FV.signals : FV → Bool
  | .nan s => s
  | _ => false
/-- Whether a value is a NaN. -/
def FV.isNan : FV → Bool
  | .nan _ => true
  | _ => false
/-- A value with its sign inverted; NaNs have none. -/
def FV.neg : FV → FV
  | .nan s => .nan s
  | .inf n => .inf (!n)
  | .fin n m e => .fin (!n) m e
/-- The signed mantissa at exponent `u ≤ e`. -/
def signedAt (neg : Bool) (m : Nat) (e u : Int) : Int :=
  let x : Int := ((m * 2 ^ (e - u).toNat : Nat) : Int)
  if neg then -x else x

/-- The exact sum; an exact zero of non-zero or opposite terms is +0, −0 under RD (R213). -/
def FV.add (mode : BitVec 2) (a b : FV) : FV × Ev :=
  match a, b with
  | .nan x, y => (.nan false, Ev.invalidIf (x || y.signals))
  | x, .nan y => (.nan false, Ev.invalidIf (y || x.signals))
  | .inf x, .inf y => if x = y then (.inf x, {}) else (.nan false, Ev.invalid)
  | .inf x, .fin _ _ _ => (.inf x, {})
  | .fin _ _ _, .inf y => (.inf y, {})
  | .fin x m e, .fin y n g =>
    let u := min e g
    let v := signedAt x m e u + signedAt y n g u
    if v = 0 then (.fin (if m = 0 ∧ n = 0 ∧ x = y then x else decide (mode = 3)) 0 0, {})
    else (.fin (decide (v < 0)) v.natAbs u, {})

/-- The exact product. -/
def FV.mul (a b : FV) : FV × Ev :=
  match a, b with
  | .nan x, y => (.nan false, Ev.invalidIf (x || y.signals))
  | x, .nan y => (.nan false, Ev.invalidIf (y || x.signals))
  | .inf x, .inf y => (.inf (x != y), {})
  | .inf x, .fin y n _ => if n = 0 then (.nan false, Ev.invalid) else (.inf (x != y), {})
  | .fin x m _, .inf y => if m = 0 then (.nan false, Ev.invalid) else (.inf (x != y), {})
  | .fin x m e, .fin y n g => (.fin (x != y) (m * n) (e + g), {})

/-- How two values compare; none when either is a NaN (R215). -/
def FV.compare (a b : FV) : Option Ordering :=
  match a, b with
  | .nan _, _ => none
  | _, .nan _ => none
  | .inf x, .inf y => some (if x = y then .eq else if x then .lt else .gt)
  | .inf x, .fin _ _ _ => some (if x then .lt else .gt)
  | .fin _ _ _, .inf y => some (if y then .gt else .lt)
  | .fin x m e, .fin y n g =>
    let u := min e g
    some (cmpInt (signedAt x m e u) (signedAt y n g u))
where
  /-- Comparison of two integers. -/
  cmpInt (i j : Int) : Ordering := if i < j then .lt else if i = j then .eq else .gt

/-! ## Scales (R194) -/

/-- The value of an FP32 scale, if valid. -/
def scale32 (b : Nat) : Option FV :=
  match f32.decode (b % 2 ^ 32) with
  | .fin false m e => if m = 0 then none else some (.fin false m e)
  | _ => none

/-- The value of an E8M0 scale, if valid. -/
def scaleE8 (b : Nat) : Option FV := if b % 256 = 255 then none else some (.fin false 1 (((b % 256 : Nat) : Int) - 127))

end Sys2Proof.Machine
end

