-- ==== Sys2Proof/Machine/Flags.lean ====
section
/-!
DEFINITION. Flags and status: the integer and floating compares (R206, R215), carry and borrow (R202), flag logic (R207), and the
status word assembled from the fields it shows (R179, R180).
-/
namespace Sys2Proof.Machine

/-- The predicate of an integer compare (R206). -/
def cmpEq (x y : W64) : Bool := x == y
/-- Signed less-than (R206). -/
def cmpLt (x y : W64) : Bool := x.slt y
/-- Unsigned less-than (R206). -/
def cmpLtn (x y : W64) : Bool := x.ult y
/-- Any common bit (R206). -/
def cmpTst (x y : W64) : Bool := x &&& y != 0

/-- The sum with carry in, and the carry out (R202). -/
def addCarry (x y : W64) (c : Bool) : W64 × Bool :=
  (BitVec.ofNat 64 (x.toNat + y.toNat + c.toNat), decide (2 ^ 64 ≤ x.toNat + y.toNat + c.toNat))
/-- The difference with borrow in, and the borrow out (R202). -/
def subBorrow (x y : W64) (c : Bool) : W64 × Bool :=
  (w64 ((x.toNat : Int) - (y.toNat : Int) - (c.toNat : Int)), decide (x.toNat < y.toNat + c.toNat))

/-- The predicates of FCMP (R215). -/
inductive Pred where
  | eq | lt | le | un
  deriving DecidableEq, Repr

/-- A floating predicate and its events: EQ and UN count invalid for a signalling NaN, LT and LE for any (R215). -/
def Pred.holds (p : Pred) (a b : FV) : Bool × Ev :=
  let r := a.compare b
  let sig := a.signals || b.signals
  match p with
  | .eq => (r == some .eq, Ev.invalidIf sig)
  | .lt => (r == some .lt, Ev.invalidIf r.isNone)
  | .le => (r == some .lt || r == some .eq, Ev.invalidIf r.isNone)
  | .un => (r.isNone, Ev.invalidIf sig)

/-- A lane compare of a format: integer lanes count nothing, and UN is false of them (R215). -/
def Pred.onLane (p : Pred) (t : Fmt) (a b : Nat) : Bool × Ev :=
  match t with
  | .int _ _ => if p = .un then (false, {}) else ((p.holds (t.decode a) (t.decode b)).1, {})
  | _ => p.holds (t.decode a) (t.decode b)

/-- STATUS as a thread reads it (R179). -/
def statusWord (t : Thread) (phase : BitVec 2) : W64 :=
  BitVec.ofNat 64 (t.handler.toNat * 64 + t.seamed.toNat * 32 + t.xchg.toNat * 16 + phase.toNat * 4 + t.check.toNat * 2 + t.mode.toNat)

/-- ALLOC (R180). -/
def allocWord (free allot : Nat) : W64 := BitVec.ofNat 64 (free % 256 * 256 + allot % 256)

/-- STREAMST (R180). -/
def streamstWord (t : Thread) : W64 :=
  BitVec.ofNat 64 ((List.range 8).map (fun i =>
    match Map.find t.binds (8 + i) with
    | some (.port _ _) => 2 ^ (8 + i) + 2 ^ i
    | some _ => 2 ^ i
    | none => 0)).sum

end Sys2Proof.Machine
end

