-- ==== Sys2Proof/Machine/Bind.lean ====
section
/-!
DEFINITION. Allotments and bindings: ALLOT, SHRINK, BIND, BINDP, UNBIND, BSTAT (R165 to R175), and the event rows
STREAM_ELEMENT_FETCH and PORT_WORD_ARRIVAL.
-/
namespace Sys2Proof.Machine

/-! ## Allotment (R166) -/

/-- An allotment a request may name. -/
def allotOk (n : Nat) : Bool := decide (n % 8 = 0) && decide (16 ≤ n) && decide (n ≤ 64)

/-- Registers `a .. n-1` untagged zero. -/
def zeroFrom (t : Thread) (a n : Nat) : Thread := { t with regs := t.regs.filter (fun p => !(decide (a ≤ p.1) && decide (p.1 < n))) }

/-- ALLOT (R166). -/
def execAllot (q : Pre) (d r : Reg) (s : State) : Step :=
  issue q { base := baseParcel (.allot q d r), reads := [r], writes := [d], lat := some 1 }
    (fun s => do
      let (s1, w) ← readW s r
      let n := w.toNat
      let a := s.t.allot
      if !allotOk n || decide (n < a) then writeW s1 d 2
      else if n - a > freeEntries s s.curCore then writeW s1 d 1
      else writeW (s1.setT { zeroFrom s1.t a n with allot := n }) d 0) s

/-- SHRINK (R166). -/
def execShrink (q : Pre) (d r : Reg) (s : State) : Step :=
  issue q { base := baseParcel (.shrink q d r), reads := [r], writes := [d], lat := some 1 }
    (fun s => do
      let (s1, w) ← readW s r
      let n := w.toNat
      let a := s.t.allot
      if !allotOk n || decide (n > a) || decide (n ≤ d.toNat) then writeW s1 d 2
      else if s.t.pending.any (fun x => decide (n ≤ x)) then waitR .operand
      else writeW (s1.setT { zeroFrom s1.t n a with allot := n }) d 0) s

/-! ## Streams (R167 to R171) -/

/-- A register made unbound, holding untagged zero (R174). -/
def unbound (t : Thread) (d : Reg) : Thread := { t with binds := Map.erase t.binds d.toNat }.setReg d {}

/-- The current thread's register made unbound; an element of its stream that is under way is discarded. -/
def unbind (s : State) (d : Reg) : State := endPulls (s.setT (unbound s.t d)) s.t.bolt (threadKey s.cur d.toNat)

/-- The check of one element (R169). -/
def elementCheck (s : State) (r : Reg) (cap : Val) (stride : Int) (w : Nat) (wr : Bool) (k : Nat) : Res Unit :=
  exactCheck r.toNat cap (fun a n =>
    if capLoc cap then checkLocal s s.cur r.toNat cap a n (!wr) wr
    else checkGlobal r.toNat cap [if wr then permW else permR] a n) (elementExact cap stride w k).1 (elementBytes w)

/-- The first failing element of `k, k+1, …` decides. -/
def elementsFrom (chk : Nat → Res Unit) : Nat → Nat → Res Unit
  | 0, _ => .ok ()
  | f + 1, k => match chk k with
    | .error e => .error e
    | .ok _ => elementsFrom chk f (k + 1)

/-- Every element checked in order; the elements of a run whose ends and whole extent pass need no check one by one. (assumption 53, DEDUCED) -/
def elementsCheck (s : State) (r : Reg) (cap : Val) (stride : Int) (w : Nat) (wr : Bool) (c : Nat) : Res Unit :=
  let chk := elementCheck s r cap stride w wr
  let unit : Int := if w = 0 then 2 else 1
  let first : Int := (capCursor cap : Nat)
  let last : Int := first + stride * ((c - 1 : Nat) : Int) / unit
  let lo := min first last
  let hi := max first last + ((elementBytes w : Nat) : Int)
  let whole : Bool := decide (0 ≤ lo) && decide (hi ≤ ((2 ^ 52 : Nat) : Int)) &&
    (match elementCheck s r cap stride w wr 0, elementCheck s r cap stride w wr (c - 1),
      (if capLoc cap then checkLocal s s.cur r.toNat cap lo.toNat (hi - lo).toNat (!wr) wr
       else checkGlobal r.toNat cap [if wr then permW else permR] lo.toNat (hi - lo).toNat) with
    | .ok _, .ok _, .ok _ => true
    | _, _, _ => false)
  if c = 0 then .ok ()
  else if whole then .ok ()
  else if stride = 0 then chk 0
  else elementsFrom chk c 0

/-- The kind checks of BIND that hold whatever the count (R169). (assumption 18, DEDUCED) -/
def bindKind (r : Reg) (cap : Val) (w : Nat) : Res Unit :=
  if capDam cap ∨ (w = 0 ∧ !capLoc cap) then
    (if !cap.tag then faultR .captag (capTval r.toNat false 0 (capCursor cap)) else faultR .capperm (capTval r.toNat false 0xF (capCursor cap)))
  else .ok ()

/-- BIND (R169). (assumption 53, DEDUCED) -/
def execBind (q : Pre) (d r : Reg) (s : State) : Step :=
  issue q { base := baseParcel (.bind q d r), ok := bindable d, rgroups := [(r, 4)], writes := [d] }
    (fun s => do
      let cap := s.t.reg r
      let stride := (s.t.reg (r + 1)).lo.toInt
      let c := (s.t.reg (r + 2)).nat % 2 ^ 32
      let g := (s.t.reg (r + 3)).nat
      let w := g % 8
      let wr := bitAt g 8
      if w ≥ 6 then faultR .illegal (illTval q (baseParcel (.bind q d r))) else .ok ()
      bindKind r cap w
      elementsCheck s r cap stride w wr c
      let s := unbind s d
      pure (s.setT { s.t with binds := Map.set s.t.binds d.toNat (.stream wr cap stride c w (bitAt g 3) (BitVec.ofNat 32 (g / 2 ^ 32)) 0 []) })) s

/-! ## Ports (R172) -/

/-- Whether some register of a thread other than `own` holds a side of the core in a direction. -/
def holdsPort (t : Thread) (own : Option Nat) (out : Bool) (side : BitVec 2) : Bool :=
  t.binds.any (fun p => decide (some p.1 ≠ own) && decide (p.2 = .port out side))

/-- BINDP (R172). Other threads of the core are those resident there: an evicted thread, which is restored onto its own core with its
binding, holds its side again only then. (assumption 70, DEDUCED) -/
def execBindp (q : Pre) (d : Reg) (port : BitVec 2) (out : Bool) (s : State) : Step :=
  issue q { base := baseParcel (.bindp q d port out), ok := bindable d, writes := [d] }
    (fun s =>
      let core := s.curCore
      match neighbour core port with
      | none => faultR .perm (port.setWidth 64)
      | some n =>
        if s.fused.contains n ∨ (clusterOf n ≠ s.curCluster ∧ !s.cl.permt.contains (clusterOf n)) then faultR .perm (port.setWidth 64)
        else if (residents s core).any (fun j => holdsPort (s.thread j) (if j = s.cur then some d.toNat else none) out port) then
          faultR .stream (streamTval d 3)
        else
          let s := unbind s d
          .ok (s.setT { s.t with binds := Map.set s.t.binds d.toNat (.port out port) })) s

/-- UNBIND: elements of a write stream have issued with the instructions that wrote them (R171, R174). -/
def execUnbind (q : Pre) (d : Reg) (s : State) : Step :=
  issue q { base := baseParcel (.unbind q d), ok := bindable d, writes := [d] } (fun s => .ok (unbind s d)) s

/-- The word of BSTAT (R175). -/
def bstatWord (s : State) (r : Reg) : W64 :=
  match bindingOf s r with
  | none => 0
  | some (.stream wr _ _ _ _ _ _ pos _) => BitVec.ofNat 64 ((if wr then 2 else 1) * 2 ^ 32 + pos % 2 ^ 32)
  | some (.port false side) => BitVec.ofNat 64 (3 * 2 ^ 32 + (portQueue s.c side).length)
  | some (.port true side) =>
    BitVec.ofNat 64 (4 * 2 ^ 32 + (match neighbour s.curCore side with | some n => portFree s n (opposite side) | none => 0))

/-- BSTAT (R175). -/
def execBstat (q : Pre) (d r : Reg) (s : State) : Step :=
  issue q { base := baseParcel (.bstat q d r), ok := bindable r, writes := [d], lat := some 1 }
    (fun s => writeW s d (bstatWord s r)) s

/-! ## Event rows -/

/-- STREAM_ELEMENT_FETCH (R171): the next element not yet fetched is read, or asked for; one that cannot be read is left to its pop.
(assumption 18, DEDUCED) -/
def streamElementFetch (s : State) (tid : Nat) (r : Reg) : State :=
  let t := s.thread tid
  match Map.find t.binds r.toNat with
  | some (.stream false cap st n w sx pol pos fetched) =>
    let k := pos + fetched.length
    if t.occ ≠ .resident ∨ halted s t.bolt tid ∨ k ≥ n then s
    else match readElement s tid r cap st w sx pol k with
      | .error (.pull a) => askFor s a
      | .error _ => s
      | .ok (s1, v) =>
        let t1 := s1.thread tid
        s1.setThread tid { t1 with binds := Map.set t1.binds r.toNat (.stream false cap st n w sx pol pos (fetched ++ [v])) }
  | _ => s

/-- STREAM_ELEMENT_FETCH (R171). -/
def execStreamElementFetch (tid : Nat) (r : Reg) (s : State) : Step := withUnit (hasThread tid) (streamElementFetch s tid r)

/-- The threads in an exchange phase of a bolt's group that have not arrived at its end and are not blocked at a port: words of a
cycle move once these have issued everything up to it (R302). -/
def xRunning (s : State) (bolt group : Nat) : List Nat :=
  (s.threads.filter (fun p => decide (p.2.bolt = bolt) && decide (p.2.xphase = some group) && p.2.xchg && decide (p.2.occ = .resident) &&
    (match p.2.wait with | .xend => false | .portIn _ => false | .portOut _ => false | _ => true))).map (·.1)

/-- The exchange cycle of a member's next instruction. (assumption 99, DESIGN CHOICE) -/
def nextX (s : State) (tid : Nat) : Nat := nextCount s tid - (s.thread tid).xcyc

/-- Whether a pushed word may be popped: one pushed in exchange cycle c, once no running member of its phase issues before c + 2 (R173). -/
def pushDue (s : State) (p : PWord) : Bool :=
  match p.bolt, p.xat with
  | some b, some (j, c) => (xRunning s b j).all (fun m => decide (nextX s m ≥ c + 2))
  | _, _ => true

/-- A member of an exchange phase issues next no earlier than exchange cycle `c` (R302). -/
def notBefore (s : State) (tid c : Nat) : State :=
  let t := s.thread tid
  if t.xchg ∧ nextX s tid < c then s.setThread tid { t with cnt := t.cnt + (c - nextX s tid) } else s

/-- A thread that waits at a port issues again when its queue gains a word (R173): in an exchange phase in cycle c + 2 at the earliest. -/
def wakePort (p : PWord) (s : State) (core : Nat) : State := (residents s core).foldl (fun s tid =>
  match (s.thread tid).wait with
  | .portIn _ => setWait (match p.xat with | some (_, c) => notBefore s tid (c + 2) | none => s) tid .none
  | _ => s) s

/-- Whether a cluster may receive a word of a bolt: no word of any bolt reaches a cluster in quarantine or free; the discovery program's is
Rolnis's own act (R344). -/
def takesWord (s : State) (p : PWord) : Bool :=
  match p.bolt with
  | some b => decide (b = 0) || decide ((s.cluster (clusterOf p.core)).owner = .bolt b)
  | none => true

/-- PORT_WORD_ARRIVAL (R173): a pushed word enters its arrival queue; words of one side keep their order. One for a cluster that has
left the bolt since is lost (R344). (assumption 69, DEDUCED) -/
def portWordArrival (s : State) (n : Nat) : State :=
  match s.pwords[n]? with
  | none => s
  | some p =>
    if (s.pwords.take n).any (fun x => decide (x.core = p.core) && decide (x.side = p.side)) || !pushDue s p then s
    else if !takesWord s p then { s with pwords := s.pwords.eraseIdx n }
    else
      let c := s.core p.core
      wakePort p ({ s with pwords := s.pwords.eraseIdx n }.setCore p.core { c with ports := Map.set c.ports p.side.toNat (portQueue c p.side ++ [p.word]) }) p.core

/-- PORT_WORD_ARRIVAL (R173). -/
def execPortWordArrival (n : Nat) (s : State) : Step := .next (portWordArrival s n)

end Sys2Proof.Machine
end

