-- ==== Sys2Proof/Machine/Tokens.lean ====
section
/-!
DEFINITION. Asynchronous commands: dispatch, sequence numbers and ring entries (R331), tokens and status words (R138 to R141),
engines out of service (R325); the answers of global accesses (R72); and the event rows TOKEN_COMPLETION, LOAD_REPLY and
ENGINE_OUT_OF_SERVICE.
-/
namespace Sys2Proof.Machine

/-- The address of an instruction's first parcel, in the state in which it has issued. -/
def firstParcel (s : State) (q : Pre) : W64 := s.t.pc - BitVec.ofNat 64 (2 * q.parcels)

/-! ## Dispatch (R331) -/

/-- COPROC: the engine of a command is out of service: 1 copy engine, 2 matrix unit, 3 Sorter (R325). -/
def inService (out : Bool) (engine : Nat) (base : Parcel) : Res Unit :=
  if out then faultR .coproc (BitVec.ofNat 64 (engine * 65536 + base.toNat)) else .ok ()

/-- A command dispatches: it takes the core's next sequence number and a ring entry, or waits while all 32 are taken. -/
def takeRing (q : Pre) (page : Nat) (base : Parcel) (s : State) : Res (State × SeqNo) :=
  let c := s.c
  if c.ring.length ≥ 32 then waitR .place
  else
    let n : SeqNo := { num := c.seq, id := s.accs }
    let r : Ring := { seq := n, tid := s.cur, slot := slotOf s.cur, pc := firstParcel s q, page := page, major := base.toNat / 1024, m := base.toNat % 4 }
    .ok ({ s with accs := s.accs + 1 }.setC { c with ring := r :: c.ring, seq := c.seq + 1 }, n)

/-- The ring entry a window read of sequence number `n` finds: of two commands of one number, the later (R331). (assumption 60, DESIGN
CHOICE) -/
def ringAt (c : Core) (n : BitVec 8) : Option Ring := c.ring.find? (fun r => decide (r.seq.num = n))

/-- The command's token is marked not ready (R138); `cls` says who waits for the command (R276, R295). -/
def markToken (s : State) (d : Reg) (seq : SeqNo) (cls : Nat) : State :=
  let t := s.t
  s.setT { t with pending := if d = 0 then t.pending else t.pending ++ [d.toNat], cmds := t.cmds ++ [(seq, d.toNat, cls)] }

/-! ## Completion (R139, R140) -/

/-- The status word; PROGRESS, a field of 32 bits, shows a count of 2^32 or more modulo 2^32. (assumption 90, DESIGN CHOICE) -/
def statusOf (kind code progress : Nat) (seq : SeqNo) : W64 :=
  BitVec.ofNat 64 (progress % 2 ^ 32 * 2 ^ 32 + seq.num.toNat * 2 ^ 16 + kind * 2 ^ 8 + code)

/-- A command ends: its status word, and its late fault if any, set out for the issuing thread. -/
def complete (s : State) (tid tok : Nat) (seq : SeqNo) (kind code progress : Nat) (late : Option Cause) : State :=
  { s with completions := s.completions ++ [{ tid := tid, reg := tok, word := statusOf kind code progress seq, seq := seq, late := late }] }

/-- An IDLE of the thread ends (R339). -/
def wakeIdle (s : State) (tid : Nat) : State :=
  if (s.thread tid).wait = .idle then
    let s1 := setWait s tid .none
    s1.setThread tid { s1.thread tid with tokDone := false }
  else s

/-- TOKEN_COMPLETION (R139, R269): the status word is written and the late fault recorded with it; without one the ring
entry is freed. A result that its register cannot take yet waits. A thread that has retired discards it; what an image fault of its launch would have recorded is then reported to
Rolnis (R295, R390). -/
def tokenCompletion (s : State) (n : Nat) : State :=
  match s.completions[n]? with
  | none => s
  | some x =>
    if (s.thread x.tid).cmds.any (fun c => decide (c.1 = x.seq)) && !landRoom s x.tid (BitVec.ofNat 6 x.reg) then s else
    let s1 := { s with completions := s.completions.eraseIdx n }
    let s1 := if x.late.isNone then freeRing s1 x.seq else s1
    let t := s1.thread x.tid
    if t.occ = .empty ∨ !t.cmds.any (fun c => decide (c.1 = x.seq)) then
      match x.late with
      | none => s1
      | some c => match x.image with
        | some (rec_, tv) => report (freeRing s1 x.seq) { cause := c, tid := x.tid, tval := tv, pc := rec_ }
        | none => freeRing s1 x.seq
    else
      let s2 := s1.setThread x.tid { t with pending := t.pending.erase x.reg, cmds := t.cmds.filter (fun c => decide (c.1 ≠ x.seq)), tokDone := true }
      let s3 := withCur x.tid (fun s => putReg s (BitVec.ofNat 6 x.reg) (Val.ofW x.word)) s2
      let s4 := match x.late with
        | some c => recordLate s3 x.tid c x.seq
        | none => s3
      wakeIdle s4 x.tid

/-! ## Answers of global accesses (R72) -/

/-- An access of the current thread awaits its parts. (assumption 17, DEDUCED) -/
def awaitAnswer (s : State) (a : Await) : State :=
  setWait { s.setT { s.t with await := some { a with acc := s.accs } } with accs := s.accs + 1 } s.cur .answer

/-- A register or group loaded from the bytes an access gathered. -/
def loadInto (s : State) (a : Await) : State :=
  let v := bytesToNat ((List.range a.size).map (fun i => Map.get a.bytes i 0))
  match a.ext with
  | .group => s.setT (setVec s.t (BitVec.ofNat 6 a.dst) v)
  | e => putReg s (BitVec.ofNat 6 a.dst) { bits := extend e (8 * a.size) v, tag := a.tag }

/-- A seam member that has completed the instruction it awaited passes to its next index; a stopped one has performed its ATOM or
its HCALL (R309, R317). What a head's handler runs has no index (R327). -/
def memberPast (s : State) (tid : Nat) (stoppedToo : Bool) : State :=
  let t := s.thread tid
  match t.seam with
  | some m => if t.seamed && !t.handler && (!m.stopped || stoppedToo) then s.setThread tid { t with seam := some { m with next := m.next + 1 } } else s
  | none => s

/-- WAITV's first value has arrived (R306): it completes when it differs from the word waited on, else the thread waits on the
line. The access it issues at the end of that wait is a plain one. -/
def watchAnswer (s : State) (tid : Nat) (a : Await) (va : Nat) (w : W64) : State :=
  let v := bytesToNat ((List.range 8).map (fun i => Map.get a.bytes i 0))
  let t := s.thread tid
  if v ≠ w.toNat then
    memberPast (setWait (withCur tid (fun s => loadInto s a) (s.setThread tid { t with await := none })) tid .none) tid false
  else setWait (s.setThread tid { t with await := some { a with bytes := [], parts := 0 } }) tid (.watch va s.gtime)

/-- An element of a read stream has arrived whole: it joins the fetched ones in its turn (R171). -/
def streamArrival (s : State) (key : Nat) : State :=
  let tid := key / 64
  let t := s.thread tid
  match Map.get (s.bolt t.bolt).pulls key [], Map.find t.binds (key % 64) with
  | [p], some (.stream false cap st n w sx pol pos fetched) =>
    if p.over && p.fault.isNone && decide (p.stamp = pos + fetched.length) then
      let v := elementVal cap st w sx p.stamp (bytesToNat p.data_) p.tag
      (endPulls s t.bolt key).setThread tid { t with binds := Map.set t.binds (key % 64) (.stream false cap st n w sx pol pos (fetched ++ [v])) }
    else s
  | _, _ => s

/-- An answer reaches the agent it is for. -/
def agentReply (s : State) (a : Agent) (y : Reply) : State :=
  let s1 := answerPull s a y
  if a.key < 2 ^ 60 ∧ a.key % 64 ≠ 0 then streamArrival s1 a.key else s1

/-- Whether the register of an access can take the result that an answer would complete. -/
def loadRoom (s : State) (y : Reply) : Bool :=
  match (s.thread y.tid).await with
  | some a => decide (a.acc ≠ y.acc) || decide (a.parts ≠ 1) || decide (a.ext = .group) || landRoom s y.tid (BitVec.ofNat 6 a.dst)
  | none => true

/-- LOAD_REPLY (R72, R108): a part's bytes arrive; with the last one the register is written, or the first fault met is taken at
the instruction, which has changed nothing. An answer to an abandoned access is discarded. (assumption 17, DEDUCED) -/
def loadReply (s : State) (n : Nat) : State :=
  match s.replies[n]? with
  | none => s
  | some r =>
    if r.held s || behind s r.port r.src r.no r.cls || (r.agent.isNone && !loadRoom s r) then s else
    let s1 := { s with replies := s.replies.eraseIdx n }
    match r.agent with
    | some a => agentReply s1 a r
    | none =>
    let t := s1.thread r.tid
    match t.await with
    | none => s1
    | some a =>
      if a.acc ≠ r.acc ∨ a.parts = 0 then s1
      else
        let a1 : Await := { a with
          bytes := (List.range r.bytes.length).foldl (fun m i => Map.set m (r.off + i) (r.bytes.getD i 0)) a.bytes
          tag := a.tag || r.tag
          parts := a.parts - 1
          fault := match a.fault with | some f => some f | none => r.fault }
        let s2 := s1.setThread r.tid { t with await := some a1 }
        if a1.parts > 0 then s2
        else match a1.fault with
          | some (c, tv) =>
            let back := giveBack (s2.setThread r.tid { t with await := none, wait := .none, pc := a.pc, binds := a.binds, stage := 0 }) r.tid a.popped
            takeTrap back r.tid c tv a.pc false false false 0
          | none =>
            match a1.watch with
            | some (va, w) => watchAnswer s2 r.tid a1 va w
            | none =>
              memberPast (setWait (withCur r.tid (fun s => loadInto s a1) (s2.setThread r.tid { t with await := none })) r.tid .none) r.tid a1.atom

/-! ## Event rows -/

/-- TOKEN_COMPLETION (R139). -/
def execTokenCompletion (n : Nat) (s : State) : Step := .next (tokenCompletion s n)
/-- LOAD_REPLY (R72). -/
def execLoadReply (n : Nat) (s : State) : Step := .next (loadReply s n)
/-- ENGINE_OUT_OF_SERVICE (R325): 1 copy engine, 2 matrix unit of a cluster; 3 the Sorter of a die. -/
def execEngineOutOfService (engine : BitVec 4) (unit : Nat) (out : Bool) (s : State) : Step :=
  match engine.toNat with
  | 1 => if unit < Config.clusters then .next (s.setCluster unit { s.cluster unit with copyOut := out }) else .fault .noSuchUnit
  | 2 => if unit < Config.clusters then .next (s.setCluster unit { s.cluster unit with matrixOut := out }) else .fault .noSuchUnit
  | 3 => if unit < Config.dies then .next (s.setDie unit { s.die unit with sorter := { (s.die unit).sorter with out := out } }) else .fault .noSuchUnit
  | _ => .fault .noSuchUnit

end Sys2Proof.Machine
end

