-- ==== Sys2Proof/Machine/Control.lean ====
section
/-!
DEFINITION. Control registers and the targets of the coprocessor ring window: what RDC reads and WRC writes (R177 to R181), the
rule of each target (R132, R162, R260, R289, R298, R318, R331, R358, R361), and the write event rows.
-/
namespace Sys2Proof.Machine

/-! ## Fields -/

/-- The PERMT mask j of a cluster (R345). -/
def permtWord (c : Cluster) (j : Nat) : W64 :=
  BitVec.ofNat 64 ((List.range 64).map (fun k => if c.permt.contains (64 * j + k) then 2 ^ k else 0)).sum

/-- DSTATE (R119). -/
def dstateWord (c : Cluster) : W64 := BitVec.ofNat 64 (c.reads % 256 * 65536 + c.loads % 256 * 256 + c.dstate.toNat)

/-- Whether a thread runs the handler of a SEAMFRAY it took as a head (R318, R319). -/
def inFrayHandler (t : Thread) : Bool :=
  frayRuns t && decide (t.cause.setWidth 8 = (0x10 : BitVec 8))

/-- The PC a stream logged for an index (R317). -/
def loggedPc (st : Stream) (i : Nat) : W64 := Map.get st.log i 0

/-- The lowest resume index of any member: the index SRESUME restarts from (R319). -/
def restartIndex (s : State) (head : Nat) : Nat :=
  (leastNat ((seamMembers s head).filterMap (fun j => (s.thread j).seam.map (·.next)))).getD 0

/-- The fray record (R318); the stream index is one of 32 bits (R309). -/
def frayWord (s : State) (k : Nat) : W64 :=
  match s.t.strm with
  | some st =>
    if !inFrayHandler s.t then 0
    else match k with
      | 0 => st.frayTval
      | 1 => loggedPc st st.frayIndex
      | _ => BitVec.ofNat 64 (restartIndex s s.cur % 2 ^ 32)
  | none => 0

/-- The descriptor of a coprocessor ring entry (R331). -/
def ringWord (c : Core) (seq : BitVec 8) : W64 :=
  match ringAt c seq with
  | some r => BitVec.ofNat 64 (2 ^ 63 + r.fault.toNat * 2 ^ 62 + seq.toNat * 2 ^ 24 + r.slot * 2 ^ 16 + r.page * 2 ^ 10 + r.major * 2 ^ 4 + r.m)
  | none => 0

/-- A word of a bolt's group table; entry 0 is always bound (R289). -/
def groupTableWord (b : Bolt) (k : Nat) : W64 :=
  let v := Map.get b.groups k 0#64
  if k = 3 then v ||| (1#64 <<< 32) else v

/-- SEAMPOS of a thread (R316). -/
def seamposWord (t : Thread) : W64 := if t.seamed then t.seampos else 0

/-! ## The ring window (R178) -/

/-- A layout-table word of the thread's die; in user mode a word of an entry that is not the bolt's reads 0 (R260). -/
def layoutRead (s : State) (k : Nat) : W64 :=
  let tab := (s.die (dieOf s.curCore)).sorter.layout
  let w3 := Map.get tab (k / 4 * 4 + 3) 0#64
  let mine := w3.getLsbD 8 && decide (w3.toNat % 256 = s.t.bolt % 256)
  if !s.t.mode && !mine then 0 else Map.get tab k 0#64

/-- A CPRD read of the target `n` (R178). -/
def readTarget (s : State) (n : Nat) : W64 :=
  if 0x100 ≤ n ∧ n ≤ 0x1FF then (match ringAt s.c (BitVec.ofNat 8 (n - 0x100)) with | some r => r.pc | none => 0)
  else if 0x200 ≤ n ∧ n ≤ 0x2FF then ringWord s.c (BitVec.ofNat 8 (n - 0x200))
  else if 0x800 ≤ n ∧ n ≤ 0x80F then (if s.t.mode then Map.get s.cl.lpreg (n - 0x800) 0#64 else 0)
  else if 0x1000 ≤ n ∧ n ≤ 0x10FF then layoutRead s (n - 0x1000)
  else if 0x2000 ≤ n ∧ n ≤ 0x23FF then groupTableWord s.b (n - 0x2000)
  else if n = 0x3000 then s.b.evict.setWidth 64
  else if n = 0x3001 then BitVec.ofNat 64 (s.b.lost / 1600)
  else if n = 0x3002 then s.b.ltvec
  else if 0x4000 ≤ n ∧ n ≤ 0x4002 then frayWord s (n - 0x4000)
  else if n = 0x5000 then s.b.trctl
  else if 0x5001 ≤ n ∧ n ≤ 0x5004 then Map.get s.b.trig (n - 0x5001) 0#64
  else if n = 0x5005 then BitVec.ofNat 64 (s.cl.trWptr * 2 ^ 32 + s.cl.trWrap.toNat * 2 ^ 31 + s.cl.trBase)
  else 0

/-- A write of a protection-unit region: reserved bits stay 0 (R132). -/
def lpregWrite (s : State) (k : Nat) (v : W64) : State :=
  s.setCl { s.cl with lpreg := Map.set s.cl.lpreg k (v &&& 0x8F0001FF000001FF#64) }

/-- A write of a layout-table word under ownership and mode (R260). -/
def layoutWrite (s : State) (k : Nat) (v : W64) : Res State :=
  let d := dieOf s.curCore
  let so := (s.die d).sorter
  let w3 := Map.get so.layout (k / 4 * 4 + 3) 0#64
  let mine := w3.getLsbD 8 && decide (w3.toNat % 256 = s.t.bolt % 256)
  if !s.t.mode && (decide (k % 4 = 3) || !mine) then faultR .perm (BitVec.ofNat 64 (0x1000 + k))
  else
    let v' := if k % 4 = 3 then v &&& 0x1FF#64 else if k % 4 = 1 then v &&& 0x00FFFFFFFFFFFFFF#64 else v
    .ok (s.setDie d { s.die d with sorter := { so with layout := Map.set so.layout k v' } })

/-- A write of a group-table word: ignored for entry 0, for a bound entry and for words 2 and 3 (R289). -/
def groupWrite (s : State) (k : Nat) (v : W64) : State :=
  let bound := (Map.get s.b.groups (k / 4 * 4 + 3) 0#64).getLsbD 32
  if k < 4 ∨ bound ∨ k % 4 ≥ 2 then s
  else s.setB { s.b with groups := Map.set s.b.groups k (if k % 4 = 0 then v &&& 0x0000FFFFFFFF0003#64 else v) }

/-- Capture starts in a cluster: a TIME record, then a BOUNDARY record (R362). (assumption 45, DEDUCED) -/
def startRing (s : State) (b cl : Nat) : State :=
  traceNote (traceNote s { cluster := cl, kind := 1, rest := [s.gtime % 2 ^ 32, s.gtime / 2 ^ 32 % 2 ^ 32] })
    { cluster := cl, kind := 3, rest := [(s.bolt b).sstep % 2 ^ 32] }

/-- TRCTL with EN, FRZ and STOPREQ as given; STOPPED is kept. A start writes its records whether or not capture runs already (R361,
R362). (assumption 45, DEDUCED) -/
def setTrctl (s : State) (b : Nat) (en frz stop start : Bool) : State :=
  let old := (s.bolt b).trctl
  let w : W64 := BitVec.ofNat 64 (en.toNat * 2 ^ 63 + frz.toNat * 2 ^ 62 + stop.toNat * 2 ^ 61 + (old.getLsbD 60).toNat * 2 ^ 60)
  let s1 := s.setBolt b { s.bolt b with trctl := w }
  if start then (s.bolt b).clusters.foldl (fun s cl => startRing s b cl) s1 else s1

/-- A write of TRCTL: EN stays 0 while FRZ is or becomes 1 (R361); one that sets EN starts capture (R362). (assumption 29, DEDUCED) -/
def trctlWrite (s : State) (b : Nat) (v : W64) : State :=
  let frz := v.getLsbD 62
  let en := v.getLsbD 63 && !frz && !(s.bolt b).trctl.getLsbD 62
  setTrctl s b en frz (v.getLsbD 61) en

/-- A write of TRRING: ignored while the bolt captures (R361). -/
def trringWrite (s : State) (v : W64) : State :=
  if s.b.trctl.getLsbD 63 then s
  else s.setCl { s.cl with trBase := v.toNat % 32, trWptr := 0, trWrap := false }

/-- Whether a matrix request reads or writes local memory: MM, MDRAIN, MACC.LOAD and STORE, the walks. -/
def MReq.windowed (r : MReq) : Bool := decide (r.kind ∈ [1, 2, 3, 4, 5, 7, 8])

/-- A write of a protection-unit region as CPRD makes it: it takes effect for every access granted after it, so it waits until the
accesses that were checked before it have been granted: those at the banks, the gathers' windows, and what the matrix requests name
(R133). (assumption 76, DEDUCED) -/
def lpregAfterGrants (s : State) (k : Nat) (v : W64) : Res State :=
  if !s.t.mode then faultR .perm (BitVec.ofNat 64 (0x800 + k))
  else if s.cl.lq.isEmpty && s.cl.gq.isEmpty && (liveCores s s.curCluster).all (fun c => !(s.core c).mq.any (·.windowed)) then .ok (lpregWrite s k v)
  else waitR .place

/-- A write that R289's rule governs: PERM with the target's number in user mode. -/
def guarded (s : State) (n : Nat) (f : State → State) : Res State :=
  if s.t.mode then .ok (f s) else faultR .perm (BitVec.ofNat 64 n)

/-- A CPRD write of the target `n` under its own rule (R178). -/
def writeTarget (s : State) (n : Nat) (v : W64) : Res State :=
  if 0x800 ≤ n ∧ n ≤ 0x80F then lpregAfterGrants s (n - 0x800) v
  else if 0x1000 ≤ n ∧ n ≤ 0x10FF then layoutWrite s (n - 0x1000) v
  else if 0x2000 ≤ n ∧ n ≤ 0x23FF then guarded s n (fun s => groupWrite s (n - 0x2000) v)
  else if n = 0x3000 then guarded s n (fun s => s.setB { s.b with evict := v.setWidth 32 })
  else if n = 0x3001 then guarded s n id
  else if n = 0x3002 then guarded s n (fun s => s.setB { s.b with ltvec := v &&& ~~~1#64 })
  else if n = 0x5000 then guarded s n (fun s => trctlWrite s s.t.bolt v)
  else if 0x5001 ≤ n ∧ n ≤ 0x5004 then
    guarded s n (fun s => s.setB { s.b with trig := Map.set s.b.trig (n - 0x5001) (v &&& 0xFC000000FFFFFFFF#64) })
  else if n = 0x5005 then guarded s n (fun s => trringWrite s v)
  else .ok s

/-! ## Control registers (R177) -/

/-- The value RDC reads; a number that names no register reads 0. -/
def readCr (s : State) (n : Nat) : W64 :=
  let t := s.t
  if 0x008 ≤ n ∧ n ≤ 0x00B then (Map.get t.gslot (n - 8) 0#9).setWidth 64
  else if 0x110 ≤ n ∧ n ≤ 0x11F then (Map.get s.c.evc (n - 0x110) 0#32).setWidth 64
  else if 0x120 ≤ n ∧ n ≤ 0x12F then (Map.get s.c.evs (n - 0x120) 0#11).setWidth 64
  else if 0x300 ≤ n ∧ n ≤ 0x303 then permtWord s.cl (n - 0x300)
  else if 0x307 ≤ n ∧ n ≤ 0x30A then Map.get s.b.rate (n - 0x307) 0#64
  else match n with
    | 0x000 => statusWord t s.c.phase
    | 0x001 => t.cause
    | 0x002 => t.tval
    | 0x003 => t.tpc
    | 0x004 => t.tvec
    | 0x005 => t.frm.setWidth 64
    | 0x006 => t.pol.setWidth 64
    | 0x007 => allocWord (freeEntries s s.curCore) t.allot
    | 0x00C => t.tidx.setWidth 64
    | 0x00D => t.blockReg.setWidth 64
    | 0x00E => seamposWord t
    | 0x00F => streamstWord t
    | 0x100 => BitVec.ofNat 64 s.gtime
    | 0x101 => BitVec.ofNat 64 s.c.cycle
    | 0x102 => s.c.cpri.setWidth 64
    | 0x103 => readTarget s s.c.cpri.toNat
    | 0x104 => s.c.seq.setWidth 64
    | 0x200 => BitVec.ofNat 64 s.curCluster
    | 0x201 => 0x200000
    | 0x202 => dstateWord s.cl
    | 0x304 => BitVec.ofNat 64 t.bolt
    | 0x305 => BitVec.ofNat 64 s.b.sstep
    | 0x306 => s.b.wdog
    | 0x30B => t.qclass.setWidth 64
    | _ => 0

/-- PERMTj written on the thread's cluster: only bits of clusters its bolt owns (R345). -/
def permtWrite (s : State) (j : Nat) (v : W64) : State :=
  let mine := (List.range 64).filter (fun k => v.getLsbD k && decide ((s.cluster (64 * j + k)).owner = .bolt s.t.bolt))
  s.setCl { s.cl with permt := s.cl.permt.filter (fun c => decide (c / 64 ≠ j)) ++ mine.map (64 * j + ·) }

/-- WDOG written: the counter restarts, arming clears FIRED (R359). (assumption 29, DEDUCED) -/
def wdogWrite (s : State) (v : W64) : State :=
  let fired := !v.getLsbD 63 && s.b.wdog.getLsbD 62
  s.setB { s.b with wdog := (v &&& 0x80000000FFFFFFFF#64) ||| (if fired then 1#64 <<< 62 else 0), wcount := 0, wfired := false }

/-- RATEj written, BURST and RATE cut to the bolt's ceilings; the bucket never holds more than its capacity (R357). (assumption 29, DEDUCED) -/
def rateWrite (s : State) (j : Nat) (v : W64) : State :=
  let ceil := (Map.get s.b.rateCeil j 0x0000FFFFFFFFFFFF#64).toNat
  let burst := min (bits v.toNat 47 32) (bits ceil 47 32)
  let rate := min (bits v.toNat 31 0) (bits ceil 31 0)
  let w : W64 := BitVec.ofNat 64 ((v.getLsbD 63).toNat * 2 ^ 63 + burst * 2 ^ 32 + rate)
  s.setB { s.b with rate := Map.set s.b.rate j w, bucket := Map.set s.b.bucket j (min (Map.get s.b.bucket j 0) ((burst * 1024000 : Nat) : Int)) }

/-- The class a QCLASS write stores: 0 becomes 1 unless the bolt has class 0 (R355). (assumption 52, DEDUCED) -/
def qclassOf (s : State) (v : W64) : BitVec 2 := if v.toNat % 4 = 0 ∧ !s.b.class0 then 1 else v.setWidth 2

/-- A WRC in supervisor mode to a register of 0x000 to 0x00F or 0x300 to 0x30A (R177, R326). (assumption 28, DEDUCED) -/
def writeSup (s : State) (n : Nat) (v : W64) : State :=
  let t := s.t
  if 0x300 ≤ n ∧ n ≤ 0x303 then permtWrite s (n - 0x300) v
  else if 0x307 ≤ n ∧ n ≤ 0x30A then rateWrite s (n - 0x307) v
  else match n with
    | 0x000 => s.setT { t with check := v.getLsbD 1, mode := v.getLsbD 0 }
    | 0x001 => s.setT { t with cause := (t.cause &&& ~~~0x300#64) ||| (v &&& 0x300#64) }
    | 0x002 => s.setT { t with tval := v }
    | 0x003 => s.setT { t with tpc := v }
    | 0x004 => s.setT { t with tvec := v &&& ~~~1#64 }
    | 0x306 => wdogWrite s v
    | _ => s

/-- WRC's effect, QCLASS apart: what user mode may write, then what only supervisor mode may (R177, R178). (assumption 28, DEDUCED) -/
def writeCr (s : State) (n : Nat) (v : W64) : Res State :=
  let t := s.t
  if 0x110 ≤ n ∧ n ≤ 0x11F then .ok (s.setC { s.c with evc := Map.set s.c.evc (n - 0x110) (v.setWidth 32) })
  else if 0x120 ≤ n ∧ n ≤ 0x12F then .ok (s.setC { s.c with evs := Map.set s.c.evs (n - 0x120) (v.setWidth 11) })
  else if n = 0x005 then .ok (s.setT { t with frm := v.setWidth 2 })
  else if n = 0x006 then .ok (s.setT { t with pol := v.setWidth 32 })
  else if n = 0x102 then .ok (s.setC { s.c with cpri := v.setWidth 16 })
  else if n = 0x103 then writeTarget s s.c.cpri.toNat v
  else if t.mode then .ok (writeSup s n v)
  else if n = 0x000 then .ok (s.setT { t with check := v.getLsbD 1 })
  else .ok s

/-- z0 to z3 (R181). -/
def isZ (n : Nat) : Bool := decide (0x010 ≤ n ∧ n ≤ 0x013)

/-- RDC (R181). -/
def execRdc (q : Pre) (d : Reg) (i : W64) (s : State) : Step :=
  let n := i.toNat
  issue q { base := baseParcel (.rdc q d i), ok := decide (n ≤ 0xFFF), writes := [d], lat := if n = 0x100 ∨ n = 0x101 then none else some 1 }
    (fun s =>
      if isZ n then writeReg s d (if s.t.handler then Map.get s.t.z (n - 0x010) {} else {})
      else writeW s d (readCr s n)) s

/-- WRC (R181): 0x300 to 0x3FF are privileged (R60); a change of QCLASS waits for the thread's earlier accesses (R355). -/
def execWrc (q : Pre) (d : Reg) (i : W64) (s : State) : Step :=
  let n := i.toNat
  issue q { base := baseParcel (.wrc q d i), ok := decide (n ≤ 0xFFF), priv := decide (0x300 ≤ n ∧ n ≤ 0x3FF), reads := [d] }
    (fun s => do
      let (s1, v) ← readReg s d
      if isZ n then
        pure (if s1.t.handler then s1.setT { s1.t with z := Map.set s1.t.z (n - 0x010) v } else s1)
      else if n = 0x30B then
        if qclassOf s1 v.lo = s1.t.qclass then pure s1
        else if !accessesDone s1 then waitR .qclass
        else pure (s1.setT { s1.t with qclass := qclassOf s1 v.lo })
      else writeCr s1 n v.lo) s

/-! ## The write event rows -/

/-- The threads of the module. -/
def isThread (tid : Nat) : Bool := hasThread tid

/-- A write a thread's rule refuses changes nothing. -/
def accepted (s : State) (r : Res State) : State := match r with | .ok s' => s' | .error _ => s

/-- A write event of a thread. -/
def writeEvent (tid : Nat) (f : State → Res State) (s : State) : Step :=
  if isThread tid then .next (withCur tid (fun s => accepted s (f s)) s) else .fault .noSuchUnit

/-- QCLASS_WRITE (R355): a change is stored once no earlier access of the thread is out. (assumption 52, DEDUCED) -/
def execQclassWrite (tid : Nat) (v : W64) (s : State) : Step :=
  writeEvent tid (fun s =>
    if !s.t.mode then .ok s
    else if qclassOf s v = s.t.qclass then .ok s
    else if !accessesDone s then .ok s
    else .ok (s.setT { s.t with qclass := qclassOf s v })) s
/-- PERMT_WRITE (R345). -/
def execPermtWrite (tid j : Nat) (v : W64) (s : State) : Step :=
  writeEvent tid (fun s => .ok (if s.t.mode ∧ j < 4 then permtWrite s j v else s)) s
/-- WDOG_WRITE (R359). -/
def execWdogWrite (tid : Nat) (v : W64) (s : State) : Step := writeEvent tid (fun s => .ok (if s.t.mode then wdogWrite s v else s)) s
/-- RATE_WRITE (R357). -/
def execRateWrite (tid j : Nat) (v : W64) (s : State) : Step :=
  writeEvent tid (fun s => .ok (if s.t.mode ∧ j < 4 then rateWrite s j v else s)) s
/-- TRCTL_WRITE (R362). -/
def execTrctlWrite (tid : Nat) (v : W64) (s : State) : Step := writeEvent tid (fun s => writeTarget s 0x5000 v) s
/-- TRRING_WRITE (R361). -/
def execTrringWrite (tid : Nat) (v : W64) (s : State) : Step := writeEvent tid (fun s => writeTarget s 0x5005 v) s
/-- LPREG_WRITE (R133). -/
def execLpregWrite (tid j : Nat) (v : W64) (s : State) : Step :=
  writeEvent tid (fun s => if j < 16 then writeTarget s (0x800 + j) v else .ok s) s
/-- LAYOUT_TABLE_WRITE (R260). -/
def execLayoutTableWrite (tid j : Nat) (v : W64) (s : State) : Step :=
  writeEvent tid (fun s => if j < 256 then writeTarget s (0x1000 + j) v else .ok s) s
/-- GROUP_TABLE_WRITE (R289). -/
def execGroupTableWrite (tid j : Nat) (v : W64) (s : State) : Step :=
  writeEvent tid (fun s => if j < 1024 then writeTarget s (0x2000 + j) v else .ok s) s
/-- EVC_WRITE (R368). -/
def execEvcWrite (tid j : Nat) (v : W64) (s : State) : Step :=
  writeEvent tid (fun s => if j < 16 then writeCr s (0x110 + j) v else .ok s) s
/-- EVS_WRITE (R368). -/
def execEvsWrite (tid j : Nat) (v : W64) (s : State) : Step :=
  writeEvent tid (fun s => if j < 16 then writeCr s (0x120 + j) v else .ok s) s
/-- CONTROL_REGISTER_WRITE (R177): numbers up to 0xFFF are control registers, those above ring registers. -/
def execControlRegisterWrite (tid j : Nat) (v : W64) (s : State) : Step :=
  writeEvent tid (fun s =>
    if j ≤ 0xFFF then (if isZ j ∨ (0x300 ≤ j ∧ j ≤ 0x3FF ∧ !s.t.mode) then .ok s else writeCr s j v) else writeTarget s j v) s

end Sys2Proof.Machine
end

