-- ==== Sys2Proof/Machine/Capins.lean ====
section
/-!
DEFINITION. MOV and the capability instructions (R163, R164).
-/
namespace Sys2Proof.Machine

/-- MOV: the register with its tag (R164); with a port-bound operand it stays legal in an exchange phase (R302). -/
def execMov (q : Pre) (d r : Reg) (s : State) : Step :=
  issue q { base := baseParcel (.mov q d r), reads := [r], writes := [d], lat := some 1, xport := true }
    (fun s => do
      let (s1, v) ← readReg s r
      writeReg s1 d v) s

/-- A result computed from s, and from a second operand: an immediate, or t read after s (R163). -/
def capOp (i : Instr) (q : Pre) (d r : Reg) (t : Option Reg) (imm : W64) (f : Val → W64 → Res Val) (s : State) : Step :=
  issue q { base := baseParcel i, reads := r :: t.toList, writes := [d], lat := some 1 }
    (fun s => do
      let (s1, v) ← readReg s r
      let (s2, op) ← (match t with
        | some t => readW s1 t
        | none => Except.ok (s1, imm))
      let v' ← f v op
      writeReg s2 d v') s

/-- The cursor moved by an increment (R164). -/
def cincVal (v : Val) (op : W64) : Val := capMove v (v.lo + op)

/-- The smallest exponent for `[c, c+n)` at or above `e` (R164). -/
def setbExp (c n : Nat) : Nat → Nat → Nat
  | 0, e => e
  | f + 1, e => if ceilDiv (c + n) (2 ^ e) - c / 2 ^ e ≤ 2 ^ 20 then e else setbExp c n f (e + 1)

/-- A capability of its fields (R154). -/
def capOf (cursor : W64) (perm e bm tm : Nat) : Val :=
  { bits := BitVec.ofNat 128 (cursor.toNat + perm % 2 ^ 16 * 2 ^ 64 + e % 64 * 2 ^ 80 + bm % 2 ^ 21 * 2 ^ 86 + tm % 2 ^ 21 * 2 ^ 107), tag := true }

/-- CSETB (R164). -/
def csetbVal (r : Reg) (v : Val) (op : W64) : Res Val :=
  let c := v.nat
  let n := op.toNat
  if !v.tag then faultR .captag (capTval r.toNat false 0 c)
  else if capE v ≥ 45 then faultR .capbound (capTval r.toNat false 2 c)
  else if c + n > 2 ^ 64 then faultR .capbound (capTval r.toNat false 1 c)
  else
    let e := setbExp c n 44 0
    let b := c / 2 ^ e * 2 ^ e
    let t := ceilDiv (c + n) (2 ^ e) * 2 ^ e
    let bd := capBounds v
    if (b : Int) < bd.base then faultR .capbound (capTval r.toNat false 0 b)
    else if (t : Int) > bd.top then faultR .capbound (capTval r.toNat false 1 t)
    else .ok (capOf v.lo (capPerm v) e (b / 2 ^ e) (t / 2 ^ e))

/-- CPERM: the kind is kept, reserved bits cleared (R164). -/
def cpermVal (r : Reg) (v : Val) (op : W64) : Res Val :=
  if !v.tag then faultR .captag (capTval r.toNat false 0 v.nat)
  else if capE v ≥ 45 then faultR .capbound (capTval r.toNat false 2 v.nat)
  else
    let p : BitVec 16 := v.bits.extractLsb' 64 16
    let kind : BitVec 16 := 0x0120
    let p' : BitVec 16 := ((p &&& op.setWidth 16) &&& 0x00DF &&& ~~~kind) ||| (p &&& kind)
    .ok { bits := (v.bits &&& ~~~(0xFFFF#128 <<< 64)) ||| (p'.setWidth 128 <<< 64), tag := true }

/-- The quantities of CGET: untagged sources and malformed bounds give 0 (R164). -/
def cgetVal (what : Nat) (v : Val) : Val :=
  if what = 3 then Val.ofNat v.tag.toNat
  else if !v.tag then {}
  else match what with
    | 0 => if capE v ≥ 45 then {} else { bits := BitVec.ofInt 128 (capBounds v).base }
    | 1 => if capE v ≥ 45 then {} else { bits := BitVec.ofInt 128 (capBounds v).top }
    | _ => Val.ofNat (capPerm v)

/-- CINC with an immediate (R164). -/
def execCinc (q : Pre) (d r : Reg) (i : W64) (s : State) : Step :=
  capOp (.cinc q d r i) q d r none i (fun v op => .ok (cincVal v op)) s
/-- CINC with a register (R164). -/
def execCincReg (q : Pre) (d r t : Reg) (s : State) : Step :=
  capOp (.cincReg q d r t) q d r (some t) 0 (fun v op => .ok (cincVal v op)) s
/-- CSETB with an immediate (R164). -/
def execCsetb (q : Pre) (d r : Reg) (i : W64) (s : State) : Step := capOp (.csetb q d r i) q d r none i (csetbVal r) s
/-- CSETB with a register (R164). -/
def execCsetbReg (q : Pre) (d r t : Reg) (s : State) : Step := capOp (.csetbReg q d r t) q d r (some t) 0 (csetbVal r) s
/-- CPERM with an immediate (R164). -/
def execCperm (q : Pre) (d r : Reg) (i : W64) (s : State) : Step := capOp (.cperm q d r i) q d r none i (cpermVal r) s
/-- CPERM with a register (R164). -/
def execCpermReg (q : Pre) (d r t : Reg) (s : State) : Step := capOp (.cpermReg q d r t) q d r (some t) 0 (cpermVal r) s
/-- CGET.BASE (R164). -/
def execCgetBase (q : Pre) (d r : Reg) (s : State) : Step :=
  capOp (.cgetBase q d r) q d r none 0 (fun v _ => .ok (cgetVal 0 v)) s
/-- CGET.TOP (R164). -/
def execCgetTop (q : Pre) (d r : Reg) (s : State) : Step :=
  capOp (.cgetTop q d r) q d r none 0 (fun v _ => .ok (cgetVal 1 v)) s
/-- CGET.PERM (R164). -/
def execCgetPerm (q : Pre) (d r : Reg) (s : State) : Step :=
  capOp (.cgetPerm q d r) q d r none 0 (fun v _ => .ok (cgetVal 2 v)) s
/-- CGET.TAG (R164). -/
def execCgetTag (q : Pre) (d r : Reg) (s : State) : Step :=
  capOp (.cgetTag q d r) q d r none 0 (fun v _ => .ok (cgetVal 3 v)) s

end Sys2Proof.Machine
end

