-- ==== Sys2Proof/Machine/Transcend.lean ====
section
/-!
DEFINITION. The functions of R219, correctly rounded: each is enclosed between two ratios at a working precision, and the
precision is raised until both ends round alike. Exact results are found apart.
-/
namespace Sys2Proof.Machine

/-! ## Integer roots -/

/-- Newton steps toward ⌊√n⌋ from above. -/
def isqrtFrom (n : Nat) : Nat → Nat → Nat
  | 0, r => r
  | f + 1, r => let r' := (r + n / r) / 2; if r' ≥ r then r else isqrtFrom n f r'

/-- ⌊√n⌋. -/
def isqrt (n : Nat) : Nat := if n = 0 then 0 else isqrtFrom n (Nat.log2 n + 2) (2 ^ (Nat.log2 n / 2 + 1))

/-- ⌈√n⌉. -/
def isqrtUp (n : Nat) : Nat := let r := isqrt n; if r * r = n then r else r + 1

/-! ## Enclosures in units of 2^-p -/

/-- Lower and upper bound of a non-negative number, in units of 2^-p. -/
abbrev Span := Nat × Nat

/-- 2^f for the fraction f = n / 2^k, by square roots of 2 (lowest bit first): 2^(0.b1b2…) = √(2^b1 · √(2^b2 · …)). -/
def exp2Frac (p n : Nat) : Nat → Span → Span
  | 0, s => s
  | k + 1, (lo, hi) =>
    let m := if n.testBit 0 then 2 else 1
    exp2Frac p (n / 2) k (isqrt (lo * m * 2 ^ p), isqrtUp (hi * m * 2 ^ p))

/-- Terms of e^y for y in [x.1, x.2] · 2^-p, y ≤ 1/2, added from the `j`-th on: the sums and the last upper term. -/
def expTerms (p : Nat) (x : Span) : Nat → Nat → Span → Span → Span × Nat
  | 0, _, t, s => (s, t.2)
  | f + 1, j, (tl, th), (sl, sh) =>
    let tl' := tl * x.1 / 2 ^ p / j
    let th' := ceilDiv (ceilDiv (th * x.2) (2 ^ p)) j
    expTerms p x f (j + 1) (tl', th') (sl + tl', sh + th')

/-- Repeated squaring of an enclosure. -/
def squares (p : Nat) : Nat → Span → Span
  | 0, s => s
  | k + 1, (lo, hi) => squares p k (lo * lo / 2 ^ p, ceilDiv (hi * hi) (2 ^ p))

/-- e^x for x = n / d ≥ 0: halved `k` times to at most 1/2, summed, squared back. -/
def expSpan (p n d : Nat) : Span :=
  let k := Nat.log2 (n / d + 1) + 2
  let den := d * 2 ^ k
  let x : Span := (n * 2 ^ p / den, ceilDiv (n * 2 ^ p) den)
  let ((lo, hi), last) := expTerms p x (p / 2 + 8) 1 (2 ^ p, 2 ^ p) (2 ^ p, 2 ^ p)
  squares p k (lo, hi + 2 * last + 2)

/-- Bits of log2 y for y in [1, 2), by squaring; `b` bits still wanted, `acc` those found: the number of bits found too. -/
def log2Bits (p : Nat) : Nat → Nat → Nat → Span → Nat × Nat
  | 0, acc, n, _ => (acc, n)
  | b + 1, acc, n, (lo, hi) =>
    let lo' := lo * lo / 2 ^ p
    let hi' := ceilDiv (hi * hi) (2 ^ p)
    if lo' ≥ 2 ^ (p + 1) then log2Bits p b (acc * 2 + 1) (n + 1) (lo' / 2, ceilDiv hi' 2)
    else if hi' < 2 ^ (p + 1) then log2Bits p b (acc * 2) (n + 1) (lo', hi')
    else (acc, n)

/-! ## Rounding an enclosure -/

/-- A function's enclosure at a working precision: two ratios around an irrational value. -/
abbrev Enclose := Nat → (Nat × Nat) × (Nat × Nat)

/-- The rounded value: the precision doubles until both ends round alike. -/
def ziv (k : Ieee) (mode : BitVec 2) (neg : Bool) (f : Enclose) : Nat → Nat → Nat × Ev
  | 0, p => let (lo, _) := f p; k.roundRatio mode neg lo.1 lo.2 true
  | fuel + 1, p =>
    let (lo, hi) := f p
    let a := k.roundRatio mode neg lo.1 lo.2 true
    let b := k.roundRatio mode neg hi.1 hi.2 true
    if lo.1 ≠ 0 ∧ a = b then a else ziv k mode neg f fuel (2 * p)

/-- The functions of R219. -/
inductive Fn where
  | rcp | rsq | exp2 | log2 | sig | sqrt | tanh
  deriving DecidableEq, Repr

/-- A value strictly between 0 and every magnitude of the formats; one just below 1; one above them all. -/
def tinyRatio : Nat × Nat := (1, 2 ^ 400)
def belowOne : Nat × Nat := (2 ^ 400 - 1, 2 ^ 400)
def hugeRatio : Nat × Nat := (2 ^ 400, 1)

/-- 2^x for a finite x that is no integer. -/
def exp2Value (k : Ieee) (mode : BitVec 2) (neg : Bool) (n d : Nat) : Nat × Ev :=
  if n ≥ 400 * d then (let r := if neg then tinyRatio else hugeRatio; k.roundRatio mode false r.1 r.2 true)
  else
    let j := Nat.log2 d
    let whole := n / d
    let frac := n % d
    ziv k mode false (fun p =>
      let (lo, hi) := exp2Frac p frac j (2 ^ p, 2 ^ p)
      if neg then ((2 ^ p, hi * 2 ^ whole), (2 ^ p, lo * 2 ^ whole)) else ((lo * 2 ^ whole, 2 ^ p), (hi * 2 ^ whole, 2 ^ p))) 5 256

/-- log2 of m·2^e, m no power of two. -/
def log2Value (k : Ieee) (mode : BitVec 2) (m : Nat) (e : Int) : Nat × Ev :=
  let w := Nat.log2 m
  let whole : Int := (w : Int) + e
  ziv k mode (decide (whole < 0)) (fun p =>
    let y : Span := (m * 2 ^ p / 2 ^ w, ceilDiv (m * 2 ^ p) (2 ^ w))
    let (acc, n) := log2Bits p (p / 2) 0 0 y
    let lo : Int := whole * ((2 ^ n : Nat) : Int) + (acc : Int)
    let hi : Int := lo + 1
    if whole < 0 then ((hi.natAbs, 2 ^ n), (lo.natAbs, 2 ^ n)) else ((lo.natAbs, 2 ^ n), (hi.natAbs, 2 ^ n))) 5 256

/-- σ(±n/d). -/
def sigValue (k : Ieee) (mode : BitVec 2) (neg : Bool) (n d : Nat) : Nat × Ev :=
  if n ≥ 300 * d then (let r := if neg then tinyRatio else belowOne; k.roundRatio mode false r.1 r.2 true)
  else ziv k mode false (fun p =>
    let (lo, hi) := expSpan p n d
    let one := 2 ^ p
    if neg then ((one, one + hi), (one, one + lo)) else ((lo, one + lo), (hi, one + hi))) 5 256

/-- tanh(n/d), for n/d > 0. -/
def tanhValue (k : Ieee) (mode : BitVec 2) (neg : Bool) (n d : Nat) : Nat × Ev :=
  if n ≥ 300 * d then k.roundRatio mode neg belowOne.1 belowOne.2 true
  else ziv k mode neg (fun p =>
    let (lo, hi) := expSpan p (2 * n) d
    let one := 2 ^ p
    ((lo - one, lo + one), (hi - one, hi + one))) 5 256

/-- √(m·2^e). -/
def sqrtValue (k : Ieee) (mode : BitVec 2) (m : Nat) (e : Int) : Nat × Ev :=
  let (m, e) := if e % 2 = 0 then (m, e) else (2 * m, e - 1)
  let r := isqrt (m * 2 ^ 200)
  k.round mode false r (e / 2 - 100) (decide (r * r ≠ m * 2 ^ 200))

/-- 1/√(m·2^e). -/
def rsqValue (k : Ieee) (mode : BitVec 2) (m : Nat) (e : Int) : Nat × Ev :=
  let (m, e) := if e % 2 = 0 then (m, e) else (2 * m, e - 1)
  let r := isqrt (2 ^ 300 / m)
  k.round mode false r (-(e / 2) - 150) (decide (r * r * m ≠ 2 ^ 300))

/-- A FUNCTION OF R219 of bits of a format: the special operands by its table, the others correctly rounded. -/
def fnValue (k : Ieee) (mode : BitVec 2) (g : Fn) (b : Nat) : Nat × Ev :=
  let nan : Nat := k.nan
  let one : Nat := (Fmt.ieee k).encode 0 (.fin false 1 0) |>.1
  match k.decode b with
  | .nan s => (nan, Ev.invalidIf s)
  | .inf neg =>
    match g with
    | .rcp => (neg.toNat * 2 ^ (k.eb + k.fb), {})
    | .rsq => if neg then (nan, Ev.invalid) else (0, {})
    | .sqrt => if neg then (nan, Ev.invalid) else (k.inf false, {})
    | .exp2 => if neg then (0, {}) else (k.inf false, {})
    | .log2 => if neg then (nan, Ev.invalid) else (k.inf false, {})
    | .sig => if neg then (0, {}) else (one, {})
    | .tanh => (neg.toNat * 2 ^ (k.eb + k.fb) + one, {})
  | .fin neg m e =>
    let (n, d) := ratioOf m e
    if m = 0 then
      match g with
      | .rcp => (k.inf neg, { dz := 1 })
      | .rsq => (k.inf neg, { dz := 1 })
      | .sqrt => (neg.toNat * 2 ^ (k.eb + k.fb), {})
      | .exp2 => (one, {})
      | .log2 => (k.inf true, { dz := 1 })
      | .sig => ((Fmt.ieee k).encode 0 (.fin false 1 (-1)))
      | .tanh => (neg.toNat * 2 ^ (k.eb + k.fb), {})
    else match g with
      | .rcp => k.roundRatio mode neg d n false
      | .rsq => if neg then (nan, Ev.invalid) else rsqValue k mode m e
      | .sqrt => if neg then (nan, Ev.invalid) else sqrtValue k mode m e
      | .exp2 =>
        if n % d = 0 then
          let i := min (n / d) 400
          if neg then k.roundRatio mode false 1 (2 ^ i) false else k.roundRatio mode false (2 ^ i) 1 false
        else exp2Value k mode neg n d
      | .log2 =>
        if neg then (nan, Ev.invalid)
        else if m = 2 ^ Nat.log2 m then (Fmt.ieee k).encode mode (FV.ofInt ((Nat.log2 m : Int) + e))
        else log2Value k mode m e
      | .sig => sigValue k mode neg n d
      | .tanh => tanhValue k mode neg n d

end Sys2Proof.Machine
end

