-- ==== Sys2Proof/Machine/Branch.lean ====
section
/-!
DEFINITION. Control transfers (R63, R210 to R212). In a seam member other than the head they change no pc (R310).
-/
namespace Sys2Proof.Machine

/-- Whether the thread is a seam member other than the head, executing a forwarded instruction (R310). -/
def follows (t : Thread) : Bool := match t.seam with | some m => t.seamed && decide (m.col + m.row ≠ 0) | none => false

/-- The address of an instruction's first parcel, in the state in which it has issued. -/
def startOf (s : State) (q : Pre) : W64 := s.t.pc - BitVec.ofNat 64 (2 * q.parcels)

/-- The pc at a target; a follower's stays (R310). -/
def jumpTo (s : State) (target : W64) : State := if follows s.t then s else s.setT { s.t with pc := target }

/-- A relative target (R210). -/
def relTarget (s : State) (q : Pre) (o : W64) : W64 := startOf s q + o <<< 1

/-- A register target: an odd one is ILLEGAL at the transferring instruction (R63); a follower takes none. -/
def jumpReg (s : State) (target : W64) : Res State :=
  if !follows s.t && target.getLsbD 0 then faultR .illegal target else .ok (jumpTo s target)

/-- JMP (R211). -/
def execJmp (q : Pre) (i : W64) (s : State) : Step :=
  issue q { base := baseParcel (.jmp q i) } (fun s => .ok (jumpTo s (relTarget s q i))) s

/-- A branch taken when flag k has the value `v` (R211). -/
def branchOn (b : Instr) (q : Pre) (k : Flag) (v : Bool) (i : W64) (s : State) : Step :=
  issue q { base := baseParcel b, rflags := [k] }
    (fun s => .ok (if s.t.flag k = v then jumpTo s (relTarget s q i) else s)) s

/-- BF (R211). -/
def execBf (q : Pre) (k : Flag) (i : W64) (s : State) : Step := branchOn (.bf q k i) q k false i s
/-- BT (R211). -/
def execBt (q : Pre) (k : Flag) (i : W64) (s : State) : Step := branchOn (.bt q k i) q k true i s

/-- CALL: the link, then the jump (R211). -/
def execCall (q : Pre) (i : W64) (s : State) : Step :=
  issue q { base := baseParcel (.call q i), writes := [1], lat := some 1 }
    (fun s => do
      let s1 ← writeW s 1 s.t.pc
      pure (jumpTo s1 (relTarget s q i))) s

/-- JR (R211). -/
def execJr (q : Pre) (r : Reg) (s : State) : Step :=
  issue q { base := baseParcel (.jr q r), reads := [r] }
    (fun s => do
      let (s1, a) ← readW s r
      jumpReg s1 a) s

/-- CALLR: the target is read before the link is written (R211). -/
def execCallr (q : Pre) (r : Reg) (s : State) : Step :=
  issue q { base := baseParcel (.callr q r), reads := [r], writes := [1], lat := some 1 }
    (fun s => do
      let (s1, a) ← readW s r
      let s2 ← writeW s1 1 s.t.pc
      jumpReg s2 a) s

/-- RET (R211). -/
def execRet (q : Pre) (s : State) : Step :=
  issue q { base := baseParcel (.ret q), reads := [1] }
    (fun s => do
      let (s1, a) ← readW s 1
      jumpReg s1 a) s

/-- LOOP (R212). -/
def execLoop (q : Pre) (d : Reg) (i : W64) (s : State) : Step :=
  issue q { base := baseParcel (.loop q d i), ok := decide (1 ≤ i.toInt), reads := [d], writes := [d], lat := some 1 }
    (fun s => do
      let (s1, a) ← readW s d
      if a.toNat ≤ 1 then writeW s1 d 0
      else do
        let s2 ← writeW s1 d (a - 1)
        pure (jumpTo s2 (startOf s q - i <<< 1))) s

end Sys2Proof.Machine
end

