-- ==== Sys2Proof/Machine/Global.lean ====
section
/-!
DEFINITION. Global accesses of a thread: LDG, STG, LDGV, STGV, ATOM, RED, GATH, PREF (R106 to R116), and the event row
GATH_COMPLETE.
-/
namespace Sys2Proof.Machine

/-! ## Shared parts -/

/-- An access under a policy (R94, R279): with acquire it issues once the thread's earlier reads are performed, since it is one
read itself and ends with its own answer; with release it is preceded by the release. -/
def underPolicy (q : Pre) (policy : State → Res (BitVec 32)) (op : State → Res State) (s : State) : Res State :=
  match policy s with
  | .error e => .error e
  | .ok p =>
    if polAcquires p && !readsDone s s.cur then waitR .release
    else if polReleases p then releasing q (polScope p) true op s
    else op s

/-- Port words that an instruction's reads took from their queues (R170, R173). -/
def poppedWords (s s1 : State) : List (BitVec 2 × W64) :=
  ([0, 1, 2, 3] : List (BitVec 2)).flatMap (fun side =>
    let a := portQueue s.c side
    (a.take (a.length - (portQueue s1.c side).length)).map (fun w => (side, w)))

/-- How a scalar load of a format code fills its register (R109). -/
def extOf (f : Code) : Ext :=
  if codeWidth f = 5 then .full true else if codeType f = 0 then .sx (widthBits (codeWidth f)) else .zx

/-- The access awaits its answer; `s0` is the state before its operands were read. -/
def awaiting (q : Pre) (s0 s : State) (a : Await) : State :=
  awaitAnswer s { a with pc := startOf s0 q, binds := s0.t.binds, popped := poppedWords s0 s }

/-- A load of `n` bytes at `ea` through capability `v` of register `r` (R106, R108, R110). -/
def loadFrom (q : Pre) (d r : Reg) (v : Val) (ea n : Nat) (ext : Ext) (pol : BitVec 32) (s0 s : State) : Res State := do
  if ext = .group then pure () else writeCheck s d
  checkGlobal r.toNat v [permR] ea n
  afterLocal s ea n
  sendRoom s (lineParts ea n).length false
  let lc := decide (n = 16) && bitAt (capPerm v) permLC
  pure (awaiting q s0 (sendLoad s ea n lc pol) { dst := d.toNat, ext := ext, size := n, parts := (lineParts ea n).length })

/-- Bytes of a scalar access of a format code (R109, R135). -/
def accessBytes (f : Code) : Nat := elementBytes (codeWidth f)

/-- The policy of an access: POL, or the register t read after s (R93, R109). -/
def policyOf (r : Reg) (t : Option Reg) (s : State) : Res (BitVec 32) :=
  match t with
  | none => .ok s.t.pol
  | some t => do
    let (s1, _) ← readReg s r
    let (_, w) ← readW s1 t
    pure (w.setWidth 32)

/-- The operands of LDG and STG: the capability, then what t holds (R110). -/
def capAnd (r : Reg) (t : Option Reg) (s : State) : Res (State × Val × W64) := do
  let (s1, v) ← readReg s r
  match t with
  | none => pure (s1, v, 0)
  | some t => do
    let (s2, w) ← readW s1 t
    pure (s2, v, w)

/-- A displacement, or an index scaled by the access size; modulo 2^64 (R110). -/
def effective (v : Val) (off : W64) : Nat := (v.lo + off).toNat

/-- LDG in each of its forms: `ix` says that t is an index (R110). -/
def ldgForm (i : Instr) (q : Pre) (f : Code) (d r : Reg) (t : Option Reg) (ix : Bool) (disp : W64) (s : State) : Step :=
  issue q { base := baseParcel i, ok := okGlobal f, reads := r :: t.toList, writes := [d] }
    (underPolicy q (policyOf r (if ix then none else t)) (fun s => do
      let (s1, v, w) ← capAnd r t s
      let off := if ix then w * BitVec.ofNat 64 (accessBytes f) else disp
      let pol := if ix || t.isNone then s.t.pol else w.setWidth 32
      loadFrom q d r v (effective v off) (accessBytes f) (extOf f) pol s s1)) s

/-- STG in each of its forms: the fields are read in the order s, t, d (R110, R170). -/
def stgForm (i : Instr) (q : Pre) (f : Code) (d r : Reg) (t : Option Reg) (ix : Bool) (disp : W64) (s : State) : Step :=
  issue q { base := baseParcel i, ok := okGlobal f, reads := [d, r] ++ t.toList }
    (underPolicy q (policyOf r (if ix then none else t)) (fun s => do
      let (s1, v, w) ← capAnd r t s
      let (s2, x) ← readReg s1 d
      let off := if ix then w * BitVec.ofNat 64 (accessBytes f) else disp
      let pol := if ix || t.isNone then s.t.pol else w.setWidth 32
      let n := accessBytes f
      let ea := effective v off
      checkGlobal r.toNat v [permW] ea n
      afterLocal s2 ea n
      sendRoom s2 (lineParts ea n).length true
      let tag := x.tag && decide (n = 16) && decide (ea % 16 = 0) && bitAt (capPerm v) permSC
      pure (postStore s2 ea n (x.bits.toNat % 2 ^ (8 * n)) tag pol))) s

/-! ## LDG and STG (R110) -/

/-- LDG, displacement (R110). -/
def execLdg (q : Pre) (f : Code) (d r : Reg) (i : W64) (s : State) : Step := ldgForm (.ldg q f d r i) q f d r none false i s
/-- LDG, policy register (R110). -/
def execLdgPolicy (q : Pre) (f : Code) (d r t : Reg) (i : W64) (s : State) : Step :=
  ldgForm (.ldgPolicy q f d r t i) q f d r (some t) false i s
/-- LDG, index (R110). -/
def execLdgIndex (q : Pre) (f : Code) (d r t : Reg) (s : State) : Step :=
  ldgForm (.ldgIndex q f d r t) q f d r (some t) true 0 s
/-- STG, displacement (R110). -/
def execStg (q : Pre) (f : Code) (d r : Reg) (i : W64) (s : State) : Step := stgForm (.stg q f d r i) q f d r none false i s
/-- STG, policy register (R110). -/
def execStgPolicy (q : Pre) (f : Code) (d r t : Reg) (i : W64) (s : State) : Step :=
  stgForm (.stgPolicy q f d r t i) q f d r (some t) false i s
/-- STG, index (R110). -/
def execStgIndex (q : Pre) (f : Code) (d r t : Reg) (s : State) : Step :=
  stgForm (.stgIndex q f d r t) q f d r (some t) true 0 s

/-! ## LDGV and STGV (R111) -/

/-- LDGV (R111). -/
def execLdgv (q : Pre) (d r : Reg) (i : W64) (s : State) : Step :=
  issue q { base := baseParcel (.ldgv q d r i), reads := [r], wgroups := [(d, 4)] }
    (underPolicy q (policyOf r none) (fun s => do
      let (s1, v) ← readReg s r
      loadFrom q d r v (effective v i) 64 .group s.t.pol s s1)) s

/-- STGV: tags of the group are ignored (R111). -/
def execStgv (q : Pre) (d r : Reg) (i : W64) (s : State) : Step :=
  issue q { base := baseParcel (.stgv q d r i), reads := [r], rgroups := [(d, 4)] }
    (underPolicy q (policyOf r none) (fun s => do
      let (s1, v) ← readReg s r
      checkGlobal r.toNat v [permW] (effective v i) 64
      afterLocal s1 (effective v i) 64
      sendRoom s1 (lineParts (effective v i) 64).length true
      pure (postStore s1 (effective v i) 64 (vecOf s1.t d) false s.t.pol))) s

/-! ## ATOM and RED (R112, R113) -/

/-- Bits of an ATOM or RED: those of its width, eight for ST4. -/
def atomBits (op : Nat) (m : BitVec 2) : Nat := if op = 11 then 8 else 32 * 2 ^ m.toNat

/-- ATOM (R113): the address aligned, the checks, one counted request whose answer is the old value. CAS reads d as well. (assumption 20, DEDUCED) -/
def atomForm (i : Instr) (q : Pre) (op : Nat) (m : BitVec 2) (d r t : Reg) (s : State) : Step :=
  issue q { base := baseParcel i, ok := okWidth op m, reads := (if op = 9 then [d] else []) ++ [r, t], writes := [d] }
    (underPolicy q (policyOf r none) (fun s => do
      let w := atomBits op m
      let (s1, v) ← readReg s r
      let (s2, x) ← readReg s1 t
      let (s3, y) ← (if op = 9 then readReg s2 d else Except.ok (s2, {}))
      writeCheck s3 d
      let a := v.nat / (w / 8) * (w / 8)
      checkGlobal r.toNat v [permR, permW, permAT] a (w / 8)
      afterLocal s3 a (w / 8)
      sendRoom s3 1 true
      let s4 := sendPart s3 a (w / 8) 0 s.t.pol (.atom op w x.bits y.bits true) true
      pure (awaiting q s s4 { dst := d.toNat, ext := .zx, size := w / 8, parts := 1, atom := true }))) s

/-- RED (R113): posted, no result. (assumption 20, DEDUCED) -/
def redForm (i : Instr) (q : Pre) (op : Nat) (m : BitVec 2) (r t : Reg) (s : State) : Step :=
  issue q { base := baseParcel i, ok := okWidth op m && decide (op ≠ 9), reads := [r, t] }
    (underPolicy q (policyOf r none) (fun s => do
      let w := atomBits op m
      let (s1, v) ← readReg s r
      let (s2, x) ← readReg s1 t
      let a := v.nat / (w / 8) * (w / 8)
      checkGlobal r.toNat v [permW, permAT] a (w / 8)
      afterLocal s2 a (w / 8)
      sendRoom s2 1 true
      pure (sendPart s2 a (w / 8) 0 s.t.pol (.atom op w x.bits 0 false) true))) s

/-- ATOM.ADD (R113). -/
def execAtomAdd (q : Pre) (m : BitVec 2) (d r t : Reg) (s : State) : Step := atomForm (.atomAdd q m d r t) q 0 m d r t s
/-- ATOM.MIN (R113). -/
def execAtomMin (q : Pre) (m : BitVec 2) (d r t : Reg) (s : State) : Step := atomForm (.atomMin q m d r t) q 1 m d r t s
/-- ATOM.MAX (R113). -/
def execAtomMax (q : Pre) (m : BitVec 2) (d r t : Reg) (s : State) : Step := atomForm (.atomMax q m d r t) q 2 m d r t s
/-- ATOM.MINN (R113). -/
def execAtomMinn (q : Pre) (m : BitVec 2) (d r t : Reg) (s : State) : Step := atomForm (.atomMinn q m d r t) q 3 m d r t s
/-- ATOM.MAXN (R113). -/
def execAtomMaxn (q : Pre) (m : BitVec 2) (d r t : Reg) (s : State) : Step := atomForm (.atomMaxn q m d r t) q 4 m d r t s
/-- ATOM.AND (R113). -/
def execAtomAnd (q : Pre) (m : BitVec 2) (d r t : Reg) (s : State) : Step := atomForm (.atomAnd q m d r t) q 5 m d r t s
/-- ATOM.OR (R113). -/
def execAtomOr (q : Pre) (m : BitVec 2) (d r t : Reg) (s : State) : Step := atomForm (.atomOr q m d r t) q 6 m d r t s
/-- ATOM.XOR (R113). -/
def execAtomXor (q : Pre) (m : BitVec 2) (d r t : Reg) (s : State) : Step := atomForm (.atomXor q m d r t) q 7 m d r t s
/-- ATOM.XCHG (R113). -/
def execAtomXchg (q : Pre) (m : BitVec 2) (d r t : Reg) (s : State) : Step := atomForm (.atomXchg q m d r t) q 8 m d r t s
/-- ATOM.CAS (R113). -/
def execAtomCas (q : Pre) (m : BitVec 2) (d r t : Reg) (s : State) : Step := atomForm (.atomCas q m d r t) q 9 m d r t s
/-- ATOM.MINP (R113). -/
def execAtomMinp (q : Pre) (d r t : Reg) (s : State) : Step := atomForm (.atomMinp q d r t) q 10 1 d r t s
/-- ATOM.ST4 (R113). -/
def execAtomSt4 (q : Pre) (d r t : Reg) (s : State) : Step := atomForm (.atomSt4 q d r t) q 11 0 d r t s
/-- RED.ADD (R113). -/
def execRedAdd (q : Pre) (m : BitVec 2) (r t : Reg) (s : State) : Step := redForm (.redAdd q m r t) q 0 m r t s
/-- RED.MIN (R113). -/
def execRedMin (q : Pre) (m : BitVec 2) (r t : Reg) (s : State) : Step := redForm (.redMin q m r t) q 1 m r t s
/-- RED.MAX (R113). -/
def execRedMax (q : Pre) (m : BitVec 2) (r t : Reg) (s : State) : Step := redForm (.redMax q m r t) q 2 m r t s
/-- RED.MINN (R113). -/
def execRedMinn (q : Pre) (m : BitVec 2) (r t : Reg) (s : State) : Step := redForm (.redMinn q m r t) q 3 m r t s
/-- RED.MAXN (R113). -/
def execRedMaxn (q : Pre) (m : BitVec 2) (r t : Reg) (s : State) : Step := redForm (.redMaxn q m r t) q 4 m r t s
/-- RED.AND (R113). -/
def execRedAnd (q : Pre) (m : BitVec 2) (r t : Reg) (s : State) : Step := redForm (.redAnd q m r t) q 5 m r t s
/-- RED.OR (R113). -/
def execRedOr (q : Pre) (m : BitVec 2) (r t : Reg) (s : State) : Step := redForm (.redOr q m r t) q 6 m r t s
/-- RED.XOR (R113). -/
def execRedXor (q : Pre) (m : BitVec 2) (r t : Reg) (s : State) : Step := redForm (.redXor q m r t) q 7 m r t s
/-- RED.XCHG (R113). -/
def execRedXchg (q : Pre) (m : BitVec 2) (r t : Reg) (s : State) : Step := redForm (.redXchg q m r t) q 8 m r t s
/-- RED.MINP (R113). -/
def execRedMinp (q : Pre) (r t : Reg) (s : State) : Step := redForm (.redMinp q r t) q 10 1 r t s
/-- RED.ST4 (R113). -/
def execRedSt4 (q : Pre) (r t : Reg) (s : State) : Step := redForm (.redSt4 q r t) q 11 0 r t s

/-! ## GATH (R114, R115) -/

/-- The word addresses of a gather. (assumption 19, DEDUCED) -/
def gathAddrs (src : Val) (idx : BitVec 128) (wb n : Nat) : List Nat :=
  (List.range n).map (fun j => (src.lo + BitVec.ofNat 64 (bits idx.toNat (16 * j + 15) (16 * j) * wb)).toNat)

/-- The translation of one line part of a word at its home, or what a window asks of it; it waits while its window waits in reserved memory
(R81). (assumption 19, DEDUCED) -/
def gathPart (s : State) (a n : Nat) : Res State :=
  if inReserve (destOf s s.t.bolt s.curCore a - 128) then waitR .place else
  let r := if regionOf a = .ordinary ∧ byRolnis s.t.bolt s.curCore = false then (translate s s.t.bolt (recordHome s s.t.bolt a) a .rd).map (·.1)
    else (globalPartAt s 0 (threadWho s s.cur s.t.pol) a n .rd (fun _ => none)).map (·.1)
  match r with
  | .ok s1 => .ok s1
  | .error (c, tv) => faultR c tv

/-- What the homes of the words answer at issue: the first word that meets PAGE, MAP or LOCALPROT faults precisely (R115, R72). The
words lie in one 64 KiB page, so the translation of the first is the others', but for a word that runs out of it or out of a window.
(assumption 19, DEDUCED) -/
def gathTranslate (s : State) (addrs : List Nat) (wb : Nat) : Res State :=
  (addrs.flatMap (fun a => lineParts a wb)).foldlM (fun s p => gathPart s p.1 p.2) s

/-- GATH (R115). -/
def execGath (q : Pre) (f : Code) (d r : Reg) (s : State) : Step :=
  issue q { base := baseParcel (.gath q f d r), ok := okGath f, rgroups := [(r, 4)], writes := [d] }
    (fun s => do
      inService s.cl.copyOut 1 (baseParcel (.gath q f d r))
      let src := s.t.reg r
      let dst := s.t.reg (r + 2)
      let g3 := (s.t.reg (r + 3)).nat
      let n := g3 % 16
      let wb := widthBytes (codeWidth f)
      let addrs := gathAddrs src (s.t.reg (r + 1)).bits wb (if n ≤ 8 then n else 0)
      addrs.forM (fun a => checkGlobal r.toNat src [permR] a wb)
      if 1 ≤ n ∧ n ≤ 8 then checkLocal s s.cur (r + 2).toNat dst dst.nat (n * wb) false true else pure ()
      writeCheck s d
      let (s1, seq) ← takeRing q 2 (baseParcel (.gath q f d r)) s
      let s2 := markToken s1 d seq 2
      let a0 := addrs.headD 0
      if n = 0 then pure (complete s2 s.cur d.toNat seq 3 0 0 none)
      else if n > 8 then pure (complete s2 s.cur d.toNat seq 3 2 0 none)
      else if addrs.any (fun a => decide (a / 2 ^ 16 ≠ a0 / 2 ^ 16)) then pure (complete s2 s.cur d.toNat seq 3 1 0 none)
      else do
        let s3 ← gathTranslate s2 addrs wb
        let g : GReq := { tid := s.cur, bolt := s.t.bolt, lb := (windowOf s s.cur).1, tok := d.toNat, seq := seq, addrs := addrs, wb := wb, dst := dst.nat,
                          pol := BitVec.ofNat 32 (g3 / 2 ^ 32), mode := s.t.mode, cls := s.t.qclass, core := s.curCore }
        pure (s3.setCl { s3.cl with gq := s3.cl.gq ++ [g] })) s

/-- A gather as a requester: its core, and the class of its issue (R89, R99). -/
def gathWho (g : GReq) : Who := { engineWho g.bolt g.core g.mode g.pol g.cls with requester := g.core }

/-- The words of a gather, each read at its own home (R92, R115). (assumption 19, DEDUCED) -/
def gathWords (g : GReq) : List Nat → State → Except PullEnd (State × List (BitVec 8))
  | [], s => .ok (s, [])
  | a :: rest, s =>
    match pullRead s (commandKey g.seq) 0 (gathWho g) g.tid a g.wb with
    | .error e => .error e
    | .ok (s1, bs) => match gathWords g rest s1 with
      | .error e => .error e
      | .ok (s2, more) => .ok (s2, bs ++ more)

/-- One gather of a cluster goes on: with its last word it writes the window, its banks taken, and completes its token (R115, R128).
(assumption 19, DEDUCED) -/
def gathRun (s : State) (cl : Nat) (g : GReq) : State :=
  let gone := fun (s : State) => endPulls (s.setCluster cl { s.cluster cl with gq := (s.cluster cl).gq.erase g }) g.bolt (commandKey g.seq)
  let n := g.addrs.length * g.wb
  match gathWords g g.addrs s with
  | .error (.wait a) => askFor s a
  | .error (.fault _ cause _) => complete (gone s) g.tid g.tok g.seq 3 3 0 (some cause)
  | .ok (s1, bs) =>
    if banksOwed (s.cluster cl) (g.lb + g.dst) n then s
    else complete (writeLocal (takeBanks (gone s1) cl (g.lb + g.dst) n) cl (g.lb + g.dst) bs) g.tid g.tok g.seq 3 0 0 none

/-- GATH_COMPLETE (R115): the oldest gather of a cluster that can go on does. (assumption 19, DEDUCED) -/
def gathComplete (s : State) (cl : Nat) : State :=
  (((s.cluster cl).gq.filter (fun g => !halted s g.bolt g.tid)).findSome? (fun g =>
    let s1 := gathRun s cl g
    if s1 = s then none else some s1)).getD s

/-- GATH_COMPLETE (R115). -/
def execGathComplete (cluster : Nat) (s : State) : Step := withUnit (hasPort cluster) (gathComplete s cluster)

/-! ## PREF (R116) -/

/-- The lines PREF names: address and bytes named in each, the first 64. (assumption 22, DEDUCED) -/
def prefLines (ea n : Nat) : List (Nat × Nat) := (lineParts ea (min (max n 1) (64 * 64 - ea % 64))).take 64

/-- PREF: a line that cannot be named by the capability, or lies outside the ordinary region, is skipped (R116). (assumption 22, DEDUCED) -/
def prefForm (i : Instr) (q : Pre) (stage : Bool) (r t : Reg) (disp : W64) (s : State) : Step :=
  issue q { base := baseParcel i, reads := [r, t] }
    (fun s => do
      let (s1, v) ← readReg s r
      let (s2, w) ← readW s1 t
      let named := (prefLines (effective v disp) w.toNat).filter (fun p =>
        v.tag && bitAt (capPerm v) permR && (boundFault v p.1 p.2).isNone && decide (regionOf p.1 = .ordinary))
      sendRoom s2 named.length false
      pure (named.foldl (fun s p => sendPart s p.1 p.2 0 (s.t.pol &&& 0x01FFFFFF#32) (.pref stage) false) s2)) s

/-- PREF.SLICE (R116). -/
def execPrefSlice (q : Pre) (r t : Reg) (i : W64) (s : State) : Step := prefForm (.prefSlice q r t i) q false r t i s
/-- PREF.STAGE (R116). -/
def execPrefStage (q : Pre) (r t : Reg) (i : W64) (s : State) : Step := prefForm (.prefStage q r t i) q true r t i s

end Sys2Proof.Machine
end

