-- ==== Sys2Proof/Machine/Local.lean ====
section
/-!
DEFINITION. Accesses of a thread to its block's window in local memory: LDL, STL, VLDL, VSTL, VGATH, VSCAT (R131 to R137), and the
event row LOCAL_BANK_GRANT.
-/
namespace Sys2Proof.Machine

/-- The local base of the current thread's window (R131). -/
def localBase (s : State) : Nat := (windowOf s s.cur).1

/-- A load sent to the banks: its register, or group, is not ready until it is granted (R57, R135). -/
def sendLocalLoad (s : State) (r : LReq) : State :=
  let ds := if r.ext = .group then groupRegs (BitVec.ofNat 6 r.dst, 4) else [BitVec.ofNat 6 r.dst]
  let s1 := s.setT { s.t with pending := s.t.pending ++ (ds.filter (· ≠ 0)).map (·.toNat) }
  queueLocal s1 r

/-- Offset and nibble of a scalar local access, exact (R7, R135): `ix` says that `w` is an index. -/
def localOffset (f : Code) (v : Val) (ix : Bool) (w disp : W64) : Int × Bool :=
  if ix then
    if codeWidth f = 0 then ((v.nat : Int) + ((w.toNat / 2 : Nat) : Int), w.getLsbD 0)
    else ((v.nat : Int) + ((w.toNat * accessBytes f : Nat) : Int), false)
  else ((v.nat : Int) + disp.toInt, false)

/-- The check of a local access at an exact offset (R131). -/
def checkWindowed (s : State) (r : Reg) (v : Val) (o : Int) (n : Nat) (rd wr : Bool) : Res Unit :=
  exactCheck r.toNat v (fun a n => checkLocal s s.cur r.toNat v a n rd wr) o n

/-- LDL in both forms (R135). -/
def ldlForm (i : Instr) (q : Pre) (f : Code) (d r : Reg) (t : Option Reg) (disp : W64) (s : State) : Step :=
  issue q { base := baseParcel i, ok := okLocal f, reads := r :: t.toList, writes := [d] }
    (fun s => do
      let (s1, v, w) ← capAnd r t s
      let (o, nib) := localOffset f v t.isSome w disp
      writeCheck s1 d
      checkWindowed s r v o (accessBytes f) true false
      afterWindow s
      let o := o.toNat
      pure (sendLocalLoad s1
        { tid := s.cur, store := false, nib := if codeWidth f = 0 then some nib else none, pieces := [(localBase s + o, accessBytes f, 0)],
          tag := decide (codeWidth f = 5) && decide (o % 16 = 0) && bitAt (capPerm v) permLC, dst := d.toNat, ext := extOf f })) s

/-- STL in both forms (R135). -/
def stlForm (i : Instr) (q : Pre) (f : Code) (d r : Reg) (t : Option Reg) (disp : W64) (s : State) : Step :=
  issue q { base := baseParcel i, ok := okLocal f, reads := [d, r] ++ t.toList }
    (fun s => do
      let (s1, v, w) ← capAnd r t s
      let (s2, x) ← readReg s1 d
      let (o, nib) := localOffset f v t.isSome w disp
      checkWindowed s r v o (accessBytes f) false true
      afterWindow s
      let o := o.toNat
      pure (queueLocal s2
        { tid := s.cur, store := true, nib := if codeWidth f = 0 then some nib else none, pieces := [(localBase s + o, accessBytes f, 0)],
          data := x.bits.setWidth 512,
          tag := x.tag && decide (codeWidth f = 5) && decide (o % 16 = 0) && bitAt (capPerm v) permSC })) s

/-- LDL, displacement (R135). -/
def execLdl (q : Pre) (f : Code) (d r : Reg) (i : W64) (s : State) : Step := ldlForm (.ldl q f d r i) q f d r none i s
/-- LDL, index (R135). -/
def execLdlIndex (q : Pre) (f : Code) (d r t : Reg) (s : State) : Step := ldlForm (.ldlIndex q f d r t) q f d r (some t) 0 s
/-- STL, displacement (R135). -/
def execStl (q : Pre) (f : Code) (d r : Reg) (i : W64) (s : State) : Step := stlForm (.stl q f d r i) q f d r none i s
/-- STL, index (R135). -/
def execStlIndex (q : Pre) (f : Code) (d r t : Reg) (s : State) : Step := stlForm (.stlIndex q f d r t) q f d r (some t) 0 s

/-- VLDL: 64 bytes (R136). -/
def execVldl (q : Pre) (f : Code) (d r : Reg) (i : W64) (s : State) : Step :=
  issue q { base := baseParcel (.vldl q f d r i), ok := okVector f, reads := [r], wgroups := [(d, 4)] }
    (fun s => do
      let (s1, v) ← readReg s r
      let o := (localOffset 0 v false 0 i).1
      checkWindowed s r v o 64 true false
      afterWindow s
      let o := o.toNat
      pure (sendLocalLoad s1 { tid := s.cur, store := false, pieces := [(localBase s + o, 64, 0)], dst := d.toNat, ext := .group })) s

/-- VSTL: 64 bytes, tags cleared (R136, R137). -/
def execVstl (q : Pre) (f : Code) (d r : Reg) (i : W64) (s : State) : Step :=
  issue q { base := baseParcel (.vstl q f d r i), ok := okVector f, reads := [r], rgroups := [(d, 4)] }
    (fun s => do
      let (s1, v) ← readReg s r
      let o := (localOffset 0 v false 0 i).1
      checkWindowed s r v o 64 false true
      afterWindow s
      let o := o.toNat
      pure (queueLocal s1 { tid := s.cur, store := true, pieces := [(localBase s + o, 64, 0)], data := BitVec.ofNat 512 (vecOf s.t d) })) s

/-- The lanes of a gather or scatter: the exact offset of each (R7, R136). -/
def laneOffsets (v : Val) (w : Nat) (idx : Nat) : List Nat := (lanesOf idx w).map (fun x => v.nat + x * (w / 8))

/-- The pieces of lanes at their offsets. -/
def lanePieces (lb wb : Nat) (os : List Nat) : List (Nat × Nat × Nat) :=
  (List.range os.length).map (fun i => (lb + os.getD i 0, wb, i * wb))

/-- VGATH: every lane checked before any is read (R137). -/
def execVgath (q : Pre) (f : Code) (d r t : Reg) (s : State) : Step :=
  issue q { base := baseParcel (.vgath q f d r t), ok := okLane f, reads := [r], rgroups := [(t, 4)], wgroups := [(d, 4)] }
    (fun s => do
      let (s1, v) ← readReg s r
      let w := laneBits f
      let os := laneOffsets v w (vecOf s.t t)
      os.forM (fun o => checkLocal s s.cur r.toNat v o (w / 8) true false)
      afterWindow s
      pure (sendLocalLoad s1 { tid := s.cur, store := false, pieces := lanePieces (localBase s) (w / 8) os, dst := d.toNat, ext := .group })) s

/-- VSCAT: every lane checked, then written in ascending order (R137). -/
def execVscat (q : Pre) (f : Code) (d r t : Reg) (s : State) : Step :=
  issue q { base := baseParcel (.vscat q f d r t), ok := okLane f, reads := [r], rgroups := [(d, 4), (t, 4)] }
    (fun s => do
      let (s1, v) ← readReg s r
      let w := laneBits f
      let os := laneOffsets v w (vecOf s.t t)
      os.forM (fun o => checkLocal s s.cur r.toNat v o (w / 8) false true)
      afterWindow s
      pure (queueLocal s1
        { tid := s.cur, store := true, pieces := lanePieces (localBase s) (w / 8) os, data := BitVec.ofNat 512 (vecOf s.t d) })) s

/-! ## Grants (R128, R129) -/

/-- A core's place in the round robin after the last core granted. (assumption 24, DEDUCED) -/
def turnOf (last core : Nat) : Nat := (core % 8 + 7 - last % 8) % 8

/-- The unit of a request that a bank may grant now: accesses of one thread to one unit are granted in program order (R129). -/
def unitAt (before : List LReq) (b : Nat) (r : LReq) : Option Nat :=
  r.left.find? (fun u => decide (bankOf u = b) && !before.any (fun x => decide (x.tid = r.tid) && x.left.contains u))

/-- The requests of cores that wait at a bank, in the order they came, each with the unit the bank would grant it. -/
def atBank (b : Nat) : List LReq → List LReq → List (LReq × Nat)
  | _, [] => []
  | before, r :: rest =>
    match unitAt before b r with
    | some u => (r, u) :: atBank b (before ++ [r]) rest
    | none => atBank b (before ++ [r]) rest

/-- The request of a core granted next at a bank: one that has waited three cycles there, the longest wait first; else the first of the
next core in the round robin (R128). (assumption 24, DEDUCED) -/
def grantNext (c : Cluster) (b : Nat) : Option (LReq × Nat) :=
  let last := Map.get c.lastCore b 7
  let before := fun (x y : LReq × Nat) =>
    let p := x.1.waitedAt b
    let q := y.1.waitedAt b
    let turn := decide (turnOf last (coreOf x.1.tid) ≤ turnOf last (coreOf y.1.tid))
    if p ≥ 3 ∨ q ≥ 3 then decide (p > q) || (decide (p = q) && turn) else turn
  (atBank b [] c.lq).foldl (fun best r => match best with | none => some r | some y => if before y r then some y else some r) none

/-- A load's value put into its register, which is ready again: its last unit has been granted. -/
def localLoaded (s : State) (r : LReq) : State :=
  let raw := r.data.toNat
  let ds := if r.ext = .group then groupRegs (BitVec.ofNat 6 r.dst, 4) else [BitVec.ofNat 6 r.dst]
  withCur r.tid (fun s =>
    let t := s.t
    let s1 := s.setT { t with pending := ds.foldl (fun l x => l.erase x.toNat) t.pending }
    match r.ext with
    | .group => s1.setT (setVec s1.t (BitVec.ofNat 6 r.dst) raw)
    | e =>
      let v := match r.nib with
        | some hi => if hi then raw / 16 % 16 else raw % 16
        | none => raw
      let n := match r.nib with | some _ => 4 | none => 8 * (match r.pieces with | p :: _ => p.2.1 | [] => 0)
      putReg s1 (BitVec.ofNat 6 r.dst) { bits := extend e n v, tag := r.tag }) s

/-- Threads that watch a line that a unit of a local store writes are woken (R306). -/
def wakeLocal (s : State) (cl : Nat) (r : LReq) (u : Nat) : State := (unitPieces r u).foldl (fun s p => wakeBytes s cl p.1 p.2.1) s

/-- A request after the grant of a unit: a load has gathered the unit's bytes, and its granule's tag. (assumption 24, DEDUCED) -/
def unitGranted (c : Cluster) (r : LReq) (u : Nat) : LReq :=
  let r := { r with left := r.left.erase u, waited := Map.erase r.waited (bankOf u) }
  if r.store then r else { r with data := r.data ||| BitVec.ofNat 512 (unitGather c r u), tag := r.tag && c.mem.tagAt (16 * u) }

/-- LOCAL_BANK_GRANT (R128, R129): in a cycle in which no engine takes the bank, it grants one core's request its unit of 16 bytes,
which is performed; with its last unit the access is. (assumption 24, DEDUCED) -/
def localBankGrant (s : State) (cl b : Nat) : State :=
  let c := s.cluster cl
  match grantNext c b with
  | none => s
  | some (r, u) =>
    let r1 := unitGranted c r u
    if !r.store && r1.left.isEmpty && decide (r.ext ≠ .group) && !landRoom s r.tid (BitVec.ofNat 6 r.dst) then s else
    let c1 := { c with lq := (c.lq.map (fun x => if x = r then r1 else x.waitOn [b])).filter (fun x => !x.left.isEmpty)
                       lastCore := Map.put 7 c.lastCore b (coreOf r.tid % 8) }
    if r.store then wakeLocal (s.setCluster cl (unitStore c1 r u)) cl r u
    else if r1.left.isEmpty then localLoaded (s.setCluster cl c1) r1 else s.setCluster cl c1

/-- LOCAL_BANK_GRANT (R128). -/
def execLocalBankGrant (bank : BankAt) (s : State) : Step :=
  withUnit (decide (bank.cluster < Config.clusters) && decide (bank.bank < 64)) (localBankGrant s bank.cluster bank.bank)

end Sys2Proof.Machine
end

