-- ==== Sys2Proof/Machine/Copy.lean ====
section
/-!
DEFINITION. The copy engine: COPY and its units (R143 to R146), DLOAD (R123, R124), the Damask slice's states (R119 to R126): DSEAL,
DOPEN, DSTAT, DWIN; and the event rows COPY_ENGINE_UNIT, DLOAD_UNIT, DAMASK_SEALED, DAMASK_OPENED, REFRESH_START, REFRESH_END.
-/
namespace Sys2Proof.Machine

/-! ## Sides of a copy (R144) -/

/-- What a capability names. -/
inductive Side where
  | global | window | bstage | damask
  deriving DecidableEq, Repr

/-- The side a capability's LOC and DAM name (R142, R144, R159). -/
def sideOf (v : Val) : Side :=
  if capLoc v then (if capDam v then .bstage else .window) else (if capDam v then .damask else .global)

/-- A source or destination checked over `[a, a+n)`; `n = 0` leaves tag, kind and permission (R146). -/
def sideCheck (s : State) (r : Reg) (v : Val) (dst : Bool) (a n : Nat) : Res Unit :=
  match sideOf v with
  | .global => checkGlobal r.toNat v [if dst then permW else permR] a n
  | .window => checkLocal s s.cur r.toNat v a n (!dst) dst
  | .bstage => if dst then checkBstage r.toNat v [permW] a n else derefCheck r.toNat false v false [] a n
  | .damask => derefCheck r.toNat false v false [] a n

/-- Every row `[first + stride·k, + size)` for k below `c`, at its exact address, in order; rows whose whole extent and ends pass need no check one
by one. (assumption 57, DEDUCED; assumption 96, DESIGN CHOICE) -/
def rowsCheck (chk : Int → Nat → Res Unit) (first : Nat) (stride : Int) (c size : Nat) : Res Unit :=
  if c = 0 ∨ size = 0 then chk first 0
  else
    let at_ := fun (k : Nat) => (first : Int) + stride * (k : Int)
    let last : Int := (first : Int) + stride * ((c - 1 : Nat) : Int)
    let lo := min (first : Int) last
    let hi := max (first : Int) last + (size : Int)
    let whole : Bool := decide (0 ≤ lo) && decide (hi ≤ ((2 ^ 52 : Nat) : Int)) &&
      (match chk (at_ 0) size, chk (at_ (c - 1)) size, chk lo (hi - lo).toNat with
        | .ok _, .ok _, .ok _ => true
        | _, _, _ => false)
    if whole then .ok () else if stride = 0 then chk first size else elementsFrom (fun k => chk (at_ k) size) c 0

/-! ## Shapes (R145) -/

/-- Length of LIN. -/
def linLen (v : Val) : Nat := v.nat
/-- Row length and count of 2D. -/
def rowLen (v : Val) : Nat := v.nat % 2 ^ 32
def rowCount (v : Val) : Nat := v.nat / 2 ^ 32
/-- Strides of 2D. -/
def srcStride (v : Val) : Int := sext (bits v.bits.toNat 95 64) 32
def dstStride (v : Val) : Int := sext (bits v.bits.toNat 127 96) 32
/-- Count, size code and direction of LIST. -/
def listCount (v : Val) : Nat := v.nat % 2 ^ 32
def listCode (v : Val) : Nat := bits v.nat 34 32
def listScatter (v : Val) : Bool := bitAt v.nat 40

/-- The checks of COPY at issue, in order: source, destination, index list (R146). (assumption 21, DEDUCED) -/
def copyChecks (s : State) (kind : Nat) (r : Reg) : Res Unit :=
  let g := fun (i : BitVec 6) => s.t.reg (r + i)
  let src := g 0
  let dst := g 1
  let sh := g 2
  match kind with
  | 0 => do
    sideCheck s r src false src.nat (linLen sh)
    sideCheck s (r + 1) dst true dst.nat (linLen sh)
  | 1 => do
    rowsCheck (exactCheck r.toNat src (sideCheck s r src false)) src.nat (srcStride sh) (rowCount sh) (rowLen sh)
    rowsCheck (exactCheck (r + 1).toNat dst (sideCheck s (r + 1) dst true)) dst.nat (dstStride sh) (rowCount sh) (rowLen sh)
  | 2 => do
    sideCheck s r src false src.nat 0
    sideCheck s (r + 1) dst true dst.nat 0
    checkLocal s s.cur (r + 3).toNat (g 3) (g 3).nat (4 * listCount sh) true false
  | _ => sideCheck s (r + 1) dst true dst.nat (linLen sh)

/-- Bytes a command moves. -/
def copyBytes (kind : Nat) (sh : Val) : Nat :=
  match kind with
  | 1 => rowLen sh * rowCount sh
  | 2 => listCount sh * 2 ^ listCode sh
  | _ => linLen sh

/-- COPY (R146). A command that is being performed keeps its place among the 32 of the queue until it ends (R143).
(assumption 71, DEDUCED) -/
def copyForm (i : Instr) (q : Pre) (kind : Nat) (d r : Reg) (s : State) : Step :=
  issue q { base := baseParcel i, rgroups := [(r, 4)], writes := [d] }
    (fun s => do
      inService s.cl.copyOut 1 (baseParcel i)
      let sh := s.t.reg (r + 2)
      let refused := decide (kind = 2) && decide (listCode sh = 7)
      if refused then pure () else copyChecks s kind r
      writeCheck s d
      if !refused && decide (copyBytes kind sh ≠ 0) && decide (s.cl.cq.length ≥ 32) then waitR .place else pure ()
      let (s1, seq) ← takeRing q 3 (baseParcel i) s
      let s2 := markToken s1 d seq 2
      if refused then pure (complete s2 s.cur d.toNat seq 1 1 0 none)
      else if copyBytes kind sh = 0 then pure (complete s2 s.cur d.toNat seq 1 0 0 none)
      else
        let (lb, ws, _) := windowOf s s.cur
        let pol := if kind = 2 then s.t.pol else (s.t.reg (r + 3)).bits.setWidth 32
        let c : CReq := { kind := kind, tid := s.cur, bolt := s.t.bolt, tok := d.toNat, seq := seq, mode := s.t.mode, lb := lb, ws := ws,
                          regs := groupVals s.t r 4, pol := pol, cls := s.t.qclass, core := s.curCore }
        pure (s2.setCl { s2.cl with cq := s2.cl.cq ++ [c] })) s

/-- COPY.LIN (R146). -/
def execCopyLin (q : Pre) (d r : Reg) (s : State) : Step := copyForm (.copyLin q d r) q 0 d r s
/-- COPY.2D (R146). -/
def execCopy2d (q : Pre) (d r : Reg) (s : State) : Step := copyForm (.copy2d q d r) q 1 d r s
/-- COPY.LIST (R146). -/
def execCopyList (q : Pre) (d r : Reg) (s : State) : Step := copyForm (.copyList q d r) q 2 d r s
/-- COPY.FILL (R146). -/
def execCopyFill (q : Pre) (d r : Reg) (s : State) : Step := copyForm (.copyFill q d r) q 3 d r s

/-! ## Units (R143, R146) -/

/-- Bytes written into a B-stage buffer (R142). -/
def writeBstage (c : Cluster) (a : Nat) (bs : List (BitVec 8)) : Cluster :=
  { c with bstage := (List.range bs.length).foldl (fun m i =>
      let b := bs.getD i 0
      if c.bstageGen = 0 then Map.put 0 m (a + i) b else Map.set m (a + i) b) c.bstage }

/-- How a unit ends otherwise than done: it must wait, with what it asks for next, or a fault stops the command. -/
inductive UnitEnd where
  | wait (a : Option Ask)
  | fault (c : Cause)
  deriving DecidableEq, Repr

/-- Whether the protection unit lets an engine touch a side now (R133). -/
def sideAllowed (c : Cluster) (r : CReq) (v : Val) (wr : Bool) (a n : Nat) : Bool :=
  decide (sideOf v ≠ .window) || (puFault c r.mode (!wr) wr (r.lb + a) n).isNone

/-- The copy engine as it performs a command, with the class of its issue (R89, R181). -/
def copyWho (r : CReq) : Who := engineWho r.bolt r.core r.mode r.pol r.cls

/-- Bytes of a side read by the engine. -/
def sideRead (s : State) (cl : Nat) (r : CReq) (v : Val) (a n : Nat) : Except UnitEnd (State × List (BitVec 8)) :=
  match sideOf v with
  | .window =>
    if banksOwed (s.cluster cl) (r.lb + a) n then .error (.wait none)
    else if sideAllowed (s.cluster cl) r v false a n then
      .ok (takeBanks s cl (r.lb + a) n, Memory.readN (s.cluster cl).mem.cells (r.lb + a) n)
    else .error (.fault .localprot)
  | _ =>
    match pullRead s (commandKey r.seq) 0 (copyWho r) r.tid a n with
    | .ok x => .ok x
    | .error (.wait x) => .error (.wait x)
    | .error (.fault _ c _) => .error (.fault c)

/-- Bytes of a side written by the engine, and how many were; parts before a failing one stay. (assumption 57, DEDUCED) -/
def sideWrite (s : State) (cl : Nat) (r : CReq) (v : Val) (a : Nat) (bs : List (BitVec 8)) : State × Nat × Option UnitEnd :=
  match sideOf v with
  | .window =>
    if banksOwed (s.cluster cl) (r.lb + a) bs.length then (s, 0, some (.wait none))
    else if sideAllowed (s.cluster cl) r v true a bs.length then
      (writeLocal (takeBanks s cl (r.lb + a) bs.length) cl (r.lb + a) bs, bs.length, none)
    else (s, 0, some (.fault .localprot))
  | .bstage => (s.setCluster cl (writeBstage (s.cluster cl) a bs), bs.length, none)
  | _ =>
    match pullWrite s (commandKey r.seq) (copyWho r) r.tid a bs with
    | .ok s1 => (s1, bs.length, none)
    | .error (.wait x) => (s, 0, some (.wait x))
    | .error (.fault k c _) => (s, k, some (.fault c))

/-- `Unit(a → b)`: up to 64 bytes, all read before any is written. Answers the bytes written. (assumption 21, DEDUCED) -/
def moveUnit (s : State) (cl : Nat) (r : CReq) (a b n : Nat) : State × Nat × Option UnitEnd :=
  let src := r.regs.getD 0 {}
  let dst := r.regs.getD 1 {}
  match sideRead s cl r src a n with
  | .error e => (s, 0, some e)
  | .ok (s1, bs) => match sideWrite s1 cl r dst b bs with
    | (_, _, some (.wait l)) => (s, 0, some (.wait l))
    | x => x

/-- The next unit of a command: its source, destination and length, or the late fault of a LIST element (R146). -/
def nextUnit (s : State) (cl : Nat) (r : CReq) : Except (Nat × Cause) (Nat × Nat × Nat) :=
  let src := r.regs.getD 0 {}
  let dst := r.regs.getD 1 {}
  let sh := r.regs.getD 2 {}
  let addr := fun (v : Val) (i : Int) => (((v.nat : Nat) : Int) + i).toNat
  match r.kind with
  | 1 =>
    let n := min 64 (rowLen sh - 64 * r.u)
    .ok (addr src (srcStride sh * (r.row : Int) + ((64 * r.u : Nat) : Int)), addr dst (dstStride sh * (r.row : Int) + ((64 * r.u : Nat) : Int)), n)
  | 2 =>
    let n := 2 ^ listCode sh
    let idx := r.regs.getD 3 {}
    let x := bytesToNat (Memory.readN (s.cluster cl).mem.cells (r.lb + idx.nat + 4 * r.row) 4) * n
    let j := r.row * n
    let (a, b) := if listScatter sh then (addr src (j : Int), addr dst (x : Int)) else (addr src (x : Int), addr dst (j : Int))
    let out := (boundFault src a n).isSome || (boundFault dst b n).isSome || (decide (sideOf dst = .bstage) && decide (b + n > Config.bstageBytes))
    let bad := fun (v : Val) (p : Nat) (wr : Bool) => decide (sideOf v = .window) && (decide (p + n > r.ws) || !sideAllowed (s.cluster cl) r v wr p n)
    if out then .error (4, .capbound)
    else if bad src a false || bad dst b true then .error (5, .localprot)
    else .ok (a, b, n)
  | _ =>
    let n := min 64 (linLen sh - 64 * r.u)
    .ok (addr src ((64 * r.u : Nat) : Int), addr dst ((64 * r.u : Nat) : Int), n)

/-- The index word of a LIST unit, which the engine reads from local memory too: its banks may be owed to a core, else are taken (R128). -/
def indexAt (r : CReq) : Nat := r.lb + (r.regs.getD 3 {}).nat + 4 * r.row
def indexOwed (s : State) (cl : Nat) (r : CReq) : Bool := decide (r.kind = 2) && banksOwed (s.cluster cl) (indexAt r) 4
def indexTaken (s : State) (cl : Nat) (r : CReq) : State := if r.kind = 2 then takeBanks s cl (indexAt r) 4 else s

/-- A command after a unit of `n` bytes, and whether it is done. -/
def unitPast (r : CReq) (n : Nat) : CReq × Bool :=
  let sh := r.regs.getD 2 {}
  let r' := { r with done := r.done + n }
  let r'' := match r.kind with
    | 1 => if 64 * (r.u + 1) ≥ rowLen sh then { r' with u := 0, row := r.row + 1 } else { r' with u := r.u + 1 }
    | 2 => { r' with row := r.row + 1 }
    | _ => { r' with u := r.u + 1 }
  (r'', decide (r''.done ≥ copyBytes r.kind sh))

/-- The pattern bytes of FILL (R146). -/
def fillBytes (pat : W64) (from_ n : Nat) : List (BitVec 8) :=
  (List.range n).map (fun i => BitVec.ofNat 8 (bits pat.toNat (8 * ((from_ + i) % 8) + 7) (8 * ((from_ + i) % 8))))

/-- The command at the head of an engine's queue, unless its bolt is pressed (R143). (assumption 21, DEDUCED) -/
def headCommand (s : State) (cl : Nat) (dload : Bool) : Option (CReq × List CReq) :=
  match (s.cluster cl).cq with
  | [] => none
  | r :: rest => if decide (r.kind = 4) = dload ∧ !halted s r.bolt r.tid then some (r, rest) else none

/-- The code of a command stopped by a fault of one of its units (R140, R146). (assumption 21, DEDUCED) -/
def stopCode (c : Cause) : Nat := if c = .localprot then 5 else 3

/-- COPY_ENGINE_UNIT (R146): one unit of the command at the head goes on; after the last the token completes. PROGRESS counts every byte
written, those of a unit that a fault stops in its second line among them. (assumption 21, DEDUCED) -/
def copyUnit (s : State) (cl : Nat) : State :=
  match headCommand s cl false with
  | none => s
  | some (r, rest) =>
    let drop := fun (s : State) => endPulls (s.setCluster cl { s.cluster cl with cq := rest }) r.bolt (commandKey r.seq)
    if indexOwed s cl r then s else
    match nextUnit s cl r with
    | .error (code, c) => complete (drop s) r.tid r.tok r.seq 1 code r.done (some c)
    | .ok (a, b, n) =>
      let (s1, k, e) := if r.kind = 3 then sideWrite s cl r (r.regs.getD 1 {}) b (fillBytes (r.regs.getD 0 {}).lo (64 * r.u) n) else moveUnit s cl r a b n
      match e with
      | some (.wait x) => askFor s x
      | some (.fault c) => complete (drop s1) r.tid r.tok r.seq 1 (stopCode c) (r.done + k) (some c)
      | none =>
        let (r', fin) := unitPast r n
        let s2 := indexTaken s1 cl r
        if fin then complete (drop s2) r.tid r.tok r.seq 1 0 r'.done none
        else endPulls (s2.setCluster cl { s2.cluster cl with cq := r' :: rest }) r.bolt (commandKey r.seq)

/-! ## DLOAD (R123, R124) -/

/-- The TVAL of DAMASK (R121): an offset past the last byte of the slice, which a capability's bounds allow, is shown modulo 2^25.
(assumption 54, DESIGN CHOICE) -/
def damaskTval (o : Nat) (st : BitVec 2) : W64 := BitVec.ofNat 64 (st.toNat * 2 ^ 25 + o % 2 ^ 25)

/-- DLOAD (R124). -/
def execDload (q : Pre) (d r : Reg) (s : State) : Step :=
  issue q { base := baseParcel (.dload q d r), rgroups := [(r, 4)], writes := [d] }
    (fun s => do
      inService s.cl.copyOut 1 (baseParcel (.dload q d r))
      let src := s.t.reg r
      let dst := s.t.reg (r + 1)
      let n := (s.t.reg (r + 2)).nat
      let o := dst.nat
      sideCheck s r src false src.nat n
      checkDamask (r + 1).toNat dst [permW] o n
      if n ≠ 0 ∧ s.cl.dstate ≠ 0 then faultR .damask (damaskTval o s.cl.dstate) else pure ()
      writeCheck s d
      let moves := decide (n ≠ 0) && decide (o % 64 = 0) && decide (n % 64 = 0)
      if moves && decide (s.cl.cq.length ≥ 32) then waitR .place else pure ()
      let (s1, seq) ← takeRing q 3 (baseParcel (.dload q d r)) s
      let s2 := markToken s1 d seq 2
      if n = 0 then pure (complete s2 s.cur d.toNat seq 2 0 0 none)
      else if !moves then pure (complete s2 s.cur d.toNat seq 2 1 0 none)
      else
        let (lb, ws, _) := windowOf s s.cur
        let c : CReq := { kind := 4, tid := s.cur, bolt := s.t.bolt, tok := d.toNat, seq := seq, mode := s.t.mode, lb := lb, ws := ws,
                          regs := groupVals s.t r 4, pol := (s.t.reg (r + 3)).bits.setWidth 32, cls := s.t.qclass, core := s.curCore }
        pure (s2.setCl { s2.cl with cq := s2.cl.cq ++ [c], loads := s2.cl.loads + 1 })) s

/-- Whether a bank group is refreshing (R122). -/
def inRefresh (s : State) (cl g : Nat) : Bool :=
  decide ((s.gtime + 65536 * 8 - g * 8192) % 65536 < 1024) || (s.cluster cl).refreshing.getLsbD g

/-- The bank group of an offset (R118). -/
def bankGroup (o : Nat) : Nat := o / 0x300000

/-- DLOAD_UNIT (R124): one 64-byte unit; a source fault ends the command. (assumption 21, DEDUCED; assumption 54, DESIGN CHOICE) -/
def dloadUnit (s : State) (cl : Nat) : State :=
  match headCommand s cl true with
  | none => s
  | some (r, rest) =>
    let src := r.regs.getD 0 {}
    let o := (r.regs.getD 1 {}).nat + 64 * r.u
    let drop := fun (s : State) =>
      endPulls (s.setCluster cl { s.cluster cl with cq := rest, loads := (s.cluster cl).loads - 1 }) r.bolt (commandKey r.seq)
    if inRefresh s cl (bankGroup o) then s
    else match sideRead s cl r src (src.nat + 64 * r.u) 64 with
      | .error (.wait x) => askFor s x
      | .error (.fault c) => complete (drop s) r.tid r.tok r.seq 2 (stopCode c) r.done (some c)
      | .ok (s1, bs) =>
        let s2 := s1.setCluster cl { s1.cluster cl with damask := Memory.writeN (s1.cluster cl).damask o (bs.take (Config.damaskBytes - o)) }
        if r.done + 64 ≥ (r.regs.getD 2 {}).nat then complete (drop s2) r.tid r.tok r.seq 2 0 (r.done + 64) none
        else endPulls (s2.setCluster cl { s2.cluster cl with cq := { r with u := r.u + 1, done := r.done + 64 } :: rest }) r.bolt (commandKey r.seq)

/-! ## OPEN and SEALED (R119, R120, R125) -/

/-- The stages of a waiting DSEAL and DOPEN: waiting for the state, the state seen, and waiting at the controller for the transition
under way to end before it starts its own. -/
def sealWait : Nat := 1
def sealSeen : Nat := 2
def openWait : Nat := 3
def openSeen : Nat := 4
def sealDue : Nat := 5
def openDue : Nat := 6

/-- The check of DSEAL and DOPEN (R125). -/
def wholeSlice (r : Reg) (v : Val) : Res Unit := checkDamask r.toNat v [permW] 0 Config.damaskBytes

/-- A DSEAL at the controller (R120): 0 OPEN, 1 SEALING, 2 SEALED, 3 OPENING. -/
def sealAt (q : Pre) (s : State) : State :=
  match s.cl.dstate.toNat with
  | 0 => stay q .damask sealWait (s.setCl { s.cl with dstate := 1 })
  | 1 => stay q .damask sealWait s
  | 2 => s
  | _ => stay q .damask sealDue s

/-- DSEAL (R120, R125). -/
def execDseal (q : Pre) (r : Reg) (s : State) : Step :=
  issue q { base := baseParcel (.dseal q r), reads := [r] }
    (fun s => do
      if s.t.stage = sealSeen then pure s
      else if s.t.stage = sealWait then (if s.cl.dstate = 2 then pure s else waitR .damask)
      else if s.t.stage = sealDue then (if s.cl.dstate = 3 then waitR .damask else pure (sealAt q s))
      else
        let (s1, v) ← readReg s r
        wholeSlice r v
        pure (sealAt q s1)) s

/-- A DOPEN at the controller (R120). -/
def openAt (q : Pre) (s : State) : State :=
  match s.cl.dstate.toNat with
  | 0 => s
  | 1 => stay q .damask openDue s
  | 2 => stay q .damask openWait (s.setCl { s.cl with dstate := 3 })
  | _ => stay q .damask openWait s

/-- DOPEN (R120, R125). -/
def execDopen (q : Pre) (r : Reg) (s : State) : Step :=
  issue q { base := baseParcel (.dopen q r), reads := [r] }
    (fun s => do
      if s.t.stage = openSeen then pure s
      else if s.t.stage = openWait then (if s.cl.dstate = 0 then pure s else waitR .damask)
      else if s.t.stage = openDue then (if s.cl.dstate = 1 then waitR .damask else pure (openAt q s))
      else
        let (s1, v) ← readReg s r
        wholeSlice r v
        pure (openAt q s1)) s

/-- DSTAT (R125). -/
def execDstat (q : Pre) (d : Reg) (s : State) : Step :=
  issue q { base := baseParcel (.dstat q d), writes := [d], lat := some 1 }
    (fun s => writeW s d (BitVec.ofNat 64 (s.cl.reads % 256 * 65536 + s.cl.loads % 256 * 256 + s.cl.dstate.toNat))) s

/-- The next refresh window of a bank group: its length and the wait for it (R126). -/
def dwinWord (t g : Nat) : W64 :=
  let p := (t + 65536 * 8 - g * 8192) % 65536
  if p < 1024 then BitVec.ofNat 64 ((1024 - p) * 2 ^ 32) else BitVec.ofNat 64 (1024 * 2 ^ 32 + (65536 - p))

/-- DWIN (R126). -/
def execDwin (q : Pre) (d r : Reg) (s : State) : Step :=
  issue q { base := baseParcel (.dwin q d r), reads := [r], writes := [d] }
    (fun s => do
      let (s1, w) ← readW s r
      writeW s1 d (dwinWord s.gtime (w.toNat % 8))) s

/-- Whether a thread of a cluster waits in DSEAL or DOPEN at a stage; one that is pressed looks at STATE again once it is restored
(R125), but keeps its place at the controller where its transition has not begun (R120). -/
def atStage (cl st : Nat) (p : Nat × Thread) : Bool :=
  decide (clusterOf (coreOf p.1) = cl) && (decide (p.2.occ = .resident) || (decide (p.2.occ = .pressed) && (decide (st = sealDue) || decide (st = openDue)))) &&
  decide (p.2.wait = .damask) && decide (p.2.stage = st)

/-- The threads of a cluster that wait in DSEAL or DOPEN at a stage pass to another. -/
def sawState (s : State) (cl from_ to_ : Nat) : State :=
  { s with threads := s.threads.map (fun p => (p.1, if atStage cl from_ p then { p.2 with stage := to_ } else p.2)) }

/-- The slice has come to a state: those that waited for it see it, and the DSEALs or DOPENs that reached the controller meanwhile are
performed before anything that reaches it later (R120). -/
def reached (s : State) (cl : Nat) (st next : BitVec 2) (wait seen due then_ : Nat) : State :=
  let st' := if s.threads.any (atStage cl due) then next else st
  sawState (sawState (s.setCluster cl { s.cluster cl with dstate := st' }) cl wait seen) cl due then_

/-- DAMASK_SEALED (R120). -/
def damaskSealed (s : State) (cl : Nat) : State :=
  let c := s.cluster cl
  if c.dstate = 1 ∧ c.loads = 0 then reached s cl 2 3 sealWait sealSeen openDue openWait else s

/-- DAMASK_OPENED (R120). -/
def damaskOpened (s : State) (cl : Nat) : State :=
  let c := s.cluster cl
  if c.dstate = 3 ∧ c.reads = 0 then reached s cl 0 1 openWait openSeen sealDue sealWait else s

/-- A refresh window of a bank group begins or ends (R122). -/
def refresh (s : State) (cl : Nat) (g : BitVec 3) (on : Bool) : State :=
  let c := s.cluster cl
  let due := decide ((s.gtime + 65536 * 8 - g.toNat * 8192) % 65536 < 1024)
  let bit : BitVec 8 := 1#8 <<< g.toNat
  if on then (if due then s.setCluster cl { c with refreshing := c.refreshing ||| bit } else s)
  else (if due then s else s.setCluster cl { c with refreshing := c.refreshing &&& ~~~bit })

/-! ## Event rows -/

/-- COPY_ENGINE_UNIT (R146). -/
def execCopyEngineUnit (cluster : Nat) (s : State) : Step := withUnit (hasPort cluster) (copyUnit s cluster)
/-- DLOAD_UNIT (R124). -/
def execDloadUnit (cluster : Nat) (s : State) : Step := withUnit (hasPort cluster) (dloadUnit s cluster)
/-- DAMASK_SEALED (R120). -/
def execDamaskSealed (cluster : Nat) (s : State) : Step := withUnit (decide (cluster < Config.clusters)) (damaskSealed s cluster)
/-- DAMASK_OPENED (R120). -/
def execDamaskOpened (cluster : Nat) (s : State) : Step := withUnit (decide (cluster < Config.clusters)) (damaskOpened s cluster)
/-- REFRESH_START (R122). -/
def execRefreshStart (cluster : Nat) (group : BitVec 3) (s : State) : Step := withUnit (decide (cluster < Config.clusters)) (refresh s cluster group true)
/-- REFRESH_END (R122). -/
def execRefreshEnd (cluster : Nat) (group : BitVec 3) (s : State) : Step := withUnit (decide (cluster < Config.clusters)) (refresh s cluster group false)

end Sys2Proof.Machine
end

