-- ==== Sys2Proof/Machine/Float.lean ====
section
/-!
DEFINITION. Floating point of page 1, scalar and by lanes: arithmetic, compares, conversions, the functions of R219, SCALE, and the
reductions (R213 to R221).
-/
namespace Sys2Proof.Machine

/-! ## One element -/

/-- An exact result rounded into its format; a condition counts once for the element (R185, R213). -/
def roundOp (t : Fmt) (mode : BitVec 2) (r : FV × Ev) : Nat × Ev :=
  let (b, e) := t.encode mode r.1
  (b, (r.2.add e).once)

/-- x + y (R214). -/
def elAdd (t : Fmt) (mode : BitVec 2) (x y : Nat) : Nat × Ev := roundOp t mode ((t.decode x).add mode (t.decode y))
/-- x − y (R214). -/
def elSub (t : Fmt) (mode : BitVec 2) (x y : Nat) : Nat × Ev := roundOp t mode ((t.decode x).add mode (t.decode y).neg)
/-- x · y (R214). -/
def elMul (t : Fmt) (mode : BitVec 2) (x y : Nat) : Nat × Ev := roundOp t mode ((t.decode x).mul (t.decode y))

/-- x / y in binary32, correctly rounded (R214). -/
def elDiv (mode : BitVec 2) (x y : Nat) : Nat × Ev :=
  match f32.decode x, f32.decode y with
  | .nan a, b => (f32.nan, Ev.invalidIf (a || b.signals))
  | a, .nan b => (f32.nan, Ev.invalidIf (b || a.signals))
  | .inf a, .inf _ => let _ := a; (f32.nan, Ev.invalid)
  | .inf a, .fin b _ _ => (f32.inf (a != b), {})
  | .fin a _ _, .inf b => ((a != b).toNat * 2 ^ 31, {})
  | .fin a m e, .fin b n g =>
    if n = 0 then (if m = 0 then (f32.nan, Ev.invalid) else (f32.inf (a != b), { dz := 1 }))
    else if m = 0 then ((a != b).toNat * 2 ^ 31, {})
    else f32.roundRatio mode (a != b) (m * 2 ^ (e - g).toNat) (n * 2 ^ (g - e).toNat) false

/-- ±(s · t) ± d, rounded once (R214). (assumption 26, DEDUCED) -/
def elFma (np nd : Bool) (t : Fmt) (mode : BitVec 2) (x y d : Nat) : Nat × Ev :=
  let (p, e1) := (t.decode x).mul (t.decode y)
  let p := if np then p.neg else p
  let z := if nd then (t.decode d).neg else t.decode d
  let (r, e2) := p.add mode z
  roundOp t mode (r, e1.add e2)

/-- Whether x is taken before y by FMIN: the lesser, −0 below +0 (R214). -/
def fvBefore (a b : FV) : Bool :=
  match a.compare b with
  | some .lt => true
  | some .eq => (match a with | .fin n m _ => n && decide (m = 0) | _ => false)
  | _ => false

/-- FMIN, or FMAX when `mx` holds (R214): a single NaN operand gives the other. -/
def elPick (mx : Bool) (t : Fmt) (x y : Nat) : Nat × Ev :=
  let a := t.decode x
  let b := t.decode y
  let e := Ev.invalidIf (a.signals || b.signals)
  if a.isNan && b.isNan then (match t with | .ieee k => (k.nan, e) | _ => (x, e))
  else if a.isNan then (y, e)
  else if b.isNan then (x, e)
  else if mx then (if fvBefore a b then y else x, e) else (if fvBefore b a then y else x, e)

/-! ## Shapes -/

/-- Whether a code names the scalar form (R201). -/
def isScalar (f : Code) : Bool := f == 19

/-- Bits of an element of a floating or lane code. -/
def elBits (f : Code) : Nat := if isScalar f then 32 else laneBits f

/-- Latency of a form: scalar or vector (R54). -/
def latOf (f : Code) (sc vec : Nat) : Option Nat := some (if isScalar f then sc else vec)

/-- A scalar result: the element's bits, zero above (R198). -/
def scalarOut (s : State) (d : Reg) (r : Nat × Ev) : Res State := do
  let s1 ← writeReg s d (Val.ofNat r.1)
  pure (countEv s1 s.cur r.2)

/-- The events of many elements. -/
def evSum (l : List (Nat × Ev)) : Ev := l.foldl (fun a r => a.add r.2) {}

/-- A vector result from its lanes, untagged. -/
def vectorOut (s : State) (d : Reg) (w : Nat) (rs : List (Nat × Ev)) : State :=
  countEv (s.setT (setVec s.t d (ofLanes w (rs.map (·.1))))) s.cur (evSum rs)

/-- A two-address operation on floating elements (R199, R214), each lane with the events of its rounding (R183 to R185), also where R267
says of an FADD that there are none. (assumption 81, DEDUCED) -/
def floatTwo (i : Instr) (q : Pre) (ok : Bool) (f : Code) (d x y : Reg) (sc vec : Nat) (g : Fmt → BitVec 2 → Nat → Nat → Nat × Ev) (s : State) : Step :=
  if isScalar f then
    issue q { base := baseParcel i, ok := ok, reads := [x, y], writes := [d], lat := latOf f sc vec }
      (fun s => do
        let (s1, a, b) ← readTwo q s x y
        scalarOut s1 d (g (fmtOf f) s.t.frm (a.bits.toNat % 2 ^ 32) (b.bits.toNat % 2 ^ 32))) s
  else
    issue q { base := baseParcel i, ok := ok, rgroups := [(x, 4), (y, 4)], wgroups := [(d, 4)], lat := latOf f sc vec }
      (fun s =>
        let w := laneBits f
        .ok (vectorOut s d w (List.zipWith (g (fmtOf f) s.t.frm) (lanesOf (vecOf s.t x) w) (lanesOf (vecOf s.t y) w)))) s

/-- A unary operation on floating elements (R199). -/
def floatUn (i : Instr) (q : Pre) (f : Code) (d x : Reg) (sc vec : Nat) (g : Fmt → BitVec 2 → Nat → Nat × Ev) (s : State) : Step :=
  if isScalar f then
    issue q { base := baseParcel i, ok := okFloat f, reads := [x], writes := [d], lat := latOf f sc vec }
      (fun s => do
        let (s1, a) ← readReg s x
        scalarOut s1 d (g (fmtOf f) s.t.frm (a.bits.toNat % 2 ^ 32))) s
  else
    issue q { base := baseParcel i, ok := okFloat f, rgroups := [(x, 4)], wgroups := [(d, 4)], lat := latOf f sc vec }
      (fun s => .ok (vectorOut s d (laneBits f) ((lanesOf (vecOf s.t x) (laneBits f)).map (g (fmtOf f) s.t.frm)))) s

/-- FMA to FNMS: d accumulates (R214); the fields are read in the order s, t, d (R170). -/
def floatFma (i : Instr) (q : Pre) (f : Code) (d r t : Reg) (np nd : Bool) (s : State) : Step :=
  if isScalar f then
    issue q { base := baseParcel i, ok := okFloat f, reads := [r, t, d], writes := [d], lat := latOf f 4 6 }
      (fun s => do
        let (s1, a) ← readReg s r
        let (s2, b) ← readReg s1 t
        let (s3, c) ← readReg s2 d
        scalarOut s3 d (elFma np nd (fmtOf f) s.t.frm (a.bits.toNat % 2 ^ 32) (b.bits.toNat % 2 ^ 32) (c.bits.toNat % 2 ^ 32))) s
  else
    issue q { base := baseParcel i, ok := okFloat f, rgroups := [(r, 4), (t, 4), (d, 4)], wgroups := [(d, 4)], lat := latOf f 4 6 }
      (fun s =>
        let w := laneBits f
        let ys := List.zip (lanesOf (vecOf s.t t) w) (lanesOf (vecOf s.t d) w)
        .ok (vectorOut s d w (List.zipWith (fun x y => elFma np nd (fmtOf f) s.t.frm x y.1 y.2) (lanesOf (vecOf s.t r) w) ys))) s

/-! ## Arithmetic (R214) -/

/-- FADD (R214). -/
def execFadd (q : Pre) (f : Code) (d x y : Reg) (s : State) : Step := floatTwo (.fadd q f d x y) q (okFloat f) f d x y 4 6 elAdd s
/-- FSUB (R214). -/
def execFsub (q : Pre) (f : Code) (d x y : Reg) (s : State) : Step := floatTwo (.fsub q f d x y) q (okFloat f) f d x y 4 6 elSub s
/-- FMUL (R214). -/
def execFmul (q : Pre) (f : Code) (d x y : Reg) (s : State) : Step := floatTwo (.fmul q f d x y) q (okFloat f) f d x y 4 6 elMul s
/-- FDIV: scalar only (R214). -/
def execFdiv (q : Pre) (f : Code) (d x y : Reg) (s : State) : Step :=
  floatTwo (.fdiv q f d x y) q (okF32 f) f d x y 8 8 (fun _ mode a b => elDiv mode a b) s
/-- FMA (R214). -/
def execFma (q : Pre) (f : Code) (d r t : Reg) (s : State) : Step := floatFma (.fma q f d r t) q f d r t false false s
/-- FMS (R214). -/
def execFms (q : Pre) (f : Code) (d r t : Reg) (s : State) : Step := floatFma (.fms q f d r t) q f d r t false true s
/-- FNMA (R214). -/
def execFnma (q : Pre) (f : Code) (d r t : Reg) (s : State) : Step := floatFma (.fnma q f d r t) q f d r t true true s
/-- FNMS (R214). -/
def execFnms (q : Pre) (f : Code) (d r t : Reg) (s : State) : Step := floatFma (.fnms q f d r t) q f d r t true false s
/-- FMIN (R214). -/
def execFmin (q : Pre) (f : Code) (d x y : Reg) (s : State) : Step :=
  floatTwo (.fmin q f d x y) q (okFloat f) f d x y 4 6 (fun t _ a b => elPick false t a b) s
/-- FMAX (R214). -/
def execFmax (q : Pre) (f : Code) (d x y : Reg) (s : State) : Step :=
  floatTwo (.fmax q f d x y) q (okFloat f) f d x y 4 6 (fun t _ a b => elPick true t a b) s
/-- FABS: the sign bit cleared, no event (R214). -/
def execFabs (q : Pre) (f : Code) (d r : Reg) (s : State) : Step :=
  floatUn (.fabs q f d r) q f d r 4 6 (fun t _ a => (a % 2 ^ (t.bits - 1), {})) s
/-- FNEG: the sign bit inverted, no event (R214). -/
def execFneg (q : Pre) (f : Code) (d r : Reg) (s : State) : Step :=
  floatUn (.fneg q f d r) q f d r 4 6 (fun t _ a => (a ^^^ 2 ^ (t.bits - 1), {})) s

/-! ## FCMP (R215) -/

/-- FCMP: a flag, or lanes of all ones or all zeros (R215). Without XR every lane of y is zero, whatever g1 to g3 hold. (assumption 25,
DEDUCED) -/
def fcmpForm (i : Instr) (q : Pre) (f : Code) (d x y : Reg) (p : Pred) (s : State) : Step :=
  if isScalar f then
    issue q { base := baseParcel i, ok := decide (d.toNat < 8), reads := [x, y], wflags := [d.setWidth 3], lat := some 4 }
      (fun s => do
        let (s1, a) ← readReg s x
        let (s2, b) ← readReg s1 y
        let (r, e) := p.onLane (fmtOf f) (a.bits.toNat % 2 ^ 32) (b.bits.toNat % 2 ^ 32)
        pure (countEv (s2.setT (s2.t.setFlag (d.setWidth 3) r)) s.cur e)) s
  else
    issue q { base := baseParcel i, ok := okFcmp f, rgroups := (x, 4) :: (if q.xr then [(y, 4)] else []), wgroups := [(d, 4)], lat := some 6 }
      (fun s =>
        let w := laneBits f
        .ok (vectorOut s d w (List.zipWith (fun a b => let (r, e) := p.onLane (fmtOf f) a b; (if r then 2 ^ w - 1 else 0, e))
          (lanesOf (vecOf s.t x) w) (lanesOf (if q.xr then vecOf s.t y else 0) w)))) s

/-- FCMP.EQ (R215). -/
def execFcmpEq (q : Pre) (f : Code) (d x y : Reg) (s : State) : Step := fcmpForm (.fcmpEq q f d x y) q f d x y .eq s
/-- FCMP.LT (R215). -/
def execFcmpLt (q : Pre) (f : Code) (d x y : Reg) (s : State) : Step := fcmpForm (.fcmpLt q f d x y) q f d x y .lt s
/-- FCMP.LE (R215). -/
def execFcmpLe (q : Pre) (f : Code) (d x y : Reg) (s : State) : Step := fcmpForm (.fcmpLe q f d x y) q f d x y .le s
/-- FCMP.UN (R215). -/
def execFcmpUn (q : Pre) (f : Code) (d x y : Reg) (s : State) : Step := fcmpForm (.fcmpUn q f d x y) q f d x y .un s

/-! ## FCVT (R216 to R218) -/

/-- A converted scalar as it stands in its register: signed integers sign-extended (R218). -/
def cvtOut (t : Fmt) (b : Nat) : Nat :=
  match t with
  | .int true w => (w64 (sext b w)).toNat
  | _ => b

/-- The first `n` lanes of width `w` of a group. -/
def firstLanes (v w n : Nat) : List Nat := (List.range n).map (lane v w)

/-- FCVT (R218). -/
def execFcvt (q : Pre) (f : Code) (vec : Bool) (d r : Reg) (src : Code) (s : State) : Step :=
  let ok := okFcvt vec f && okFcvt vec src
  let ts := fmtOf src
  let td := fmtOf f
  if vec then
    issue q { base := baseParcel (.fcvt q f vec d r src), ok := ok, rgroups := [(r, 4)], wgroups := [(d, 4)], lat := some 3 }
      (fun s => .ok (vectorOut s d td.bits
        ((firstLanes (vecOf s.t r) ts.bits (512 / max ts.bits td.bits)).map (fun b => roundOp td s.t.frm (ts.decode b, {}))))) s
  else
    issue q { base := baseParcel (.fcvt q f vec d r src), ok := ok, reads := [r], writes := [d], lat := some 3 }
      (fun s => do
        let (s1, a) ← readReg s r
        let (b, e) := roundOp td s.t.frm (ts.decode (a.bits.toNat % 2 ^ ts.bits), {})
        scalarOut s1 d (cvtOut td b, e)) s

/-! ## Functions and SCALE (R219, R220) -/

/-- A function of R219 by elements. -/
def fnForm (i : Instr) (q : Pre) (f : Code) (d r : Reg) (g : Fn) (s : State) : Step :=
  floatUn i q f d r 8 8 (fun t mode a => match t with | .ieee k => fnValue k mode g a | _ => (a, {})) s

/-- FRCP (R219). -/
def execFrcp (q : Pre) (f : Code) (d r : Reg) (s : State) : Step := fnForm (.frcp q f d r) q f d r .rcp s
/-- FRSQ (R219). -/
def execFrsq (q : Pre) (f : Code) (d r : Reg) (s : State) : Step := fnForm (.frsq q f d r) q f d r .rsq s
/-- FEXP2 (R219). -/
def execFexp2 (q : Pre) (f : Code) (d r : Reg) (s : State) : Step := fnForm (.fexp2 q f d r) q f d r .exp2 s
/-- FLOG2 (R219). -/
def execFlog2 (q : Pre) (f : Code) (d r : Reg) (s : State) : Step := fnForm (.flog2 q f d r) q f d r .log2 s
/-- FSIG (R219). -/
def execFsig (q : Pre) (f : Code) (d r : Reg) (s : State) : Step := fnForm (.fsig q f d r) q f d r .sig s
/-- FSQRT (R219). -/
def execFsqrt (q : Pre) (f : Code) (d r : Reg) (s : State) : Step := fnForm (.fsqrt q f d r) q f d r .sqrt s
/-- FTANH (R219). -/
def execFtanh (q : Pre) (f : Code) (d r : Reg) (s : State) : Step := fnForm (.ftanh q f d r) q f d r .tanh s

/-- The scale of SCALE, or its fault (R194, R220). -/
def scaleOf (b : Nat) : Res FV :=
  match scale32 b with
  | some c => .ok c
  | none => faultR .scale (BitVec.ofNat 64 (b % 2 ^ 32))

/-- SCALE (R220). -/
def execScale (q : Pre) (f : Code) (d r t : Reg) (s : State) : Step :=
  let el := fun (c : FV) (mode : BitVec 2) (x : Nat) => roundOp (fmtOf f) mode (((fmtOf f).decode x).mul c)
  if isScalar f then
    issue q { base := baseParcel (.scale q f d r t), ok := okFloat f, reads := [r, t], writes := [d], lat := latOf f 4 6 }
      (fun s => do
        let (s1, a) ← readReg s r
        let (s2, b) ← readReg s1 t
        let c ← scaleOf b.bits.toNat
        scalarOut s2 d (el c s.t.frm (a.bits.toNat % 2 ^ 32))) s
  else
    issue q { base := baseParcel (.scale q f d r t), ok := okFloat f, reads := [t], rgroups := [(r, 4)], wgroups := [(d, 4)], lat := latOf f 4 6 }
      (fun s => do
        let (s1, b) ← readReg s t
        let c ← scaleOf b.bits.toNat
        pure (vectorOut s1 d (laneBits f) ((lanesOf (vecOf s.t r) (laneBits f)).map (el c s.t.frm)))) s

/-! ## Reductions (R221) -/

/-- One level of the tree: neighbours joined, their events counted. -/
def treeLevel (g : Nat → Nat → Nat × Ev) : List Nat → List Nat × Ev
  | a :: b :: r => let (x, e) := g a b; let (l, e') := treeLevel g r; (x :: l, e.add e')
  | l => (l, {})

/-- The tree over `2^k` lanes. -/
def treeOf (g : Nat → Nat → Nat × Ev) : Nat → List Nat → Nat × Ev
  | 0, l => (l.headD 0, {})
  | k + 1, l => let (l', e) := treeLevel g l; let (x, e') := treeOf g k l'; (x, e.add e')

/-- The exact sum of floating lanes, rounded once (R221). (assumption 26, DEDUCED) -/
def addxFloat (t : Fmt) (mode : BitVec 2) (l : List Nat) : Nat × Ev :=
  let vs := l.map t.decode
  let sg := vs.any FV.signals
  let infs := vs.filterMap (fun v => match v with | .inf n => some n | _ => none)
  if vs.any FV.isNan then ((t.encode mode (.nan false)).1, Ev.invalidIf sg)
  else if infs.contains true && infs.contains false then ((t.encode mode (.nan false)).1, Ev.invalid)
  else match infs with
    | n :: _ => t.encode mode (.inf n)
    | [] =>
      let sum := vs.foldl (fun (a : FV) v => (a.add 0 v).1) (.fin false 0 0)
      match sum with
      | .fin _ 0 _ =>
        let allNeg := vs.all (fun v => match v with | .fin n m _ => n && decide (m = 0) | _ => false)
        t.encode mode (.fin (allNeg || decide (mode = 3)) 0 0)
      | v => roundOp t mode (v, {})

/-- Integer lanes combined (R221). -/
def intNode (op : Nat) (sg : Bool) (w : Nat) (a b : Nat) : Nat :=
  let x := if sg then sext a w else (a : Int)
  let y := if sg then sext b w else (b : Int)
  match op with
  | 0 => (a + b) % 2 ^ w
  | 1 => if x ≤ y then a else b
  | _ => if x ≤ y then b else a

/-- VRED: op 0 ADD, 1 MIN, 2 MAX, 3 ADDX (R221). -/
def vredForm (i : Instr) (q : Pre) (f : Code) (d r : Reg) (op : Nat) (s : State) : Step :=
  issue q { base := baseParcel i, ok := okVred f, rgroups := [(r, 4)], writes := [d], lat := some 6 }
    (fun s =>
      let w := laneBits f
      let l := lanesOf (vecOf s.t r) w
      let k := Nat.log2 l.length
      match fmtOf f with
      | .int sg _ =>
        let ext := fun (x : Nat) => if sg then (w64 (sext x w)).toNat else x
        if op = 3 then writeW s d (w64 ((l.map (fun x => if sg then sext x w else (x : Int))).sum))
        else scalarOut s d (ext (treeOf (fun a b => (intNode op sg w a b, {})) k l).1, {})
      | t =>
        scalarOut s d (match op with
          | 0 => treeOf (elAdd t s.t.frm) k l
          | 1 => treeOf (elPick false t) k l
          | 2 => treeOf (elPick true t) k l
          | _ => addxFloat t s.t.frm l)) s

/-- VRED.ADD (R221). -/
def execVredAdd (q : Pre) (f : Code) (d r : Reg) (s : State) : Step := vredForm (.vredAdd q f d r) q f d r 0 s
/-- VRED.MIN (R221). -/
def execVredMin (q : Pre) (f : Code) (d r : Reg) (s : State) : Step := vredForm (.vredMin q f d r) q f d r 1 s
/-- VRED.MAX (R221). -/
def execVredMax (q : Pre) (f : Code) (d r : Reg) (s : State) : Step := vredForm (.vredMax q f d r) q f d r 2 s
/-- VRED.ADDX (R221). -/
def execVredAddx (q : Pre) (f : Code) (d r : Reg) (s : State) : Step := vredForm (.vredAddx q f d r) q f d r 3 s

end Sys2Proof.Machine
end

