-- ==== Sys2Proof/Machine/Matrix.lean ====
section
/-!
DEFINITION. The matrix unit: contexts and queues (R224 to R226), MFMT (R231, R232), MM and MMZ (R233 to R236) with the sums of R195 to
R197, MDRAIN (R238, R239) with the scales of R192 and R193, MACC (R240); and the event rows MFMT_CONTEXT_CHANGE and ARRAY_GRANT.
-/
namespace Sys2Proof.Machine

/-! ## Format words (R231) -/

/-- The element format of a type code. -/
def matFmt (c : Nat) : Fmt :=
  match c with
  | 0 => .z8 | 1 => .int true 8 | 2 => .int false 8 | 3 => .e4 | 4 => .ieee f16 | 5 => .ieee b16 | _ => .mx8

/-- Fields of a format word. -/
def ctxA (w : BitVec 32) : Nat := bits w.toNat 3 0
def ctxB (w : BitVec 32) : Nat := bits w.toNat 7 4
def ctxAcc (w : BitVec 32) : Nat := bits w.toNat 9 8
def ctxSA (w : BitVec 32) : Bool := w.getLsbD 10
def ctxSB (w : BitVec 32) : Bool := w.getLsbD 11
def ctxSat (w : BitVec 32) : Bool := w.getLsbD 12
/-- Whether a type code is INT8 or UINT8. -/
def intCode (c : Nat) : Bool := decide (c = 1 ∨ c = 2)
/-- Whether a type code is FP16 or BF16. -/
def halfCode (c : Nat) : Bool := decide (c = 4 ∨ c = 5)
/-- Whether an element format takes E8M0 scales. -/
def e8Code (c : Nat) : Bool := decide (c = 3 ∨ c = 6)

/-- An acceptable format word (R231). -/
def fmtAcceptable (w : BitVec 32) : Bool :=
  decide (bits w.toNat 31 13 = 0) && decide (ctxA w ≤ 6) && decide (ctxB w ≤ 6) &&
  decide (ctxAcc w = if intCode (ctxA w) && intCode (ctxB w) then 1 else 0) &&
  !(ctxSA w && intCode (ctxA w)) && !(ctxSB w && intCode (ctxB w)) && !(ctxSat w && decide (ctxAcc w = 0))

/-! ## Queues (R225) -/

/-- Depth of a request queue (R224). -/
def mqDepth : Nat := 4

/-- A request of the current thread, with the registers it names as they stand. -/
def mreq (s : State) (kind : Nat) (tok : Nat) (seq : SeqNo) (regs : List Val) : MReq :=
  { kind := kind, tid := s.cur, bolt := s.t.bolt, tok := tok, seq := seq, mode := s.t.mode, cls := s.t.qclass, lb := (windowOf s s.cur).1, regs := regs }

/-- A request enters the core's queue. -/
def enqueueM (s : State) (r : MReq) : State := (s.setC { s.c with mq := s.c.mq ++ [r] }).setT { s.t with usedMatrix := true }

/-- A full queue stalls the thread. -/
def queuePlace (s : State) : Res Unit := if s.c.mq.length ≥ mqDepth then waitR .place else .ok ()

/-- The unit is out of service (R325). -/
def matrixService (s : State) (base : Parcel) : Res Unit := inService s.cl.matrixOut 2 base

/-- A request that carries no token dispatches. -/
def markSeq (s : State) (seq : SeqNo) (cls : Nat) : State := s.setT { s.t with cmds := s.t.cmds ++ [(seq, 64, cls)] }

/-- A request without a status word is over: its ring entry is freed (R331). -/
def endSeq (s : State) (tid : Nat) (seq : SeqNo) : State :=
  let s1 := freeRing s seq
  let t := s1.thread tid
  if t.occ = .empty then s1 else s1.setThread tid { t with cmds := t.cmds.filter (fun c => decide (c.1 ≠ seq)) }

/-- The head of a core's queue leaves it. -/
def popM (s : State) (core : Nat) : State := s.setCore core { s.core core with mq := (s.core core).mq.drop 1 }

/-! ## MFMT (R232) -/

/-- MFMT (R232): the previous word and the reject bit; an acceptable word is queued. -/
def execMfmt (q : Pre) (d r : Reg) (s : State) : Step :=
  issue q { base := baseParcel (.mfmt q d r), reads := [r], writes := [d] }
    (fun s => do
      matrixService s (baseParcel (.mfmt q d r))
      let (s1, v) ← readReg s r
      let w : BitVec 32 := v.bits.setWidth 32
      let p := s.c.fmtLatest.toNat
      if fmtAcceptable w then do
        queuePlace s
        let (s2, seq) ← takeRing q 4 (baseParcel (.mfmt q d r)) s1
        let s3 := markSeq (s2.setC { s2.c with fmtLatest := w }) seq 1
        writeReg (enqueueM s3 { mreq s 0 64 seq [] with word := w }) d (Val.ofNat p)
      else writeReg s1 d (Val.ofNat (p + 2 ^ 32))) s

/-- MFMT_CONTEXT_CHANGE (R232): the queued word takes effect at the head. -/
def mfmtChange (s : State) (core : Nat) : State :=
  match (s.core core).mq with
  | r :: _ =>
    if r.kind = 0 ∧ !halted s r.bolt r.tid then
      let s1 := popM s core
      endSeq (s1.setCore core { s1.core core with fmtNow := r.word }) r.tid r.seq
    else s
  | [] => s

/-! ## MM and MMZ at issue (R233 to R235) -/

/-- Shape of MM and MMZ. -/
structure Shape where
  m : Nat
  n : Nat
  k : Nat
  row0 : Nat
  col0 : Nat
  deriving DecidableEq, Repr

/-- The shape word of MM (R233). -/
def mmShape (v : Val) : Shape :=
  let x := v.nat
  { m := bits x 7 0, n := bits x 15 8, k := bits x 28 16, row0 := bits x 38 32, col0 := bits x 46 40 }

/-- Whether a region lies within the tile. -/
def Shape.inTile (h : Shape) : Bool :=
  decide (h.m ≤ 128) && decide (h.n ≤ 128) && decide (h.k ≤ 4096) && decide (h.row0 + h.m ≤ 128) && decide (h.col0 + h.n ≤ 128)

/-- K blocks (R234). -/
def Shape.blocks (h : Shape) : Nat := ceilDiv h.k 32

/-- Low and high 32 bits of a stride register. -/
def lowStride (v : Val) : Nat := v.nat % 2 ^ 32
def highStride (v : Val) : Nat := v.nat / 2 ^ 32

/-- `M × K` elements popped from a read stream, in order (R227). -/
def popElements (s : State) (r : Reg) : Nat → Res (State × List Nat)
  | 0 => .ok (s, [])
  | n + 1 => do
    let (s1, v) ← readReg s r
    let (s2, l) ← popElements s1 r n
    pure (s2, v.bits.toNat :: l)

/-- Bound registers of the group that raise STREAM: every one, but a stream in G[s] when s is g8 (R233). -/
def groupBound (s : State) (r : Reg) (n : Nat) : List Nat :=
  (groupRegs (r, n)).filterMap (fun x =>
    match bindingOf s x with
    | none => none
    | some (.stream _ _ _ _ _ _ _ _ _) => if x = r && decide (r = 8) then none else some x.toNat
    | some (.port _ _) => some x.toNat)

/-- Bytes of a scale (R234). -/
def scaleBytes (c : Nat) : Nat := if e8Code c then 1 else 4

/-- The precise checks of MM after the shape, in order; empty regions are not checked (R235). -/
def mmChecks (s : State) (r : Reg) (h : Shape) (w : BitVec 32) (isStream : Bool) : Res Unit := do
  let g := fun (i : BitVec 6) => s.t.reg (r + i)
  let wa := (matFmt (ctxA w)).bits
  let wb := (matFmt (ctxB w)).bits
  let loc := fun (i : BitVec 6) => checkLocal s s.cur (r + i).toNat (g i)
  let chkB := fun (a n : Nat) =>
    if sideOf (g 1) = .bstage then checkBstage (r + 1).toNat (g 1) [permR] a n else checkDamask (r + 1).toNat (g 1) [permR] a n
  if h.m = 0 ∨ h.k = 0 then pure ()
  else if isStream then
    match bindingOf s r with
    | some (.stream _ _ _ n _ _ _ pos _) => if pos + h.m * h.k > n then faultR .stream (streamTval r 0) else pure ()
    | _ => pure ()
  else rowsCheck (fun a n => loc 0 a.toNat n true false) (g 0).nat (lowStride (g 3) : Int) h.m (ceilDiv (h.k * wa) 8)
  if h.n = 0 ∨ h.k = 0 then pure ()
  else rowsCheck (fun a n => chkB a.toNat n) (g 1).nat (highStride (g 3) : Int) h.k (ceilDiv (h.n * wb) 8)
  if !ctxSA w ∨ h.m = 0 ∨ h.k = 0 then pure ()
  else rowsCheck (fun a n => loc 4 a.toNat n true false) (g 4).nat (lowStride (g 6) : Int) h.m (h.blocks * scaleBytes (ctxA w))
  if !ctxSB w ∨ h.n = 0 ∨ h.k = 0 then pure ()
  else rowsCheck (fun a n => loc 5 a.toNat n true false) (g 5).nat (highStride (g 6) : Int) h.blocks (h.n * scaleBytes (ctxB w))

/-- A refused or empty command: it dispatches and completes at once. -/
def completeNow (q : Pre) (page : Nat) (base : Parcel) (s : State) (d : Reg) (kind code progress : Nat) : Res State := do
  let (s1, seq) ← takeRing q page base s
  pure (complete (markToken s1 d seq 2) s.cur d.toNat seq kind code progress none)

/-- The registers of MM's group that it does not read (R233, R235): G[s+7]; those of empty regions; the scale arrays' and, without any,
the scale strides; with a refused shape, all but the shape. (assumption 83, DEDUCED) -/
def mmUnread (t : Thread) (r : Reg) (w : BitVec 32) : List Reg :=
  let h := mmShape (t.reg (r + 2))
  let noA := decide (h.m = 0 ∨ h.k = 0)
  let noB := decide (h.n = 0 ∨ h.k = 0)
  let skip := fun (i : Nat) => match i with
    | 0 => noA
    | 1 => noB
    | 4 => !ctxSA w || noA
    | 5 => !ctxSB w || noB
    | 6 => !ctxSA w && !ctxSB w
    | _ => false
  ((List.range 8).filter (fun i => decide (i = 7) || (!h.inTile && decide (i ≠ 2)) || skip i)).map (fun i => r + BitVec.ofNat 6 i)

/-- MM and MMZ at issue (R235); the matrix unit's service is tested before the group's bindings. (assumption 82, DESIGN CHOICE;
assumption 83, DEDUCED) -/
def mmForm (i : Instr) (q : Pre) (kind : Nat) (d r : Reg) (s : State) : Step :=
  issue q { base := baseParcel i, rgroups := [(r, 8)], writes := [d], ownGroup := true, unread := mmUnread s.t r s.c.fmtLatest }
    (fun s => do
      matrixService s (baseParcel i)
      match leastNat (groupBound s r 8) with
      | some x => faultR .stream (streamTval (BitVec.ofNat 6 x) 2)
      | none =>
        writeCheck s d
        let h := mmShape (s.t.reg (r + 2))
        let w := s.c.fmtLatest
        let bound := bindingOf s r
        let bad := match bound with
          | some (.stream wr _ _ _ sw _ _ _ _) => wr || decide (widthBits sw ≠ (matFmt (ctxA w)).bits)
          | _ => false
        if !h.inTile then completeNow q 4 (baseParcel i) s d 4 1 0
        else if bad then completeNow q 4 (baseParcel i) s d 4 2 0
        else do
          mmChecks s r h w bound.isSome
          queuePlace s
          let (s1, l) ← popElements s r (if bound.isSome then h.m * h.k else 0)
          let (s2, seq) ← takeRing q 4 (baseParcel i) s1
          let m := { mreq s kind d.toNat seq (groupVals s.t r 8) with stream := if bound.isSome then some l else none }
          pure (enqueueM (markToken s2 d seq 2) m)) s

/-- MM (R235). -/
def execMm (q : Pre) (d r : Reg) (s : State) : Step := mmForm (.mm q d r) q 1 d r s
/-- MMZ (R235). -/
def execMmz (q : Pre) (d r : Reg) (s : State) : Step := mmForm (.mmz q d r) q 2 d r s

/-! ## Sums (R195 to R197) -/

/-- ⌊log2⌋ of a non-zero finite magnitude. -/
def floorLog (m : Nat) (e : Int) : Int := (Nat.log2 m : Int) + e

/-- BlockSum (R196): `narrow` says that A or B is FP16 or BF16. -/
def blockSum (narrow : Bool) (ps : List (FV × FV)) : FV × Ev :=
  let prods := ps.map (fun p => p.1.mul p.2)
  let ev := prods.foldl (fun (a : Ev) p => a.add p.2) {}
  let infs := prods.filterMap (fun p => match p.1 with | .inf n => some n | _ => none)
  if prods.any (fun p => p.1.isNan) then (.nan false, ev)
  else if infs.contains true && infs.contains false then (.nan false, ev.add Ev.invalid)
  else match infs with
    | n :: _ => (.inf n, ev)
    | [] =>
      let fins := prods.filterMap (fun p => match p.1 with | .fin n m e => if m = 0 then none else some (n, m, e) | _ => none)
      match fins with
      | [] => (.fin false 0 0, ev)
      | f :: _ =>
        let top := fins.foldl (fun a x => max a (floorLog x.2.1 x.2.2)) (floorLog f.2.1 f.2.2)
        let low := fins.foldl (fun a x => min a x.2.2) f.2.2
        let u := if narrow then max low (top - 63) else low
        let term := fun (x : Bool × Nat × Int) =>
          let mag : Nat := if u ≤ x.2.2 then x.2.1 * 2 ^ (x.2.2 - u).toNat else x.2.1 / 2 ^ (u - x.2.2).toNat
          if x.1 then -((mag : Nat) : Int) else ((mag : Nat) : Int)
        let sum := (fins.map term).sum
        (.fin (decide (sum < 0)) sum.natAbs u, ev)

/-- One block of an FP32 accumulation (R195): `sc` is RoundNE(sA · sB). -/
def accBlock (narrow : Bool) (acc : Nat) (ps : List (FV × FV)) (sc : Nat × Ev) : Nat × Ev :=
  let (sv, e0) := blockSum narrow ps
  let (sb, e1) := (Fmt.ieee f32).encode 0 sv
  let (qb, e2) := elMul (.ieee f32) 0 sb sc.1
  let (ab, e3) := elAdd (.ieee f32) 0 acc qb
  (ab, ((((e0.add e1).add e2).add e3).add sc.2).once)

/-- One block of an INT32 accumulation (R197). -/
def accInt (sat : Bool) (acc : Nat) (ps : List (Int × Int)) : Nat × Ev :=
  let s : Int := (ps.map (fun p => p.1 * p.2)).sum + sext acc 32
  let lo : Int := -((2 ^ 31 : Nat) : Int)
  let hi : Int := ((2 ^ 31 : Nat) : Int) - 1
  if sat then
    let r := if s < lo then lo else if s > hi then hi else s
    ((r % ((2 ^ 32 : Nat) : Int)).toNat, if r = s then {} else { nar := 1 })
  else ((s % ((2 ^ 32 : Nat) : Int)).toNat, {})

/-- An element as an integer. -/
def elInt (t : Fmt) (b : Nat) : Int := match t with | .int true w => sext b w | _ => (b : Int)

/-- The pairs of a K block of one element: elements of an A row and of a B column. -/
def blockPairs (wa wb : Nat) (row : Nat) (col : Nat) (brows : List Nat) (k0 : Nat) : List (Nat × Nat) :=
  (List.range brows.length).map (fun i => (lane row wa (k0 + i), lane (brows.getD i 0) wb col))

/-- One accumulator element over every K block (R195, R197): `sc j` gives the rounded scale product of block j. -/
def accElement (w : BitVec 32) (acc row col : Nat) (brows : List Nat) (sc : Nat → Nat × Ev) : Nat → Nat → Nat × Ev
  | 0, _ => (acc, {})
  | f + 1, j =>
    let ta := matFmt (ctxA w)
    let tb := matFmt (ctxB w)
    let ps := blockPairs ta.bits tb.bits row col ((brows.drop (32 * j)).take 32) (32 * j)
    let (a, e) := if ctxAcc w = 1 then accInt (ctxSat w) acc (ps.map (fun p => (elInt ta p.1, elInt tb p.2)))
      else accBlock (halfCode (ctxA w) || halfCode (ctxB w)) acc (ps.map (fun p => (ta.decode p.1, tb.decode p.2))) (sc j)
    let (r, e') := accElement w a row col brows sc f (j + 1)
    (r, (e.add e').once)

/-! ## A granted MM (R235, R236) -/

/-- A tile element and its place. -/
def tileKey (i n : Nat) : Nat := 128 * i + n
/-- Tile elements written. -/
def tileWrite (c : Core) (l : List (Nat × Nat)) : Core :=
  { c with tile := l.foldl (fun t p => Map.put 0 t p.1 (BitVec.ofNat 32 p.2)) c.tile }
/-- A tile element. -/
def tileAt (c : Core) (i n : Nat) : Nat := (Map.get c.tile (tileKey i n) 0#32).toNat

/-- The rows of A as numbers (R227): from local memory, or from the elements of a stream. -/
def aRows (c : Cluster) (r : MReq) (h : Shape) (wa : Nat) : List Nat :=
  match r.stream with
  | some l => (List.range h.m).map (fun i => ofLanes wa ((l.drop (i * h.k)).take h.k))
  | none => (List.range h.m).map (fun i =>
      bytesToNat (Memory.readN c.mem.cells (r.lb + (r.regs.getD 0 {}).nat + i * lowStride (r.regs.getD 3 {})) (ceilDiv (h.k * wa) 8)))

/-- The rows of B as numbers (R228). (assumption 54, DESIGN CHOICE) -/
def bRows (c : Cluster) (r : MReq) (h : Shape) (wb : Nat) : List Nat :=
  let b := r.regs.getD 1 {}
  (List.range h.k).map (fun k =>
    let a := b.nat + k * highStride (r.regs.getD 3 {})
    let n := ceilDiv (h.n * wb) 8
    bytesToNat ((List.range n).map (fun i => if sideOf b = .bstage then bstageRead c (a + i) else damaskRead c (a + i))))

/-- The scales of an array, rows of `n` (R234); one that is invalid gives none (R194). -/
def scaleRow (c : Cluster) (code a n : Nat) : Option (List FV) :=
  (List.range n).mapM (fun i =>
    if e8Code code then scaleE8 (Memory.read c.mem.cells (a + i)).toNat
    else scale32 (bytesToNat (Memory.readN c.mem.cells (a + 4 * i) 4)))

/-- A scale array of `rows` rows of `n`. -/
def scaleArray (c : Cluster) (code a stride rows n : Nat) : Option (List (List FV)) :=
  (List.range rows).mapM (fun i => scaleRow c code (a + i * stride) n)

/-- The value 1.0. -/
def oneFV : FV := .fin false 1 0

/-- RoundNE(sA · sB) in binary32 (R195). -/
def scaleProduct (a b : FV) : Nat × Ev := roundOp (.ieee f32) 0 (a.mul b)

/-- Whether an array request reads the Damask slice as its B operand. -/
def readsDamask (r : MReq) (w : BitVec 32) : Bool :=
  match r.kind with
  | 1 | 2 => let h := mmShape (r.regs.getD 2 {}); decide (h.m ≠ 0) && decide (h.n ≠ 0) && decide (h.k ≠ 0) && decide (sideOf (r.regs.getD 1 {}) = .damask)
  | 7 | 8 => decide (bits (r.regs.getD 3 {}).nat 7 0 ≠ 0) && decide (ctxAcc w = 0) && !ctxSA w && !ctxSB w && (r.regs.getD 2 {}).tag
  | _ => false

/-- MM and MMZ performed: the state, the token's code and progress, the late fault (R235). (assumption 27, DEDUCED) -/
def mmPerform (s : State) (core : Nat) (r : MReq) : State × Nat × Nat × Option Cause :=
  let c := s.core core
  let cl := s.cluster (clusterOf core)
  let w := c.fmtNow
  let h := mmShape (r.regs.getD 2 {})
  let zeros := (List.range h.m).flatMap (fun i => (List.range h.n).map (fun n => (tileKey (h.row0 + i) (h.col0 + n), 0)))
  let base := if r.kind = 2 then tileWrite c zeros else c
  if h.m = 0 ∨ h.n = 0 then (s, 0, 0, none)
  else if h.k = 0 then (s.setCore core base, 0, 0, none)
  else if r.grant = 3 then (s, 6, 0, some .damask)
  else
    let j := h.blocks
    let sa := if ctxSA w then scaleArray cl (ctxA w) (r.lb + (r.regs.getD 4 {}).nat) (lowStride (r.regs.getD 6 {})) h.m j else some []
    let sb := if ctxSB w then scaleArray cl (ctxB w) (r.lb + (r.regs.getD 5 {}).nat) (highStride (r.regs.getD 6 {})) j h.n else some []
    match sa, sb with
    | some sa, some sb =>
      let rows := aRows cl r h (matFmt (ctxA w)).bits
      let brows := bRows cl r h (matFmt (ctxB w)).bits
      let res := (List.range h.m).flatMap (fun i => (List.range h.n).map (fun n =>
        let sc := fun (b : Nat) => scaleProduct (if ctxSA w then (sa.getD i []).getD b oneFV else oneFV) (if ctxSB w then (sb.getD b []).getD n oneFV else oneFV)
        let key := tileKey (h.row0 + i) (h.col0 + n)
        (key, accElement w (tileAt base (h.row0 + i) (h.col0 + n)) (rows.getD i 0) n brows sc j 0)))
      let ev := (res.foldl (fun (a : Ev) x => (a.add x.2.2).once) {})
      (countEv (s.setCore core (tileWrite base (res.map (fun x => (x.1, x.2.1))))) r.tid ev, 0, j, none)
    | _, _ => (s, 6, 0, some .scale)

/-! ## MDRAIN (R238, R239) -/

/-- Fields of G[s+2] of MDRAIN. -/
def drainShape (v : Val) : Shape :=
  let x := v.nat
  { m := bits x 7 0, n := bits x 15 8, k := 0, row0 := bits x 22 16, col0 := bits x 30 24 }
def drainFmt (v : Val) : Nat := bits v.nat 34 32
def drainClear (v : Val) : Bool := bitAt v.nat 40

/-- Output bits of an element of a drain format. -/
def drainBits (f : Nat) : Nat := match f with | 0 => 32 | 1 => 16 | 2 => 8 | 3 => 4 | 4 => 8 | _ => 32
/-- Whether a drain format writes scales, and the bytes of each. -/
def drainScaled (f : Nat) : Bool := decide (2 ≤ f ∧ f ≤ 4)
def drainScaleBytes (f : Nat) : Nat := if f = 2 then 4 else 1
/-- Whether a drain format goes with an accumulator (R238). -/
def drainAccepts (f acc : Nat) : Bool := decide (f = 0) || (decide (f = 5) && decide (acc = 1)) || (decide (1 ≤ f ∧ f ≤ 4) && decide (acc = 0))

/-- The registers of MDRAIN's group that it does not read (R238, R239): the scale destination but for formats 2 to 4; both destinations
of an empty drain; with a refused shape or format, all but the shape. (assumption 83, DEDUCED) -/
def drainUnread (t : Thread) (r : Reg) : List Reg :=
  let h := drainShape (t.reg (r + 2))
  let f := drainFmt (t.reg (r + 2))
  let none := decide (h.m = 0 ∨ h.n = 0)
  let skip := fun (i : Nat) => match i with
    | 0 => none
    | 1 => none || !drainScaled f
    | _ => false
  ((List.range 4).filter (fun i => ((!h.inTile || decide (f > 5)) && decide (i ≠ 2)) || skip i)).map (fun i => r + BitVec.ofNat 6 i)

/-- MDRAIN at issue (R239); the group's bindings are tested before the matrix unit's service. (assumption 82, DESIGN CHOICE;
assumption 83, DEDUCED) -/
def execMdrain (q : Pre) (d r : Reg) (s : State) : Step :=
  issue q { base := baseParcel (.mdrain q d r), rgroups := [(r, 4)], writes := [d], unread := drainUnread s.t r }
    (fun s => do
      let base := baseParcel (.mdrain q d r)
      matrixService s base
      writeCheck s d
      let g := fun (i : BitVec 6) => s.t.reg (r + i)
      let h := drainShape (g 2)
      let f := drainFmt (g 2)
      if !h.inTile ∨ f > 5 then completeNow q 4 base s d 5 1 0
      else do
        if h.m = 0 ∨ h.n = 0 then pure ()
        else do
          rowsCheck (fun a n => checkLocal s s.cur r.toNat (g 0) a.toNat n false true) (g 0).nat (lowStride (g 3) : Int) h.m (ceilDiv (h.n * drainBits f) 8)
          if drainScaled f then
            rowsCheck (fun a n => checkLocal s s.cur (r + 1).toNat (g 1) a.toNat n false true) (g 1).nat (highStride (g 3) : Int) h.m (ceilDiv h.n 32 * drainScaleBytes f)
          else pure ()
        queuePlace s
        let (s1, seq) ← takeRing q 4 base s
        pure (enqueueM (markToken s1 d seq 2) (mreq s 3 d.toNat seq (groupVals s.t r 4)))) s

/-- The largest finite magnitude of a block, as a ratio; 0 when there is none. -/
def blockMax (vs : List FV) : Nat × Int :=
  vs.foldl (fun a v => match v with
    | .fin _ m e => if m = 0 then a else if a.1 = 0 then (m, e) else
        (let u := min e a.2; if m * 2 ^ (e - u).toNat > a.1 * 2 ^ (a.2 - u).toNat then (m, e) else a)
    | _ => a) (0, 0)

/-- A drained block: its scale's bits, its elements and events (R192, R193). (assumption 26, DEDUCED) -/
def drainBlock (f : Nat) (bs : List Nat) : Nat × List (Nat × Ev) :=
  let vs := bs.map f32.decode
  let (am, ae) := blockMax vs
  let nan := vs.any FV.isNan
  if f = 2 then
    let small := decide (floorLog am ae < -116)
    let (sm, se) : Nat × Int := if nan || decide (am = 0) then (1, 0) else if small then (1, -126) else (am, ae - 10)
    let sb := ((Fmt.ieee f32).encode 0 (.fin false sm se)).1
    (sb, vs.map (fun v => match v with
      | .fin n m e =>
        if m = 0 then (0, {})
        else
          let u := min e se
          z8Round n (m * 2 ^ (e - u).toNat) (sm * 2 ^ (se - u).toNat)
      | v => Fmt.z8.encode 0 v))
  else if nan then (0xFF, vs.map (fun v => (0, Ev.invalidIf v.signals)))
  else
    let e : Int := if am = 0 then 0 else max (-127) (min 127 (floorLog am ae - (if f = 3 then 2 else 0)))
    let t : Fmt := if f = 3 then .e4 else .mx8
    ((e + 127).toNat, vs.map (fun v => match v with
      | .fin n m g => t.encode 0 (.fin n m (g - e))
      | v => t.encode 0 v))

/-- One row drained: element bytes, scale bytes, events (R239). -/
def drainRow (f acc : Nat) (xs : List Nat) : List (BitVec 8) × List (BitVec 8) × Ev :=
  let n := xs.length
  match f with
  | 0 =>
    let es := if acc = 1 then xs.map (fun x => (Fmt.ieee f32).encode 0 (FV.ofInt (sext x 32))) else xs.map (fun x => (x, ({} : Ev)))
    (natToBytes (4 * n) (ofLanes 32 (es.map (·.1))), [], evSum es)
  | 1 =>
    let es := xs.map (fun x => (Fmt.ieee b16).encode 0 (f32.decode x))
    (natToBytes (2 * n) (ofLanes 16 (es.map (·.1))), [], evSum es)
  | 5 => (natToBytes (4 * n) (ofLanes 32 xs), [], {})
  | _ =>
    let bl := (List.range (ceilDiv n 32)).map (fun b => drainBlock f ((xs.drop (32 * b)).take 32))
    let es := bl.flatMap (·.2)
    (natToBytes (ceilDiv (n * drainBits f) 8) (ofLanes (drainBits f) (es.map (·.1))),
     bl.flatMap (fun b => natToBytes (drainScaleBytes f) b.1), evSum es)

/-- MDRAIN performed: rows in ascending order, each row's scales before its elements (R239). A format that the accumulator does not
take is refused with code 1 whatever M and N are, as the pseudocode tests it first; the prose gives an empty region code 0.
(assumption 72, DEDUCED) -/
def drainPerform (s : State) (core : Nat) (r : MReq) : State × Nat × Nat × Option Cause :=
  let g2 := r.regs.getD 2 {}
  let h := drainShape g2
  let f := drainFmt g2
  let acc := ctxAcc (s.core core).fmtNow
  let cl := clusterOf core
  if !drainAccepts f acc then (s, 1, 0, none)
  else
    let (s1, ev) := (List.range h.m).foldl (fun (s, ev) i =>
      let xs := (List.range h.n).map (fun n => tileAt (s.core core) (h.row0 + i) (h.col0 + n))
      let (es, ss, e) := drainRow f acc xs
      let s1 := if ss.isEmpty then s else writeLocal s cl (r.lb + (r.regs.getD 1 {}).nat + i * highStride (r.regs.getD 3 {})) ss
      let s2 := writeLocal s1 cl (r.lb + (r.regs.getD 0 {}).nat + i * lowStride (r.regs.getD 3 {})) es
      let s3 := if drainClear g2 then s2.setCore core (tileWrite (s2.core core) ((List.range h.n).map (fun n => (tileKey (h.row0 + i) (h.col0 + n), 0)))) else s2
      (s3, (Ev.add ev e).once)) (s, ({} : Ev))
    (countEv s1 r.tid ev, 0, h.m, none)

/-! ## MACC (R240) -/

/-- Bytes of a tile. -/
def tileBytes : Nat := 65536

/-- MACC: checked, queued, and the thread stalls until its request completes (R240); its capability's binding is tested before the matrix
unit's service. (assumption 82, DESIGN CHOICE) -/
def maccForm (i : Instr) (q : Pre) (kind : Nat) (r : Option Reg) (s : State) : Step :=
  issue q { base := baseParcel i, rgroups := r.toList.map (fun r => (r, 1)) }
    (fun s => memoryWait do
      if s.t.stage = 2 then pure s
      else if s.t.stage = 1 then waitR .macc
      else do
        matrixService s (baseParcel i)
        let v := match r with | some r => s.t.reg r | none => {}
        match r with
        | some r => checkLocal s s.cur r.toNat v v.nat tileBytes (decide (kind = 4)) (decide (kind = 5))
        | none => pure ()
        queuePlace s
        let (s1, seq) ← takeRing q 4 (baseParcel i) s
        pure (stay q .macc 1 (enqueueM (markSeq s1 seq 0) (mreq s kind 64 seq [v])))) s

/-- MACC.LOAD (R240). -/
def execMaccLoad (q : Pre) (r : Reg) (s : State) : Step := maccForm (.maccLoad q r) q 4 (some r) s
/-- MACC.STORE (R240). -/
def execMaccStore (q : Pre) (r : Reg) (s : State) : Step := maccForm (.maccStore q r) q 5 (some r) s
/-- MACC.CLEAR (R240). -/
def execMaccClear (q : Pre) (s : State) : Step := maccForm (.maccClear q) q 6 none s

/-- MACC performed (R240). -/
def maccPerform (s : State) (core : Nat) (r : MReq) : State :=
  let c := s.core core
  let cl := clusterOf core
  let a := r.lb + (r.regs.getD 0 {}).nat
  match r.kind with
  | 4 =>
    let v := bytesToNat (Memory.readN (s.cluster cl).mem.cells a tileBytes)
    s.setCore core { c with tile := (List.range 16384).foldl (fun t k => Map.put 0 t k (BitVec.ofNat 32 (lane v 32 k))) [] }
  | 5 => writeLocal s cl a ((List.range 16384).flatMap (fun k => natToBytes 4 (Map.get c.tile k 0#32).toNat))
  | _ => s.setCore core { c with tile := [] }

/-! ## Grants (R226) -/

/-- Whether a request is an array request. -/
def isArray (r : MReq) : Bool := decide (1 ≤ r.kind ∧ r.kind ≤ 8)

/-- Whether a write of a thread to its window that issued before a command is not performed yet: its bank has not granted it, or it is
on its way by its global address. A command that has been granted waits for it, and holds its unit (R229, R265).
(assumption 27, DEDUCED) -/
def windowWritesOut (s : State) (tid : Nat) (q : SeqNo) : Bool :=
  (s.cluster (clusterOf (coreOf tid))).lq.any (fun r => decide (r.tid = tid) && r.store && decide (r.no < q.id)) ||
  onTheWay s (fun r => r.writes && r.agent.isNone && decide (r.tid = tid) && decide (128 ≤ r.dest) && decide (r.acc ≤ q.id))

/-- Whether a write of a thread that issued before a command is still on its way to its home or to its bank (R229, R256, R265).
(assumption 27, DEDUCED) -/
def writesBefore (s : State) (tid : Nat) (q : SeqNo) : Bool :=
  windowWritesOut s tid q || onTheWay s (fun r => r.writes && r.agent.isNone && decide (r.tid = tid) && decide (r.acc ≤ q.id))

/-- Whether a core has an array request at its head that may be granted: its bolt is not pressed (R226, R346). (assumption 27, DEDUCED) -/
def grantable (s : State) (core : Nat) : Bool :=
  match (s.core core).mq with
  | r :: _ => isArray r && !halted s r.bolt r.tid
  | [] => false

/-- ARRAY_GRANT (R226): the free array grants the next context in cyclic order; a Damask read starts, or meets a slice that is not
SEALED (R120). -/
def arrayGrant (s : State) (cl : Nat) : State :=
  let c := s.cluster cl
  let lives := liveCores s cl
  if c.arrayBusy.isSome then s
  else
    let n := lives.length
    let order := (List.range n).map (fun i => (c.arrayLast + 1 + i) % (max n 1))
    match order.find? (fun i => match lives[i]? with | some k => grantable s k | none => false) with
    | none => s
    | some i =>
      let core := lives.getD i 0
      match (s.core core).mq with
      | [] => s
      | r :: rest =>
        let wants := readsDamask r (s.core core).fmtNow
        let g := if !wants then 1 else if c.dstate = 2 then 2 else 3
        (s.setCore core { s.core core with mq := { r with grant := g } :: rest }).setCluster cl
          { c with arrayBusy := some core, arrayLast := i, reads := if g = 2 then c.reads + 1 else c.reads }

/-- Whether a granted Damask read of MM meets a refreshing bank group, and stalls (R122). (assumption 27, DEDUCED) -/
def refreshStall (s : State) (core : Nat) (r : MReq) : Bool :=
  if r.grant ≠ 2 ∨ r.kind > 2 then false
  else
    let h := mmShape (r.regs.getD 2 {})
    let b := (r.regs.getD 1 {}).nat
    let n := ceilDiv (h.n * (matFmt (ctxB (s.core core).fmtNow)).bits) 8
    (List.range h.k).any (fun k =>
      let a := b + k * highStride (r.regs.getD 3 {})
      inRefresh s (clusterOf core) (bankGroup a) || inRefresh s (clusterOf core) (bankGroup (a + n - 1)))

/-- The array is free again and the request out of its queue. -/
def endGrant (s : State) (core : Nat) (r : MReq) : State :=
  let cl := clusterOf core
  let s1 := endPulls (popM s core) r.bolt (commandKey r.seq)
  let c := s1.cluster cl
  s1.setCluster cl { c with arrayBusy := none, reads := if r.grant = 2 then c.reads - 1 else c.reads }

/-- A MACC ends: its thread issues again. -/
def endMacc (s : State) (r : MReq) : State :=
  let s1 := endSeq s r.tid r.seq
  let t := s1.thread r.tid
  if t.wait = .macc then setWait (s1.setThread r.tid { t with stage := 2 }) r.tid .none else s1

/-! ## Event rows -/

/-- MFMT_CONTEXT_CHANGE (R232). -/
def execMfmtContextChange (core : Nat) (s : State) : Step := withUnit (decide (core < 2048)) (mfmtChange s core)
/-- ARRAY_GRANT (R226). -/
def execArrayGrant (cluster : Nat) (s : State) : Step := withUnit (decide (cluster < Config.clusters)) (arrayGrant s cluster)

end Sys2Proof.Machine
end

