-- ==== Sys2Proof/Machine/Walk.lean ====
section
/-!
DEFINITION. Tree walks: WALK, WRESUME and WSTAT (R242 to R258), and the event rows MATRIX_REQUEST_COMPLETE and WSTAT_AT_HEAD.
-/
namespace Sys2Proof.Machine

/-! ## Rows and nodes (R243, R246, R247) -/

/-- Row statuses (R247). -/
def rowActive : Nat := 0
def rowDone : Nat := 1
def rowFaulted : Nat := 2
def rowBound : Nat := 3
def rowDepth : Nat := 4
def rowNan : Nat := 5

/-- A row of a walk: its record, whether it is processed, and the translation that failed for it. -/
structure WRow where
  node : Nat
  depth : Nat
  status : Nat
  last : Nat
  proc : Bool
  /-- cause and TVAL, and the whole address that failed -/
  fail : Option (Cause × W64 × Nat) := none
  deriving DecidableEq, Repr

/-- A record of 16 bytes as a row (R246). -/
def WRow.ofRecord (v : Nat) : WRow :=
  let st := bits v 79 72
  let p := decide (st = rowActive ∨ st = rowFaulted)
  { node := bits v 63 0, depth := bits v 71 64, status := if p then rowActive else st, last := bits v 87 80, proc := p }

/-- A row's record, reserved bits 0 (R246). -/
def WRow.record (r : WRow) : Nat := r.node % 2 ^ 64 + r.depth % 256 * 2 ^ 64 + r.status % 256 * 2 ^ 72 + r.last % 256 * 2 ^ 80

/-- A node descriptor (R243). -/
structure Node where
  thresh : Nat
  children : Nat
  matrix : Nat
  n : Nat
  k : Nat
  out : Nat
  c : Nat
  rule : Nat
  kind : Nat
  deriving DecidableEq, Repr

/-- The fields of the 64 bytes of a descriptor. -/
def nodeOf (v : Nat) : Node :=
  { thresh := bits v 223 192, children := bits v 191 128, matrix := bits v 127 64, n := bits v 63 48, k := bits v 47 32,
    out := bits v 31 24, c := bits v 23 16, rule := bits v 15 8, kind := bits v 7 0 }

/-- The output format of a leaf (R243). -/
def outFmt (c : Nat) : Option Fmt :=
  if c = 19 then some (.ieee f32) else if c = 18 then some (.ieee f16) else if c = 26 then some (.ieee b16) else if c = 33 then some .z8 else none

/-- A malformed descriptor of a walk with `k` elements a row (R243). -/
def nodeMalformed (v : Nat) (k : Nat) : Bool :=
  let d := nodeOf v
  let inner := decide (d.kind = 0)
  let thr := inner && decide (d.rule = 2)
  let arg := inner && decide (d.rule = 1)
  decide (bits v 511 224 ≠ 0) || decide (d.kind > 1) || decide (d.n < 1 ∨ d.n > 128) || decide (d.k < 1 ∨ d.k > 4096) || decide (d.k ≠ k) ||
  (if thr then (f32.decode d.thresh).isNan else decide (d.thresh ≠ 0)) ||
  (if arg then decide (d.c < 1 ∨ d.c > 16 ∨ d.c > d.n) else decide (d.c ≠ 0)) ||
  (if inner then decide (d.rule > 2) || decide (d.out ≠ 0)
   else decide (d.rule ≠ 0) || decide (d.children ≠ 0) || (outFmt d.out).isNone)

/-! ## Reads (R242, R245, R249) -/

/-- What an engine that must wait asks for next. -/
abbrev Held := Option Ask

/-- How a read of the walk ends otherwise than with bytes: a status for the rows, or the whole request waits. -/
inductive WStop where
  | bound
  /-- with the state that has used its answer -/
  | fault (s : State) (c : Cause) (tval : W64) (addr : Nat)
  /-- with what it asks for next -/
  | busy (l : Held)

/-- The whole address of the part of a read from `a` that failed, of which a TVAL shows the low 52 bits (R70). -/
def failedAt (a : Nat) (tv : W64) : Nat := a + (bits tv.toNat 51 0 + 2 ^ 52 - a % 2 ^ 52) % 2 ^ 52

/-- Reach, and the read it allows (R249): `[a, a+n)` named by a node pointer. (assumption 40, DEDUCED) -/
def walkRead (s : State) (core : Nat) (r : MReq) (a n : Nat) : Except WStop (State × List (BitVec 8)) :=
  let cl := clusterOf core
  if bitAt a 63 then
    let o := bits a 24 0
    let dam := r.regs.getD 2 {}
    if bits a 62 25 ≠ 0 ∨ !dam.tag ∨ (boundFault dam o n).isSome ∨ o + n > Config.damaskBytes then .error .bound
    else if inRefresh s cl (bankGroup o) || inRefresh s cl (bankGroup (o + n - 1)) then .error (.busy none)
    else .ok (s, Memory.readN (s.cluster cl).damask o n)
  else
    let tree := r.regs.getD 1 {}
    if !tree.tag ∨ (boundFault tree a n).isSome then .error .bound
    else
      let w := engineWho r.bolt core r.mode (BitVec.ofNat 32 ((r.regs.getD 3 {}).nat / 2 ^ 32)) r.cls
      -- a granted walk completes although its bolt is pressed (R256)
      let w := { w with free := true }
      match pull s (commandKey r.seq) 0 w r.tid a n none false with
      | .error x => .error (.busy x)
      | .ok (s1, p) => match p.fault with
        | some (_, c, tv) => .error (.fault s1 c tv (failedAt a tv))
        | none => .ok (s1, p.data_)

/-! ## A visit (R249, R250) -/

/-- The walk as it proceeds: the module, the rows and the events. -/
structure WSt where
  s : State
  rows : List WRow
  ev : Ev := {}

/-- Row `i` changed. -/
def WSt.row (w : WSt) (i : Nat) (f : WRow → WRow) : WSt := { w with rows := w.rows.modify i f }
/-- Rows that leave their group with a status. (assumption 40, DEDUCED) -/
def WSt.fail (w : WSt) (is : List Nat) (st : Nat) (e : Option (Cause × W64 × Nat)) : WSt :=
  is.foldl (fun w i => w.row i (fun r => { r with status := st, fail := e })) w
/-- Rows ended by a read that failed, or the whole request waits. -/
def WSt.stop (w : WSt) (is : List Nat) : WStop → Except Held WSt
  | .bound => .ok (w.fail is rowBound none)
  | .fault s1 c tv a => .ok (({ w with s := s1 } : WSt).fail is rowFaulted (some (c, tv, a)))
  | .busy l => .error l

/-- The child chosen by the decision scores, or none for NAN (R250). -/
def decideChild (d : Node) (sc : List Nat) : Option Nat :=
  let val := fun (i : Nat) => f32.decode (sc.getD i 0)
  match d.rule with
  | 1 =>
    let best := (List.range d.c).foldl (fun (b : Option Nat) i =>
      if (val i).isNan then b else match b with
        | none => some i
        | some j => if (val i).compare (val j) = some .gt then some i else b) none
    best
  | 2 => ((val 0).compare (f32.decode d.thresh)).map (fun o => if o = .lt then 0 else 1)
  | _ => ((val 0).compare (.fin false 0 0)).map (fun o => if o = .lt then 0 else 1)

/-- Scores of one row at a node: each column from +0 with scales 1.0 (R195, R196, R249). -/
def rowScores (w : BitVec 32) (row : Nat) (brows : List Nat) (n : Nat) : List (Nat × Ev) :=
  (List.range n).map (fun c => accElement w 0 row c brows (fun _ => scaleProduct oneFV oneFV) (ceilDiv brows.length 32) 0)

/-- One row's step at a leaf: its output row, where it fits (R249). -/
def leafRow (core : Nat) (r : MReq) (d : Node) (w : WSt) (i : Nat) (sc : List Nat) : WSt :=
  let ldo := highStride (r.regs.getD 4 {})
  match outFmt d.out with
  | none => w.fail [i] rowBound none
  | some t =>
    let size := t.bits / 8
    if d.n * size > ldo then w.fail [i] rowBound none
    else
      let es : List (Nat × Ev) := sc.map (fun x => if d.out = 19 then (x, {}) else t.encode 0 (f32.decode x))
      let a := r.lb + (r.regs.getD 5 {}).nat + i * ldo
      let w1 : WSt := { w with s := writeLocal w.s (clusterOf core) a (natToBytes (d.n * size) (ofLanes t.bits (es.map (·.1))))
                               ev := (w.ev.add (evSum es)).once }
      w1.row i (fun x => { x with status := rowDone })

/-- One row's step at an inner node: the child's pointer is read, at CHILDREN + 8j exactly, and the row moves to it (R7, R249). -/
def innerRow (core : Nat) (r : MReq) (d : Node) (w : WSt) (i : Nat) (sc : List Nat) : Except Held WSt :=
  match decideChild d sc with
  | none => .ok (w.fail [i] rowNan none)
  | some j => match (if d.children + 8 * j ≥ 2 ^ 64 then .error .bound else walkRead w.s core r (d.children + 8 * j) 8) with
    | .error e => w.stop [i] e
    | .ok (s1, bs) => .ok (WSt.row { w with s := s1 } i (fun x => { x with node := bytesToNat bs, depth := x.depth + 1, last := j }))

/-- The scores of row `i` at a node. -/
def scoresOf (core : Nat) (r : MReq) (fw : BitVec 32) (d : Node) (brows : List Nat) (s : State) (i : Nat) : List (Nat × Ev) :=
  let a := r.lb + (r.regs.getD 0 {}).nat + i * lowStride (r.regs.getD 4 {})
  rowScores fw (bytesToNat (Memory.readN (s.cluster (clusterOf core)).mem.cells a (ceilDiv (d.k * (matFmt (ctxA fw)).bits) 8))) brows d.n

/-- The rows of a group at a node whose descriptor and matrix are read: every row is scored before the first leaf output is written or
the first child read (R249). -/
def visitRows (core : Nat) (r : MReq) (fw : BitVec 32) (d : Node) (brows : List Nat) (is : List Nat) (w : WSt) : Except Held WSt :=
  let scs := is.map (fun i => (i, scoresOf core r fw d brows w.s i))
  let w1 := { w with ev := (scs.foldl (fun (e : Ev) x => (e.add (evSum x.2)).once) w.ev) }
  scs.foldlM (fun w x =>
    if d.kind = 1 then .ok (leafRow core r d w x.1 (x.2.map (·.1))) else innerRow core r d w x.1 (x.2.map (·.1))) w1

/-- A visit to node `p` with the rows `g` (R249). -/
def visitNode (core : Nat) (r : MReq) (fw : BitVec 32) (k p : Nat) (g : List Nat) (w : WSt) : Except Held WSt :=
  if p % 64 ≠ 0 then .ok (w.fail g rowBound none)
  else match walkRead w.s core r p 64 with
    | .error e => w.stop g e
    | .ok (s1, bs) =>
      let v := bytesToNat bs
      let d := nodeOf v
      let w1 := { w with s := s1 }
      if nodeMalformed v k then .ok (w1.fail g rowBound none)
      else
        let deep := g.filter (fun i => decide (d.kind = 0) && decide ((w1.rows.getD i (WRow.ofRecord 0)).depth ≥ 64))
        let w2 := w1.fail deep rowDepth none
        let rest := g.filter (fun i => !deep.contains i)
        let rb := ceilDiv (d.n * (matFmt (ctxB fw)).bits) 8
        if rest.isEmpty then .ok w2
        else match walkRead w2.s core r d.matrix (k * rb) with
          | .error e => w2.stop rest e
          | .ok (s2, mb) =>
            let brows := (List.range k).map (fun i => bytesToNat ((mb.drop (i * rb)).take rb))
            visitRows core r fw d brows rest { w2 with s := s2 }

/-! ## Levels (R248) -/

/-- The distinct elements of a list in rising order. -/
def risingSet (l : List Nat) : List Nat := (l.foldl (fun (m : Map Unit) x => Map.set m x ()) []).map (·.1)

/-- The rows processed and still descending. -/
def activeRows (w : WSt) : List Nat :=
  (List.range w.rows.length).filter (fun i => match w.rows[i]? with | some x => x.proc && decide (x.status = rowActive) | none => false)

/-- The groups of a level, by NODE ascending. -/
def levelGroups (w : WSt) : List (Nat × List Nat) :=
  let l := activeRows w
  let node := fun (i : Nat) => (w.rows.getD i (WRow.ofRecord 0)).node
  (risingSet (l.map node)).map (fun p => (p, l.filter (fun i => decide (node i = p))))

/-- The levels of a walk, the groups of each visited in order: at most as many as `fuel`. -/
def walkLevelsOf (core : Nat) (r : MReq) (fw : BitVec 32) (k : Nat) : Nat → WSt → Except Held WSt
  | 0, w => .ok w
  | fuel + 1, w =>
    if (activeRows w).isEmpty then .ok w
    else match (levelGroups w).foldlM (fun w g => visitNode core r fw k g.1 g.2 w) w with
      | .error l => .error l
      | .ok w1 => walkLevelsOf core r fw k fuel w1

/-! ## The request (R252 to R257) -/

/-- M and K of a walk. -/
def walkM (r : MReq) : Nat := bits (r.regs.getD 3 {}).nat 7 0
def walkK (r : MReq) : Nat := bits (r.regs.getD 3 {}).nat 28 16

/-- The walk record (R257). (assumption 40, DEDUCED) -/
def walkRecord (m : Nat) (rows : List WRow) : BitVec 128 :=
  let n := fun (st : Nat) => (rows.filter (fun x => x.proc && decide (x.status = st))).length
  let (addr, cause, reason) := match rows.find? (fun x => x.proc && decide (x.status = rowFaulted)) with
    | some x => match x.fail with
      | some (.page, tv, a) => (a, 1, bits tv.toNat 54 52)
      | some (.map, _, a) => (a, 2, 0)
      | some (_, _, a) => (a, 0, 0)
      | none => (0, 0, 0)
    | none => (0, 0, 0)
  BitVec.ofNat 128 (addr * 2 ^ 64 + cause * 2 ^ 62 + reason * 2 ^ 59 + m * 2 ^ 48 + n rowNan * 2 ^ 40 + n rowDepth * 2 ^ 32 +
    n rowBound * 2 ^ 24 + n rowFaulted * 2 ^ 16 + n rowDone * 2 ^ 8)

/-- The rows as a request starts with them (R254). (assumption 40, DEDUCED) -/
def walkRows (c : Cluster) (r : MReq) : List WRow :=
  (List.range (walkM r)).map (fun i =>
    if r.kind = 7 then { node := (r.regs.getD 7 {}).nat, depth := 0, status := rowActive, last := 255, proc := true }
    else WRow.ofRecord (bytesToNat (Memory.readN c.mem.cells (r.lb + (r.regs.getD 6 {}).nat + 16 * i) 16)))

/-- The records of the processed rows written, in order (R254). -/
def writeRecords (s : State) (core : Nat) (r : MReq) (rows : List WRow) : State :=
  (List.range rows.length).foldl (fun s i =>
    match rows[i]? with
    | some x => if x.proc then writeLocal s (clusterOf core) (r.lb + (r.regs.getD 6 {}).nat + 16 * i) (natToBytes 16 x.record) else s
    | none => s) s

/-- The B-stage buffer after a walk: every byte is free (R228, R245). (assumption 10, DESIGN CHOICE) -/
def freeBstage (s : State) (cl : Nat) : State :=
  let s1 := s.setCluster cl { s.cluster cl with bstage := [], bstageGen := s.free + 1 }
  { s1 with free := s.free + 1 }

/-- WALK and WRESUME performed (R254): the state, code, progress and late fault, or what holds up a read that must wait.
(assumption 27, DEDUCED; assumption 40, DEDUCED) -/
def walkPerform (s : State) (core : Nat) (r : MReq) : Except Held (State × Nat × Nat × Option Cause) :=
  let fw := (s.core core).fmtNow
  if walkM r = 0 then .ok (s, 0, 0, none)
  else if ctxAcc fw ≠ 0 ∨ ctxSA fw ∨ ctxSB fw then .ok (s, 1, 0, none)
  else if r.grant = 3 then .ok (s, 2, 0, some .damask)
  else
    match walkLevelsOf core r fw (walkK r) 66 { s := s, rows := walkRows (s.cluster (clusterOf core)) r } with
    | .error l => .error l
    | .ok w =>
      let s1 := freeBstage (countEv (writeRecords w.s core r w.rows) r.tid w.ev) (clusterOf core)
      let s2 := s1.setCore core { s1.core core with walkrec := walkRecord (walkM r) w.rows }
      let ps := w.rows.filter (·.proc)
      let done := (ps.filter (fun x => decide (x.status = rowDone))).length
      if ps.all (fun x => decide (x.status = rowDone)) then .ok (s2, 0, done, none)
      else .ok (s2, 6, done, if ps.any (fun x => decide (x.status = rowFaulted ∨ x.status = rowBound)) then some .walk else none)

/-- The checks of R253 after the refusals. -/
def walkChecks (s : State) (r : Reg) : Res Unit := do
  let g := fun (i : BitVec 6) => s.t.reg (r + i)
  let m := bits (g 3).nat 7 0
  let k := bits (g 3).nat 28 16
  if !(g 1).tag && !(g 2).tag then faultR .captag (capTval (r + 1).toNat false 0 (g 1).nat) else pure ()
  if (g 1).tag then derefCheck (r + 1).toNat false (g 1) (!capLoc (g 1) && !capDam (g 1)) [permR] (g 1).nat 0 else pure ()
  if (g 2).tag then derefCheck (r + 2).toNat false (g 2) (capDam (g 2) && !capLoc (g 2)) [permR] (g 2).nat 0 else pure ()
  if m = 0 then pure ()
  else do
    rowsCheck (fun a n => checkLocal s s.cur r.toNat (g 0) a.toNat n true false) (g 0).nat (lowStride (g 4) : Int) m (ceilDiv (k * (matFmt (ctxA s.c.fmtLatest)).bits) 8)
    rowsCheck (fun a n => checkLocal s s.cur (r + 5).toNat (g 5) a.toNat n false true) (g 5).nat (highStride (g 4) : Int) m (highStride (g 4))
    checkLocal s s.cur (r + 6).toNat (g 6) (g 6).nat (16 * m) true true

/-- WALK and WRESUME at issue (R253); WRESUME does not read G[s+7] (R252). (assumption 83, DEDUCED) -/
def walkForm (i : Instr) (q : Pre) (kind : Nat) (d r : Reg) (s : State) : Step :=
  issue q { base := baseParcel i, rgroups := [(r, 8)], writes := [d], unread := if kind = 8 then [r + 7] else [] }
    (fun s => do
      matrixService s (baseParcel i)
      writeCheck s d
      let g3 := (s.t.reg (r + 3)).nat
      if bits g3 7 0 > 128 ∨ bits g3 28 16 = 0 ∨ bits g3 28 16 > 4096 ∨ (s.t.reg (r + 6)).nat % 16 ≠ 0 then
        completeNow q 4 (baseParcel i) s d 6 1 0
      else do
        walkChecks s r
        queuePlace s
        let (s1, seq) ← takeRing q 4 (baseParcel i) s
        pure (enqueueM (markToken s1 d seq 2) (mreq s kind d.toNat seq (groupVals s.t r 8)))) s

/-- WALK (R253, R254). -/
def execWalk (q : Pre) (d r : Reg) (s : State) : Step := walkForm (.walk q d r) q 7 d r s
/-- WRESUME (R253, R254). -/
def execWresume (q : Pre) (d r : Reg) (s : State) : Step := walkForm (.wresume q d r) q 8 d r s

/-- WSTAT (R258): queued; its register is not ready until it leaves the queue. -/
def execWstat (q : Pre) (d : Reg) (s : State) : Step :=
  issue q { base := baseParcel (.wstat q d), writes := [d] }
    (fun s => do
      matrixService s (baseParcel (.wstat q d))
      writeCheck s d
      queuePlace s
      let (s1, seq) ← takeRing q 4 (baseParcel (.wstat q d)) s
      pure (enqueueM (markToken s1 d seq 1) (mreq s 9 d.toNat seq []))) s

/-! ## Event rows -/

/-- WSTAT_AT_HEAD (R258): the walk record goes into the register. -/
def wstatHead (s : State) (core : Nat) : State :=
  match (s.core core).mq with
  | r :: _ =>
    if r.kind ≠ 9 ∨ halted s r.bolt r.tid ∨ !landRoom s r.tid (BitVec.ofNat 6 r.tok) then s
    else
      let s1 := endSeq (popM s core) r.tid r.seq
      let t := s.thread r.tid
      if t.occ = .empty ∨ !t.cmds.any (fun c => decide (c.1 = r.seq)) then s1
      else withCur r.tid (fun s2 =>
        putReg (s2.setT { s2.t with pending := s2.t.pending.erase r.tok }) (BitVec.ofNat 6 r.tok) { bits := (s.core core).walkrec }) s1
  | [] => s

/-- The ranges of local memory that a granted request reads and writes by the accumulator path and the A path (R128): address and length.
(assumption 24, DEDUCED) -/
def matrixRanges (s : State) (core : Nat) (r : MReq) : List (Nat × Nat) :=
  let g := fun (i : Nat) => (r.regs.getD i {}).nat
  let rows := fun (i m stride n : Nat) => (List.range m).map (fun j => (r.lb + g i + j * stride, n))
  let w := (s.core core).fmtNow
  let low := fun (i : Nat) => g i % 2 ^ 32
  let high := fun (i : Nat) => g i / 2 ^ 32 % 2 ^ 32
  match r.kind with
  | 1 | 2 =>
    let h := mmShape (r.regs.getD 2 {})
    (if r.stream.isSome then [] else rows 0 h.m (low 3) (ceilDiv (h.k * (matFmt (ctxA w)).bits) 8)) ++
    (if ctxSA w then rows 4 h.m (low 6) (h.blocks * scaleBytes (ctxA w)) else []) ++
    (if ctxSB w then rows 5 h.blocks (high 6) (h.n * scaleBytes (ctxB w)) else [])
  | 3 =>
    let h := drainShape (r.regs.getD 2 {})
    let f := drainFmt (r.regs.getD 2 {})
    rows 0 h.m (low 3) (ceilDiv (h.n * drainBits f) 8) ++ (if drainScaled f then rows 1 h.m (high 3) (ceilDiv h.n 32 * drainScaleBytes f) else [])
  | 4 | 5 => [(r.lb + g 0, tileBytes)]
  | 7 | 8 =>
    rows 0 (walkM r) (low 4) (ceilDiv (walkK r * (matFmt (ctxA w)).bits) 8) ++ rows 5 (walkM r) (high 4) (high 4) ++ [(r.lb + g 6, 16 * walkM r)]
  | _ => []

/-- Their banks taken. -/
def matrixBanks (s : State) (core : Nat) (r : MReq) : State :=
  (matrixRanges s core r).foldl (fun s x => takeBanks s (clusterOf core) x.1 x.2) s

/-- MATRIX_REQUEST_COMPLETE (R235, R236, R239, R240, R254): the granted request of the core is performed and its token
completes; it stays while its reads must wait, while banks that it needs are owed to a core (R128), or while writes of its thread that
came before it are not performed. -/
def matrixComplete (s : State) (core : Nat) : State :=
  if (s.cluster (clusterOf core)).arrayBusy ≠ some core then s
  else match (s.core core).mq with
    | [] => s
    | r :: _ =>
      let ended := fun (kind : Nat) (x : State × Nat × Nat × Option Cause) =>
        complete (endGrant x.1 core r) r.tid r.tok r.seq kind x.2.1 x.2.2.1 x.2.2.2
      if r.grant = 0 || refreshStall s core r || (if r.kind ≥ 7 then writesBefore s r.tid r.seq else windowWritesOut s r.tid r.seq) ||
          (matrixRanges s core r).any (fun x => banksOwed (s.cluster (clusterOf core)) x.1 x.2) then s
      else
        let t := matrixBanks s core r
        match r.kind with
        | 1 => ended 4 (mmPerform t core r)
        | 2 => ended 4 (mmPerform t core r)
        | 3 => ended 5 (drainPerform t core r)
        | 4 => endMacc (endGrant (maccPerform t core r) core r) r
        | 5 => endMacc (endGrant (maccPerform t core r) core r) r
        | 6 => endMacc (endGrant (maccPerform t core r) core r) r
        | _ => match walkPerform t core r with
          | .error x => askFor s x
          | .ok x => ended 6 x

/-- WSTAT_AT_HEAD (R258). -/
def execWstatAtHead (core : Nat) (s : State) : Step := withUnit (decide (core < 2048)) (wstatHead s core)
/-- MATRIX_REQUEST_COMPLETE (R236). -/
def execMatrixRequestComplete (core : Nat) (s : State) : Step := withUnit (decide (core < 2048)) (matrixComplete s core)

end Sys2Proof.Machine
end

