-- ==== Sys2Proof/Machine/Sorter.lean ====
section
/-!
DEFINITION. The Sorter of a die: SORT and SORTC (R259 to R265), and the event rows SORTER_ACCEPT and SORTER_RUN.
-/
namespace Sys2Proof.Machine

/-! ## The request (R260 to R262) -/

/-- A Sorter request's parameters, from its layout entry and command group. -/
structure SortPar where
  base : Nat
  t : Nat
  e : Nat
  type : Nat
  tstr : Nat
  estr : Nat
  k : Nat
  bf : Bool
  listed : Bool
  deriving DecidableEq, Repr

/-- The parameters of a layout entry (R260) and of G[s+1] (R261). -/
def sortPar (layout : List W64) (g1 : Val) (listed : Bool) : SortPar :=
  let w := fun (i : Nat) => (layout.getD i 0).toNat
  { base := w 0, t := bits (w 1) 31 0, e := bits (w 1) 47 32, type := bits (w 1) 55 48, tstr := bits (w 2) 31 0, estr := bits (w 2) 63 32,
    k := bits g1.nat 11 8, bf := bitAt g1.nat 12, listed := listed }

/-- The format of the scores, if the code is one of the three (R260). -/
def scoreFmt (c : Nat) : Option Ieee :=
  if c = 19 then some f32 else if c = 18 then some f16 else if c = 26 then some b16 else none
/-- Bytes of a score. -/
def scoreBytes (c : Nat) : Nat := if c = 19 then 4 else 2
/-- Bytes of a weight. -/
def SortPar.ws (p : SortPar) : Nat := if p.bf then 2 else 4

/-- A request refused with code 1 (R262). -/
def sortRefused (s : State) (layout : List W64) (p : SortPar) : Bool :=
  let w3 := layout.getD 3 0
  !w3.getLsbD 8 || decide (w3.toNat % 256 ≠ s.t.bolt % 256) || decide (p.k < 1 ∨ p.k > 8) || decide (p.k > p.e) ||
  decide (p.e < 1 ∨ p.e > 1024) || (scoreFmt p.type).isNone || decide (p.t > 2 ^ 24)

/-- The check of one region (R262). (assumption 41, DEDUCED) -/
def regionCheck (s : State) (x : Reg) (need a n : Nat) : Res Unit :=
  let v := s.t.reg x
  derefCheck x.toNat false v (!capLoc v && !capDam v) [need] a n

/-- The checks of R262 in register order. (assumption 41, DEDUCED) -/
def sortChecks (s : State) (r : Reg) (p : SortPar) : Res Unit := do
  let cur := fun (i : BitVec 6) => (s.t.reg (r + i)).nat
  if p.t = 0 then pure ()
  else do
    regionCheck s r permR p.base ((p.t - 1) * p.tstr + (p.e - 1) * p.estr + scoreBytes p.type)
    regionCheck s (r + 2) permW (cur 2) (2 * p.k * p.t)
    regionCheck s (r + 3) permW (cur 3) (p.ws * p.k * p.t)
  regionCheck s (r + 4) permW (cur 4) (4 * p.e)
  if !p.listed then pure ()
  else do
    if p.t = 0 then pure () else regionCheck s (r + 5) permR (cur 5) (2 * p.k * p.t)
    regionCheck s (r + 6) permW (cur 6) (4 + 4 * p.t)

/-- SORT and SORTC at issue (R262); SORT reads neither G[s+5] nor G[s+6] (R261). (assumption 83, DEDUCED) -/
def sortForm (i : Instr) (q : Pre) (listed : Bool) (d r : Reg) (s : State) : Step :=
  issue q { base := baseParcel i, rgroups := [(r, 8)], writes := [d], unread := if listed then [] else [r + 5, r + 6] }
    (fun s => do
      let so := (s.die (dieOf s.curCore)).sorter
      inService so.out 3 (baseParcel i)
      writeCheck s d
      let g1 := s.t.reg (r + 1)
      let layout := (List.range 4).map (fun j => Map.get so.layout (4 * (g1.nat % 64) + j) 0#64)
      let p := sortPar layout g1 listed
      if sortRefused s layout p then completeNow q 4 (baseParcel i) s d 7 1 0
      else do
        sortChecks s r p
        queuePlace s
        let (s1, seq) ← takeRing q 4 (baseParcel i) s
        let m := { mreq s (if listed then 11 else 10) d.toNat seq (groupVals s.t r 8) with layout := layout }
        pure (enqueueM (markToken s1 d seq 2) m)) s

/-- SORT (R263). -/
def execSort (q : Pre) (d r : Reg) (s : State) : Step := sortForm (.sort q d r) q false d r s
/-- SORTC (R263). -/
def execSortc (q : Pre) (d r : Reg) (s : State) : Step := sortForm (.sortc q d r) q true d r s

/-! ## A token (R263) -/

/-- σ of a score's bits in binary32. -/
def sigmaOf (k : Ieee) (b : Nat) : Nat × Ev :=
  match k.decode b with
  | .nan sig => (f32.nan, Ev.invalidIf sig)
  | v => fnValue f32 0 .sig ((Fmt.ieee f32).encode 0 v).1

/-- Whether σ `a` ranks above σ `b`: by value, a NaN below every number. -/
def ranksAbove (a b : Nat) : Bool :=
  let x := f32.decode a
  let y := f32.decode b
  (y.isNan && !x.isNan) || decide (x.compare y = some .gt)

/-- The best expert not among `used`: the greatest σ, the lowest index among equals. -/
def bestExpert (sg : List Nat) (used : List Nat) : Nat :=
  ((List.range sg.length).foldl (fun (b : Option Nat) x =>
    if used.contains x then b else match b with
      | none => some x
      | some y => if ranksAbove (sg.getD x 0) (sg.getD y 0) then some x else b) none).getD 0

/-- The first `k` experts of the order. -/
def winners (sg : List Nat) : Nat → List Nat
  | 0 => []
  | k + 1 => let w := winners sg k; w ++ [bestExpert sg w]

/-- S: the winners' σ added in rising expert index. -/
def sigmaSum (sg ws : List Nat) : Nat × Ev :=
  (risingSet ws).foldl (fun (a : Nat × Ev) x => let r := elAdd (.ieee f32) 0 a.1 (sg.getD x 0); (r.1, a.2.add r.2)) (0, {})

/-- A weight of the format `t`: σ / S, or 1/k when S is 0; a NaN sum gives the canonical NaN and counts invalid. -/
def weightOf (t : Ieee) (k sg sum : Nat) : Nat × Ev :=
  match f32.decode sum, f32.decode sg with
  | .fin _ n g, .fin _ m e =>
    if n = 0 then t.roundRatio 0 false 1 k false
    else if m = 0 then (0, {})
    else t.roundRatio 0 false (m * 2 ^ (e - g).toNat) (n * 2 ^ (g - e).toNat) false
  | _, _ => (t.nan, Ev.invalid)

/-! ## The run (R263, R264) -/

/-- The Sorter's working state. -/
structure SortSt where
  s : State
  cnt : Map Nat := []
  n : Nat := 0
  ev : Ev := {}

/-- How a request stops: it must wait, with what it asks for next, or a translation fault of its reads or writes. -/
inductive SortStop where
  | busy (l : Held)
  | fault (c : Cause)
  deriving DecidableEq, Repr

/-- The Sorter of a core's die as it performs a request: it is in no cluster, but of its die (R271), and a press does not hold what it has
accepted (R265). (assumption 65, DESIGN CHOICE) -/
def sortWho (core : Nat) (r : MReq) : Who :=
  { engineWho r.bolt core r.mode ((r.regs.getD 7 {}).bits.setWidth 32) r.cls with
    core := dieAgent (dieOf core), requester := otherRequester, free := true }

/-- What stopped an access of the Sorter. -/
def sortStop : PullEnd → SortStop
  | .wait a => .busy a
  | .fault _ c _ => .fault c

/-- A read by the Sorter. (assumption 41, DEDUCED) -/
def sortRead (s : State) (core : Nat) (r : MReq) (a n : Nat) : Except SortStop (State × Nat) :=
  ((pullRead s (commandKey r.seq) 0 (sortWho core r) r.tid (a % 2 ^ 64) n).map (fun x => (x.1, bytesToNat x.2))).mapError sortStop

/-- A write by the Sorter. (assumption 41, DEDUCED) -/
def sortWrite (core : Nat) (r : MReq) (a n v : Nat) (s : State) : Except SortStop State :=
  (pullWrite s (commandKey r.seq) (sortWho core r) r.tid (a % 2 ^ 64) (natToBytes n v)).mapError sortStop

/-- Whether the Sorter's writes of some ranges would be translated: asked before the first of them is made, so that none is where one
would fault (R264). (assumption 87, DEDUCED) -/
def sortProbes (core : Nat) (r : MReq) (l : List (Nat × Nat)) (s : State) : Except SortStop State :=
  l.foldlM (fun s x => (pullProbe s (commandKey r.seq) (sortWho core r) r.tid (x.1 % 2 ^ 64) x.2).mapError sortStop) s

/-- The values read one after another, and how the reading stopped. -/
def sortReads (core : Nat) (r : MReq) (n : Nat) : List Nat → State → State × List Nat × Option SortStop
  | [], s => (s, [], none)
  | a :: rest, s => match sortRead s core r a n with
    | .error e => (s, [], some e)
    | .ok (s1, v) =>
      let (s2, l, e) := sortReads core r n rest s1
      (s2, v :: l, e)

/-- A stop with the conditions that had occurred. -/
def stopIf (e : Option SortStop) (ev : Ev) : Except (SortStop × Ev) Unit :=
  match e with | some e => .error (e, ev) | none => .ok ()

/-- A write that may stop, with the conditions that had occurred. -/
def sortPut (core : Nat) (r : MReq) (a n v : Nat) (ev : Ev) (s : State) : Except (SortStop × Ev) State :=
  (sortWrite core r a n v s).mapError (·, ev)

/-- One token (R263): its scores read, its indices, weights and list entry written. A token that stops has counted the conditions of
the scores it could read, and of its sums and weights where it read them all (R185). (assumption 41, DEDUCED) -/
def sortToken (core : Nat) (r : MReq) (p : SortPar) (fmt : Ieee) (w : SortSt) (t : Nat) : Except (SortStop × Ev) SortSt := do
  let cur := fun (i : Nat) => (r.regs.getD i {}).nat
  let (s1, raw, e1) := sortReads core r (scoreBytes p.type) ((List.range p.e).map (fun x => p.base + t * p.tstr + x * p.estr)) w.s
  let sgs := raw.map (sigmaOf fmt)
  stopIf e1 (evSum sgs)
  let sg := sgs.map (·.1)
  let win := winners sg p.k
  let sum := sigmaSum sg win
  let wf := if p.bf then b16 else f32
  let wts := win.map (fun x => weightOf wf p.k (sg.getD x 0) sum.1)
  let ev := ((evSum sgs).add sum.2).add (evSum wts)
  let (s2, pred, e2) := if p.listed then sortReads core r 2 ((List.range p.k).map (fun j => cur 5 + 2 * (p.k * t + j))) s1 else (s1, [], none)
  stopIf e2 ev
  let mask := ((List.range p.k).map (fun j => if pred.contains (win.getD j 0) then 0 else 2 ^ j)).sum
  let miss := p.listed && decide (mask ≠ 0)
  let sp ← (sortProbes core r ([(cur 2 + 2 * p.k * t, 2 * p.k), (cur 3 + p.ws * p.k * t, p.ws * p.k)] ++
    (if miss then [(cur 6 + 4 + 4 * w.n, 4)] else [])) s2).mapError (·, ev)
  let s3 ← sortPut core r (cur 2 + 2 * p.k * t) (2 * p.k) (ofLanes 16 win) ev sp
  let s4 ← sortPut core r (cur 3 + p.ws * p.k * t) (p.ws * p.k) (ofLanes (8 * p.ws) (wts.map (·.1))) ev s3
  let s5 ← if miss then sortPut core r (cur 6 + 4 + 4 * w.n) 4 (t + mask * 2 ^ 24) ev s4 else pure s4
  pure { s := s5, cnt := win.foldl (fun c x => Map.set c x (Map.get c x 0 + 1)) w.cnt, n := if miss then w.n + 1 else w.n, ev := (w.ev.add ev).once }

/-- Tokens in ascending order; a stop keeps the state before its token (R264), with the conditions that occurred in it. (assumption 41, DEDUCED) -/
def sortTokens (core : Nat) (r : MReq) (p : SortPar) (fmt : Ieee) : Nat → Nat → SortSt → SortSt × Option (SortStop × Nat)
  | 0, _, w => (w, none)
  | f + 1, t, w => match sortToken core r p fmt w t with
    | .error (e, ev) => ({ w with ev := (w.ev.add ev).once }, some (e, t))
    | .ok w1 => sortTokens core r p fmt f (t + 1) w1

/-- The histogram and the list count, after the last token. Where one of them meets a fault, nothing of either stays written.
(assumption 73, DESIGN CHOICE) -/
def sortTail (core : Nat) (r : MReq) (p : SortPar) (w : SortSt) : Except SortStop State := do
  let cur := fun (i : Nat) => (r.regs.getD i {}).nat
  let sp ← sortProbes core r ([(cur 4, 4 * p.e)] ++ (if p.listed then [(cur 6, 4)] else [])) w.s
  let s1 ← sortWrite core r (cur 4) (4 * p.e) (ofLanes 32 ((List.range p.e).map (fun x => Map.get w.cnt x 0))) sp
  if p.listed then sortWrite core r (cur 6) 4 w.n s1 else pure s1

/-- SORTER_RUN (R263, R264): the request at the head is performed and its token completes; it stays while an access must
wait. (assumption 41, DEDUCED; assumption 71, DEDUCED) -/
def sorterRun (s : State) (die : Nat) : State :=
  let so := (s.die die).sorter
  match so.queue with
  | [] => s
  | (core, r) :: rest =>
    let p := sortPar r.layout (r.regs.getD 1 {}) (decide (r.kind = 11))
    let ended := fun (w : SortSt) (s1 : State) (code prog : Nat) (late : Option Cause) =>
      let s1 := endPulls s1 r.bolt (commandKey r.seq)
      let d := s1.die die
      complete (countEv (s1.setDie die { d with sorter := { d.sorter with queue := rest } }) r.tid w.ev) r.tid r.tok r.seq 7 code prog late
    match sortTokens core r p ((scoreFmt p.type).getD f32) p.t 0 { s := s } with
    | (_, some (.busy l, _)) => askFor s l
    | (w, some (.fault c, t)) => ended w w.s (stopCode c) t (some c)
    | (w, none) => match sortTail core r p w with
      | .error (.busy l) => askFor s l
      | .error (.fault c) => ended w w.s (stopCode c) p.t (some c)
      | .ok s1 => ended w s1 0 p.t none

/-- SORTER_ACCEPT (R259): the Sorter, whose 32 places hold the request it performs too, takes the request at the head of a core's queue when it has a place, and when what its thread wrote
before it has been performed, for the request sees that and then completes whatever a press holds (R265). (assumption 71, DEDUCED) -/
def sorterAccept (s : State) (core : Nat) : State :=
  match (s.core core).mq with
  | r :: _ =>
    let d := s.die (dieOf core)
    if (r.kind = 10 ∨ r.kind = 11) ∧ !halted s r.bolt r.tid ∧ d.sorter.queue.length < 32 ∧ !writesBefore s r.tid r.seq then
      (popM s core).setDie (dieOf core) { d with sorter := { d.sorter with queue := d.sorter.queue ++ [(core, r)] } }
    else s
  | [] => s

/-- SORTER_ACCEPT (R259). -/
def execSorterAccept (core : Nat) (s : State) : Step := withUnit (decide (core < 2048)) (sorterAccept s core)
/-- SORTER_RUN (R263). -/
def execSorterRun (die : Nat) (s : State) : Step := withUnit (decide (die < Config.dies)) (sorterRun s die)

end Sys2Proof.Machine
end

