-- ==== Sys2Proof/Machine/Launch.lean ====
section
/-!
DEFINITION. Threads, blocks and launches (R287 to R300, R390): groups, LAUNCH, placement, FORK, JOIN, retirement, eviction and
restore; and the event rows BLOCK_PLACEMENT, THREAD_EVICT and THREAD_RESTORE.
-/
namespace Sys2Proof.Machine

/-! ## Groups (R289, R291) -/

/-- ARRIVED, MEMBERS, GEN and BOUND of a group of a bolt. -/
def groupArrived (b : Bolt) (j : Nat) : Nat := (Map.get b.groups (4 * j + 2) 0#64).toNat / 2 ^ 32
def groupMembers (b : Bolt) (j : Nat) : Nat := (Map.get b.groups (4 * j + 2) 0#64).toNat % 2 ^ 32
def groupGen (b : Bolt) (j : Nat) : Nat := (Map.get b.groups (4 * j + 3) 0#64).toNat % 2 ^ 32
def groupIsBound (b : Bolt) (j : Nat) : Bool := decide (j = 0) || (Map.get b.groups (4 * j + 3) 0#64).getLsbD 32
/-- Word 0 of an entry, its fields FORM, M and K, and MASKVA. -/
def groupWord (b : Bolt) (j : Nat) : W64 := Map.get b.groups (4 * j) 0#64
def formOf (w : W64) : Nat := bits w.toNat 1 0
def formM (w : W64) : Nat := bits w.toNat 31 16
def formK (w : W64) : Nat := bits w.toNat 47 32
def groupMask (b : Bolt) (j : Nat) : Nat := (Map.get b.groups (4 * j + 1) 0#64).toNat

/-- Counts of a group written: a group other than 0 with no member is unbound (R291). (assumption 98, DESIGN CHOICE) -/
def setGroup (b : Bolt) (j arrived members gen : Nat) (bound : Bool) : Bolt :=
  let w2 : W64 := BitVec.ofNat 64 (arrived % 2 ^ 32 * 2 ^ 32 + members % 2 ^ 32)
  let w3 : W64 := BitVec.ofNat 64 ((bound && decide (members ≠ 0) && decide (j ≠ 0)).toNat * 2 ^ 32 + gen % 2 ^ 32)
  { b with groups := Map.set (Map.set b.groups (4 * j + 2) w2) (4 * j + 3) w3 }

/-- Whether a thread is a member of a group of its bolt (R301). -/
def inGroup (t : Thread) (j : Nat) : Bool := decide (j = 0) || t.gslot.any (fun p => p.2.getLsbD 8 && decide (p.2.toNat % 256 = j))

/-- The groups of a thread: group 0, then those of its valid slots. -/
def groupsOf (t : Thread) : List Nat := 0 :: ((t.gslot.filter (fun p => p.2.getLsbD 8)).map (fun p => p.2.toNat % 256))

/-- The threads of a group of a bolt, wherever they are. -/
def membersOf (s : State) (bolt j : Nat) : List Nat :=
  (s.threads.filter (fun p => decide (p.2.bolt = bolt) && inGroup p.2 j && !isSystem (coreOf p.1) &&
    decide (p.2.occ ≠ .empty) && !(decide (p.2.occ = .evicted) && decide (p.1 < 8192)))).map (·.1)

/-- The smallest of core, cluster, die and module that contains some cores. -/
def scopeOver : List Nat → Nat
  | [] => 1
  | c :: r =>
    if r.all (· = c) then 1
    else if r.all (fun x => clusterOf x = clusterOf c) then 2
    else if r.all (fun x => dieOf x = dieOf c) then 3 else 4

/-- The cores that have held a member of a group since the generation under way began: those that hold one, and those that members have
left by retiring or by an eviction, for the scope of a barrier does not narrow (R285). A member that is placed or restored during the
generation counts with its core. (assumption 33, DEDUCED) -/
def memberCores (s : State) (bolt j : Nat) : List Nat :=
  ((membersOf s bolt j).filter (fun m => decide ((s.thread m).occ ≠ .evicted))).map coreOf ++ (Map.get (s.bolt bolt).barriers j {}).left

/-- The scope of a barrier (R285). (assumption 33, DEDUCED) -/
def barrierScope (s : State) (bolt j : Nat) : Nat := scopeOver (memberCores s bolt j)

/-- A member leaves its core: its groups keep the core in the scope of the generation under way. -/
def leaveCore (s : State) (tid : Nat) : State :=
  let t := s.thread tid
  let b := s.bolt t.bolt
  s.setBolt t.bolt { b with barriers := (groupsOf t).foldl (fun m j =>
    let x := Map.get m j {}
    Map.set m j { x with left := if x.left.contains (coreOf tid) then x.left else x.left ++ [coreOf tid] }) b.barriers }

/-- The 128 bytes of a gather (R370). -/
def gatherSums (b : Bolt) (j : Nat) : List (BitVec 8) :=
  let l := (b.snaps.filter (fun p => decide (p.1 / destSpan = j))).map (·.2)
  (List.range 16).flatMap (fun i => natToBytes 8 ((l.map (fun x => x.getD i 0)).sum))

/-- A gathered record written for one member in its window; in global memory it is to be written before any member departs (R301).
(assumption 88, DESIGN CHOICE) -/
def writeGather (s : State) (b : Nat) (bs : List (BitVec 8)) (g : Nat × Nat × Val) : State :=
  let tid := g.2.1
  let v := g.2.2
  if capLoc v then writeLocal s (clusterOf (coreOf tid)) ((windowOf s tid).1 + v.nat) bs
  else s.setBolt b { s.bolt b with records := (s.bolt b).records ++ [(g.1, tid, v, bs)] }

/-- A gathered record goes into global memory, under the member's POL. Where its address fails translation, its part there is dropped, and
those after it, and nothing is recorded: the rules name no fault for it (R301). (assumption 88, DESIGN CHOICE) -/
def writeRecord (s : State) (b : Nat) (x : Nat × Nat × Val × List (BitVec 8)) : State :=
  let tid := x.2.1
  let key := gatherKey x.1 tid
  match pullWrite s key (threadWho s tid (s.thread tid).pol) tid x.2.2.1.nat x.2.2.2 with
  | .error (.wait a) => askFor s a
  | _ =>
    let s1 := endPulls s b key
    s1.setBolt b { s1.bolt b with records := (s1.bolt b).records.erase x }

/-- The end of a generation: the gathers are written, or about to be, GEN advances and ARRIVED is 0 (R301); what R285 needs of it is kept for those
that depart. -/
def endGeneration (s : State) (b j : Nat) : State :=
  let bo := s.bolt b
  let bs := gatherSums bo j
  let s1 := (bo.gathers.filter (fun g => decide (g.1 = j))).foldl (fun s g => writeGather s b bs g) s
  let b1 := s1.bolt b
  s1.setBolt b { setGroup b1 j 0 (groupMembers b1 j) (groupGen b1 j + 1) (groupIsBound b1 j) with
    snaps := b1.snaps.filter (fun p => decide (p.1 / destSpan ≠ j)), gathers := b1.gathers.filter (fun g => decide (g.1 ≠ j))
    barriers := Map.set b1.barriers j { cores := memberCores s b j, scope := (Map.get b1.barriers j {}).least, no := s.pkts } }

/-- A group's counts changed; a barrier that now has ARRIVED = MEMBERS completes (R295, R301); without members there is no generation
under way. -/
def regroup (s : State) (b j arrived members : Nat) : State :=
  let b1 := setGroup (s.bolt b) j arrived members (groupGen (s.bolt b) j) (groupIsBound (s.bolt b) j)
  let s1 := s.setBolt b { b1 with barriers := if members = 0 then Map.erase b1.barriers j else b1.barriers }
  if arrived = members ∧ arrived ≠ 0 then endGeneration s1 b j else s1

/-- Members join a group, or leave it. (assumption 36, DEDUCED) -/
def joinGroup (s : State) (b j n : Nat) : State := regroup s b j (groupArrived (s.bolt b) j) (groupMembers (s.bolt b) j + n)
/-- Members leave a group. (assumption 36, DEDUCED) -/
def leaveGroup (s : State) (b j n : Nat) : State := regroup s b j (groupArrived (s.bolt b) j) (groupMembers (s.bolt b) j - n)

/-- Whether a group's form selects a block: word 0 of its entry, and its mask as it was read (R289). -/
def selects (w : W64) (mask block : Nat) : Bool :=
  match formOf w with
  | 1 => true
  | 2 => decide (block % formM w = formK w)
  | 3 => bitAt mask block
  | _ => false

/-- How many of `n` blocks a group selects. -/
def selected (w : W64) (mask n : Nat) : Nat :=
  match formOf w with
  | 1 => n
  | 2 => if n > formK w then (n - 1 - formK w) / formM w + 1 else 0
  | 3 => ((List.range n).filter (fun i => bitAt mask i)).length
  | _ => 0

/-! ## The record (R288) -/

/-- A launch record. -/
structure LRec where
  entry : Val
  presets : List W64
  blocks : Nat
  threads : Nat
  allot : Nat
  ws : Nat
  place : Nat
  prio : Nat
  img : Option Nat
  /-- valid GROUPn fields, in order -/
  groups : List Nat
  clean : Bool
  deriving DecidableEq, Repr

/-- The record of 64 bytes and its entry's tag. -/
def recordOf (v : Nat) (tag : Bool) : LRec :=
  let g := fun (i : Nat) => bits v (482 + 9 * i - 8 + 8) (474 + 9 * i)
  { entry := { bits := BitVec.ofNat 128 v, tag := tag }
    presets := (List.range 4).map (fun i => BitVec.ofNat 64 (v / 2 ^ (128 + 64 * i)))
    blocks := bits v 415 384
    threads := bits v 420 416 + 1
    allot := 16 + 8 * bits v 423 421
    ws := (bits v 432 424 + 1) * 4096
    place := bits v 434 433
    prio := bits v 436 435
    img := if bitAt v 437 then some (bits v 473 438 * 65536) else none
    groups := ((List.range 4).filter (fun i => bitAt (g i) 8)).map (fun i => g i % 256)
    clean := decide (bits v 511 510 = 0) && decide (bits v 423 421 ≠ 7) && decide (bits v 434 433 ≠ 3) }

/-! ## Fitting (R292) -/

/-- A core as placement sees it: its number, free slots and free register entries. -/
structure Room where
  core : Nat
  slots : List Nat
  entries : Nat
  deriving DecidableEq, Repr

/-- The room of a cluster's live cores, in logical order; `empty` takes the cluster as if nothing were resident. -/
def roomOf (s : State) (cl : Nat) (empty : Bool) : List Room :=
  (liveCores s cl).map (fun c =>
    if empty then { core := c, slots := [0, 1, 2, 3], entries := Config.regEntries }
    else { core := c, slots := (List.range 4).filter (fun i => decide ((s.thread (c * 4 + i)).occ = .empty)), entries := freeEntries s c })

/-- The core for the next thread: the most free slots, the lowest logical core among equals. -/
def bestRoom (l : List Room) (a : Nat) : Option Room :=
  l.foldl (fun b r =>
    if r.slots.isEmpty ∨ r.entries < a then b else match b with
      | none => some r
      | some x => if r.slots.length > x.slots.length then some r else b) none

/-- Slots for `n` threads of allotment `a`, thread by thread, and the room left. -/
def assign (a : Nat) : Nat → List Room → Option (List Nat × List Room)
  | 0, l => some ([], l)
  | n + 1, l => match bestRoom l a with
    | none => none
    | some r => match r.slots with
      | [] => none
      | i :: rest =>
        match assign a n (l.map (fun x => if x.core = r.core then { r with slots := rest, entries := r.entries - a } else x)) with
        | none => none
        | some (ts, l') => some ((r.core * 4 + i) :: ts, l')

/-- The lowest free run of `ws` bytes outside windows given as base and size. -/
def freeRun (wins : List (Nat × Nat)) (ws : Nat) : Option Nat :=
  let ends := risingSet (0 :: wins.map (fun w => w.1 + w.2))
  ends.find? (fun a => decide (a + ws ≤ Config.localBytes) && !wins.any (fun w => decide (w.1 < a + ws) && decide (a < w.1 + w.2)))

/-- The 64 KiB of a cluster's trace ring once it is placed or in use (R361). (assumption 45, DEDUCED) -/
def ringRun (s : State) (cl : Nat) : List (Nat × Nat) :=
  if capturing s cl ∨ (s.cluster cl).trBase ≠ 0 then [((s.cluster cl).trBase * 65536, 65536)] else []

/-- The pages of a cluster in which contexts of evicted threads are saved (R299). -/
def savedPages (s : State) (cl : Nat) : List (Nat × Nat) :=
  s.threads.filterMap (fun p => match p.2.room with
    | some (.page c b) => if c = cl ∧ p.2.occ = .evicted then some (b, 4096) else none
    | _ => none)

/-- What is taken of a cluster's local memory: the windows, the trace ring, saved contexts. (assumption 45, DEDUCED) -/
def windowsOf (s : State) (cl : Nat) : List (Nat × Nat) :=
  (s.blocks.filter (fun p => decide (p.2.cluster = cl))).map (fun p => (p.2.lb, p.2.ws)) ++ ringRun s cl ++ savedPages s cl

/-- Where a block fits a cluster: its window's base and its threads' slots. -/
def fits (s : State) (cl ws threads a : Nat) : Option (Nat × List Nat) :=
  match freeRun (windowsOf s cl) ws, assign a threads (roomOf s cl false) with
  | some lb, some (ts, _) => some (lb, ts)
  | _, _ => none

/-- Whether a cluster with nothing in it but its trace ring holds a block. -/
def fitsEmpty (s : State) (ws threads a cl : Nat) : Bool :=
  (freeRun (ringRun s cl) ws).isSome && (assign a threads (roomOf s cl true)).isSome

/-- How many blocks a cluster with nothing in it holds, at most `fuel`. -/
def holdsEmpty (ws threads a : Nat) : Nat → List Room → List (Nat × Nat) → Nat
  | 0, _, _ => 0
  | f + 1, l, wins => match freeRun wins ws, assign a threads l with
    | some lb, some (_, l') => holdsEmpty ws threads a f l' ((lb, ws) :: wins) + 1
    | _, _ => 0

/-- Whether the bolt's clusters, all empty, hold every block. -/
def holdsAll (s : State) (b : Nat) (r : LRec) : Bool :=
  decide (r.blocks ≤ (((s.bolt b).clusters).map (fun cl => holdsEmpty r.ws r.threads r.allot 32 (roomOf s cl true) (ringRun s cl))).sum)

/-! ## LAUNCH (R290) -/

/-- Whether bytes can be read, page by page. -/
def readable (s : State) (va n : Nat) : Bool :=
  decide (n = 0) || (List.range ((va + n - 1) / 4096 + 1 - va / 4096)).all (fun i =>
    match gathPart s (max va ((va / 4096 + i) * 4096)) 1 with
    | .ok _ => true
    | .error _ => false)

/-- Whether each element of a list is there once. -/
def distinct : List Nat → Bool
  | [] => true
  | a :: r => !r.contains a && distinct r

/-- `Valid(rec)` (R290), under the record capability `v`. -/
def validRecord (s : State) (v : Val) (r : LRec) : Bool :=
  let b := s.b
  r.clean &&
  (r.entry.tag && bitAt (capPerm r.entry) permX && !capLoc r.entry && !capDam r.entry && decide (r.entry.nat % 2 = 0)) &&
  (match r.img with
    | none => true
    | some a => (boundFault v a r.ws).isNone) &&
  distinct r.groups &&
  r.groups.all (fun j => decide (j ≠ 0) && decide (formOf (groupWord b j) ≠ 0) && !groupIsBound b j &&
    !(decide (formOf (groupWord b j) = 2) && (decide (formM (groupWord b j) = 0) || decide (formK (groupWord b j) ≥ formM (groupWord b j)))) &&
    !(decide (formOf (groupWord b j) = 3) && !readable s (groupMask b j) (ceilDiv r.blocks 8))) &&
  b.clusters.any (fitsEmpty s r.ws r.threads r.allot)

/-- The 64 bytes of the record and the tag of its first granule; a translation fault is precise (R72). -/
def readRecord (s : State) (a : Nat) : Res (State × Nat × Bool) := do
  let (s1, lo) ← threadRead s a 16
  let (s2, hi) ← threadRead s1 (a + 16) 48
  pure (s2, bytesToNat lo.data_ + bytesToNat hi.data_ * 2 ^ 128, lo.tag)

/-- The masks of the groups of FORM 3, which a valid record's groups let it read (R290). (assumption 34, DEDUCED) -/
def readMasks (s : State) (blocks : Nat) (l : List Nat) : Res (State × Map Nat) :=
  l.foldlM (fun (x : State × Map Nat) j =>
    if formOf (groupWord x.1.b j) ≠ 3 then .ok x
    else (threadRead x.1 (groupMask x.1.b j) (ceilDiv blocks 8)).map (fun y => (y.1, Map.set x.2 j (bytesToNat y.2.data_)))) (s, [])

/-- A number no launch has. (assumption 34, DEDUCED) -/
def freshLaunch (s : State) : Nat := (s.launches.map (·.1)).foldl (fun a k => max a (k + 1)) 0

/-- The named groups bound to a launch (R291), and its threads counted in group 0 (R289). (assumption 34, DEDUCED) -/
def bindGroups (s : State) (b : Nat) (r : LRec) (masks : Map Nat) : State :=
  let s1 := r.groups.foldl (fun s j =>
    let bo := s.bolt b
    s.setBolt b (setGroup bo j 0 (r.threads * selected (groupWord bo j) (Map.get masks j 0) r.blocks) (groupGen bo j) true)) s
  joinGroup s1 b 0 (r.threads * r.blocks)

/-- LAUNCH (R290). -/
def execLaunch (q : Pre) (d r : Reg) (s : State) : Step :=
  issue q { base := baseParcel (.launch q d r), reads := [r], writes := [d], implied := [3] }
    (releasing q 4 true (fun s => do
      let (s1, v) ← readReg s r
      let a := v.nat
      if a % 64 ≠ 0 then faultR .capbound (capTval r.toNat false 0 a) else pure ()
      checkGlobal r.toNat v [permR] a 64
      let (s2, raw, tag) ← readRecord s1 a
      if !bitAt (capPerm v) permLC then faultR .capperm (capTval r.toNat false permLC a) else pure ()
      writeCheck s2 d
      let rec_ := recordOf raw tag
      let (s3, seq) ← takeRing q 6 (baseParcel (.launch q d r)) s2
      let ended := threadReadEnd
      let s4 := markToken s3 d seq 0
      let done := fun (code : Nat) => ended (complete s4 s.cur d.toNat seq 8 code 0 none)
      if !validRecord s v rec_ then pure (done 1)
      else if rec_.blocks = 0 then pure (done 0)
      else if rec_.place = 2 && !holdsAll s s.t.bolt rec_ then pure (done 2)
      else do
        let (s5, masks) ← readMasks s4 rec_.blocks rec_.groups
        let l : Launch :=
          { bolt := s.t.bolt, tid := s.cur, tok := d.toNat, seq := seq, recVa := a, entry := rec_.entry, presets := rec_.presets, blocks := rec_.blocks,
            threads := rec_.threads, ws := rec_.ws, allot := rec_.allot, place := rec_.place, prio := rec_.prio, img := rec_.img,
            groups := rec_.groups, g3 := s.t.reg 3, qclass := s.t.qclass, masks := masks
            forms := rec_.groups.foldl (fun m j => Map.set m j (groupWord s.b j)) [] }
        let s6 := bindGroups (ended s5) s.t.bolt rec_ masks
        pure { s6 with launches := Map.set s6.launches (freshLaunch s6) l })) s

/-! ## Retirement (R287, R295) -/

/-- A launch ends when its last placed block has retired and no block of it is to come: its token completes (R290), with the late fault
that stopped it, which is reported where its thread has retired (R390). -/
def launchEnd (s : State) (k : Nat) : State :=
  match Map.find s.launches k with
  | none => s
  | some l =>
    if l.retired = l.placed ∧ (l.failed.isSome ∨ l.next = l.blocks) then
      let s1 := { s with launches := Map.erase s.launches k }
      match l.failed with
      | none => complete s1 l.tid l.tok l.seq 8 0 l.blocks none
      | some (c, tv) =>
        { s1 with completions := s1.completions ++ [{ tid := l.tid, reg := l.tok, word := statusOf 8 3 l.placed l.seq, seq := l.seq, late := some c,
                                                      image := some (BitVec.ofNat 64 l.recVa, tv) }] }
    else s

/-- One of a block's threads has retired: with the last, the block, its window and its window number are freed. -/
def blockLoses (s : State) (k : Nat) : State :=
  match Map.find s.blocks k with
  | none => s
  | some b =>
    if b.live > 1 then { s with blocks := Map.set s.blocks k { b with live := b.live - 1 } }
    else
      let s1 := { s with blocks := Map.erase s.blocks k }
      match Map.find s1.launches b.launch with
      | none => s1
      | some l => launchEnd { s1 with launches := Map.set s1.launches b.launch { l with retired := l.retired + 1 } } b.launch

/-- The messages that a thread has sent deliver no status to it any more. -/
def unawaited (s : State) (tid : Nat) : State :=
  if s.msgs.any (fun m => decide (m.src = tid)) then { s with msgs := s.msgs.map (fun m => if m.src = tid then { m with stat := 0 } else m) } else s

/-- RETIRE (R295): the slot, its register entries and bindings, the elements and statuses that were to come for it, the ring entries of late faults and the store faults of the
thread, in whichever core's ring they stand, go; it leaves its groups, its block and its launch. -/
def retire (s : State) (tid : Nat) : State :=
  let s := unawaited (dropPulls (leaveCore s tid) tid) tid
  let t := s.thread tid
  let k := coreOf tid
  let c := s.core k
  let s1 := s.setCore k { c with sfq := c.sfq.filter (fun e => decide (e.tid ≠ tid)) }
  let rings := s1.cores.map (fun p => (p.1, { p.2 with ring := p.2.ring.filter (fun e => !(e.fault && decide (e.tid = tid))) }))
  let s2 := { s1 with saved := s1.saved.filter (· ≠ tid), cores := rings }.setThread tid { traced := t.traced }
  let s3 := (groupsOf t).foldl (fun s j => leaveGroup s t.bolt j 1) s2
  blockLoses s3 t.block

/-! ## Placement (R292, R293, R390) -/


/-- The lowest window number no placed block of a bolt has; 8,192 where all are taken (R80). -/
def freeWindow (s : State) (bolt : Nat) : Nat :=
  ((List.range (min (s.blocks.length + 1) 8192)).find? (fun w => (Map.find s.blocks (blockKey bolt w)).isNone)).getD 8192

/-- The stack capability of a thread: [0, WS) of its window, cursor WS (R161). -/
def stackCap (ws : Nat) : Val :=
  let e := setbExp 0 ws 44 0
  capOf (BitVec.ofNat 64 ws) 0x3B e 0 (ceilDiv ws (2 ^ e))

/-- GSLOT0 to GSLOT3 of a block's threads: the groups that select it, packed (R291). -/
def gslotsFor (l : Launch) (block : Nat) : Map (BitVec 9) :=
  let js := l.groups.filter (fun j => selects (Map.get l.forms j 0) (Map.get l.masks j 0) block)
  (List.range js.length).map (fun i => (i, BitVec.ofNat 9 (256 + js.getD i 0)))

/-- A thread as LAUNCH places it (R161, R162, R291, R293). -/
def placedThread (s : State) (k : Nat) (l : Launch) (block window t : Nat) : Thread :=
  { occ := .resident, bolt := l.bolt, launch := k, block := blockKey l.bolt window
    regs := [(2, stackCap l.ws), (3, l.g3)] ++ (List.range 4).map (fun i => (4 + i, Val.ofW (l.presets.getD i 0)))
    pc := l.entry.lo, ecap := l.entry, allot := l.allot, tvec := (s.bolt l.bolt).ltvec, qclass := l.qclass
    gslot := gslotsFor l block, tidx := BitVec.ofNat 32 (block * l.threads + t)
    blockReg := BitVec.ofNat 45 (window * 2 ^ 32 + block), blockedAt := s.gtime }

/-- A window zero-filled: its bytes and tags go back to 0. -/
def zeroWindow (c : Cluster) (lb ws : Nat) : Cluster :=
  { c with mem := { cells := c.mem.cells.filter (fun p => !(decide (lb ≤ p.1) && decide (p.1 < lb + ws)))
                    tags := c.mem.tags.filter (fun p => !(decide (lb ≤ 16 * p.1) && decide (16 * p.1 < lb + ws))) } }

/-- Block `l.next` placed at a cluster: its window filled, its threads resident. -/
def placeBlock (s : State) (k : Nat) (l : Launch) (pos cl lb : Nat) (slots : List Nat) (image : List (BitVec 8)) : State :=
  let w := freeWindow s l.bolt
  let c := zeroWindow (s.cluster cl) lb l.ws
  let s1 := s.setCluster cl { c with mem := { c.mem with cells := Memory.writeN c.mem.cells lb image } }
  let b : Block := { launch := k, bolt := l.bolt, cluster := cl, lb := lb, ws := l.ws, window := w, live := l.threads }
  let s2 := { s1 with blocks := Map.set s1.blocks (blockKey l.bolt w) b
                      launches := Map.set s1.launches k { l with next := l.next + 1, placed := l.placed + 1, lastAt := some (cl, pos) } }
  (List.range slots.length).foldl (fun s t =>
    let tid := slots.getD t 0
    s.setThread tid { placedThread s k l l.next w t with traced := (s.thread tid).traced }) s2

/-- The order in which a launch searches the bolt's clusters, as positions in its list: after the cluster that received its previous
block, wherever the list has it now; after that cluster's old place where it has left the bolt (R292). (assumption 34, DEDUCED) -/
def searchOrder (cs : List Nat) (l : Launch) : List Nat :=
  let start := if l.place = 1 then 0 else match l.lastAt with
    | some (cl, p) => if cs.contains cl then cs.idxOf cl + 1 else p
    | none => 0
  (List.range cs.length).map (fun i => (start + i) % (max cs.length 1))

/-- The first cluster the next block fits, where a window number is free (R80). -/
def findFit (s : State) (l : Launch) : Option (Nat × Nat × Nat × List Nat) :=
  let cs := (s.bolt l.bolt).clusters
  let usable := fun (cl : Nat) => !(s.bolt l.bolt).departing.contains cl
  if freeWindow s l.bolt ≥ 8192 then none else
  (searchOrder cs l).findSome? (fun pos =>
    let cl := cs.getD pos 0
    if usable cl then (fits s cl l.ws l.threads l.allot).map (fun x => (pos, cl, x.1, x.2)) else none)

/-- A launch whose image cannot be read stops (R390): its unplaced threads leave their groups. (assumption 34, DEDUCED) -/
def stopLaunch (s : State) (k : Nat) (l : Launch) (e : Cause × W64) : State :=
  let rest := l.blocks - l.next
  let s1 := { s with launches := Map.set s.launches k { l with failed := some e } }
  let s2 := l.groups.foldl (fun s j =>
    let w := Map.get l.forms j 0
    let n := selected w (Map.get l.masks j 0) l.blocks - selected w (Map.get l.masks j 0) l.next
    leaveGroup s l.bolt j (l.threads * n)) (leaveGroup s1 l.bolt 0 (l.threads * rest))
  launchEnd s2 k

/-- How the placement of a block goes: it fits nowhere, its image must wait, with what is asked for next, or it is placed or stops. -/
inductive Placing where
  | full | held (l : Held) | done (s : State)

/-- The launch's next block placed if it fits (R292, R390). The launch unit reads the image through the network interface of the cluster
that receives the block; it is no requester of the stream detectors (R99). (assumption 34, DEDUCED; assumption 85, DEDUCED) -/
def placeNext (s : State) (k : Nat) (l : Launch) : Placing :=
  match findFit s l with
  | none => .full
  | some (pos, cl, lb, slots) =>
    match l.img with
    | none => .done (placeBlock s k l pos cl lb slots [])
    | some a =>
      let w := { engineWho l.bolt (firstCore cl) false 0 l.qclass with requester := otherRequester }
      match pullRead s (launchKey k) 0 w l.tid a l.ws with
      | .error (.wait x) => .held x
      | .error (.fault _ c tv) => .done (stopLaunch s k l (c, tv))
      | .ok (s1, bs) => .done (placeBlock s1 k l pos cl lb slots bs)

/-- Every block of a co-resident launch in one step, or none (R292). -/
def placeAll (k : Nat) : Nat → State → Placing
  | 0, s => .done s
  | f + 1, s => match Map.find s.launches k with
    | none => .done s
    | some l =>
      if l.next = l.blocks ∨ l.failed.isSome then .done s
      else match placeNext s k l with
        | .done s1 => placeAll k f s1
        | x => x

/-- The launch at the head of a bolt's queue: the highest priority, the first issued (R292). -/
def headLaunch (s : State) (bolt : Nat) : Option (Nat × Launch) :=
  (s.launches.filter (fun p => decide (p.2.bolt = bolt) && decide (p.2.next < p.2.blocks) && p.2.failed.isNone)).foldl
    (fun best p => match best with
      | none => some p
      | some x => if p.2.prio > x.2.prio then some p else best) none

/-- The priority of a thread: its launch's. -/
def prioOf (s : State) (t : Thread) : Nat := match Map.find s.launches t.launch with | some l => l.prio | none => 0

/-- BLOCK_PLACEMENT (R292): restores of equal or higher priority come first. -/
def blockPlacement (s : State) (bolt : Nat) : State :=
  if (s.bolt bolt).pressed then s
  else match headLaunch s bolt with
    | none => s
    | some (k, l) =>
      if s.saved.any (fun j => decide (j < 2 ^ 40) && decide ((s.thread j).bolt = bolt) && decide (prioOf s (s.thread j) ≥ l.prio)) then s
      else match (if l.place = 2 then placeAll k (l.blocks - l.next) s else placeNext s k l) with
        | .done s1 => endPulls s1 bolt (launchKey k)
        | .held h => askFor s h
        | .full => s

/-! ## FORK and JOIN (R294, R295) -/

/-- Mesh distance of two cores of a die. -/
def meshDist (a b : Nat) : Nat := (max (xOf a) (xOf b) - min (xOf a) (xOf b)) + (max (yOf a) (yOf b) - min (yOf a) (yOf b))

/-- The idle cores of a thread's bolt on its die, in order of distance (R294): no thread is resident there, and slot 0 and the entries of
the recruit's allotment can be had, which a thread evicted in RECV and saved contexts may take away. (assumption 23, DEDUCED) -/
def idleCores (s : State) : List Nat :=
  let me := s.curCore
  let cores := ((s.b.clusters.filter (fun cl => decide (dieOfCluster cl = dieOf me) && !s.b.departing.contains cl)).flatMap (liveCores s)).filter
    (fun c => (residents s c).isEmpty && decide ((s.thread (c * 4)).occ = .empty) && decide (s.t.allot ≤ freeEntries s c))
  (risingSet (cores.map (fun c => meshDist c me * 2048 + c))).map (· % 2048)

/-- Join cells of a cluster. -/
def joinCells : Nat := 64

/-- The number of a join cell of a cluster: a cell that has moved to another cluster with its block keeps it (R354). (assumption 43, DEDUCED) -/
def cellKey (cluster cell : Nat) : Nat := cluster % 256 * joinCells + cell % joinCells

/-- Whether a cell of a launch with a number is in use in a cluster. -/
def holdsCell (k launch : Nat) (c : Cluster) : Bool :=
  match Map.find c.cells k with
  | some (_, l, _) => decide (l = launch)
  | none => false

/-- The cluster that holds a launch's cell of a number. (assumption 43, DEDUCED) -/
def cellHome (s : State) (k launch : Nat) : Option Nat := (s.clusters.find? (fun p => holdsCell k launch p.2)).map (·.1)

/-- The lowest free join cell of a cluster, for a launch. A number that one of the launch's cells keeps in another cluster is not free.
(assumption 43, DEDUCED) -/
def freeCell (s : State) (cl launch : Nat) : Option Nat :=
  if (s.cluster cl).cells.length ≥ joinCells then none
  else (List.range joinCells).find? (fun i => (Map.find (s.cluster cl).cells (cellKey cl i)).isNone && (cellHome s (cellKey cl i) launch).isNone)

/-- A fork descriptor (R294). -/
def forkDesc (cluster : Nat) (solo : Bool) (cell : Nat) (cont : W64) : Val :=
  { bits := BitVec.ofNat 128 (cluster % 256 * 2 ^ 80 + solo.toNat * 2 ^ 73 + 2 ^ 72 + cell % 64 * 2 ^ 64 + cont.toNat) }

/-- The range of recruit `i` of `r` over `n` iterations. -/
def forkLo (n r i : Nat) : Nat := i * (n / r) + min i (n % r)

/-- A recruit of the current thread (R162, R294). (assumption 35, DEDUCED) -/
def recruitOf (s : State) (i lo hi : Nat) (desc arg : Val) (body : W64) : Thread :=
  let t := s.t
  { occ := .resident, bolt := t.bolt, launch := t.launch, block := t.block
    regs := [(3, t.reg 3), (4, Val.ofNat lo), (5, Val.ofNat hi), (6, desc), (7, arg)]
    pc := body, ecap := t.ecap, allot := t.allot, mode := t.mode, check := t.check, tvec := t.tvec, frm := t.frm, pol := t.pol
    qclass := t.qclass, gslot := t.gslot, tidx := BitVec.ofNat 32 i, blockReg := t.blockReg, recruit := true, blockedAt := s.gtime }

/-- FORK (R294): recruits take slot 0 of idle cores. (assumption 35, DEDUCED) -/
def execFork (q : Pre) (r : Reg) (s : State) : Step :=
  issue q { base := baseParcel (.fork q r), rgroups := [(r, 4)], implied := [3, 4, 5, 6, 7], noSeam := true }
    (fun s => do
      let g := fun (i : BitVec 6) => s.t.reg (r + i)
      let body := (g 0).lo
      let cont := (g 1).lo
      let n := (g 2).nat % 2 ^ 32
      let gr := max ((g 2).nat / 2 ^ 32) 1
      if n = 0 then jumpReg s cont
      else if body.getLsbD 0 then faultR .illegal body
      else
        let idle := idleCores s
        let want := min (min (ceilDiv n gr) (1 + idle.length)) 64
        let cell := if want > 1 then freeCell s s.curCluster s.t.launch else none
        let k := if cell.isSome then want else 1
        let desc := match cell with
          | some c => forkDesc s.curCluster false c cont
          | none => forkDesc 0 true 0 cont
        let arg := g 3
        let s1 := match cell with
          | some c => s.setCl { s.cl with cells := Map.set s.cl.cells (cellKey s.curCluster c) (k, s.t.launch, cont) }
          | none => s
        let s2 := (List.range (k - 1)).foldl (fun s' j =>
          let tid := idle.getD j 0 * 4
          s'.setThread tid { recruitOf s (j + 1) (forkLo n k (j + 1)) (forkLo n k (j + 2)) desc arg body with traced := (s'.thread tid).traced }) s1
        let s3 := if k > 1 then (groupsOf s.t).foldl (fun s' j => joinGroup s' s.t.bolt j (k - 1)) s2 else s2
        let s4 := match Map.find s3.blocks s.t.block with
          | some b => { s3 with blocks := Map.set s3.blocks s.t.block { b with live := b.live + (k - 1) } }
          | none => s3
        let t := (((s4.t.setReg 4 (Val.ofNat 0)).setReg 5 (Val.ofNat (forkLo n k 1))).setReg 6 desc).setReg 7 arg
        pure (s4.setT { t with pc := body })) s

/-- Fields of a join descriptor. (assumption 35, DEDUCED) -/
def joinValid (v : Val) : Bool := v.bits.getLsbD 72
def joinSolo (v : Val) : Bool := v.bits.getLsbD 73
def joinCell (v : Val) : Nat := bits v.bits.toNat 69 64
def joinCluster (v : Val) : Nat := bits v.bits.toNat 87 80

/-- The cluster that holds the cell a descriptor names, where the current thread's launch uses it. -/
def cellOurs (s : State) (v : Val) : Option Nat := cellHome s (cellKey (joinCluster v) (joinCell v)) s.t.launch

/-- JOIN once the thread's commands are over and its accesses released (R295). -/
def joinEnd (v : Val) (s : State) : Res State :=
  if !joinValid v then .ok (retire s s.cur)
  else
    let k := cellKey (joinCluster v) (joinCell v)
    let cl := (cellOurs s v).getD s.curCluster
    match Map.find (s.cluster cl).cells k with
    | none => faultR .perm v.lo
    | some (n, l, cont) =>
      if n ≤ 1 then
        if v.bits.getLsbD 0 then faultR .illegal v.lo
        else .ok (jumpTo (s.setCluster cl { s.cluster cl with cells := Map.erase (s.cluster cl).cells k }) v.lo)
      else .ok (retire (s.setCluster cl { s.cluster cl with cells := Map.set (s.cluster cl).cells k (n - 1, l, cont) }) s.cur)

/-- JOIN (R295). -/
def execJoin (q : Pre) (r : Reg) (s : State) : Step :=
  issue q { base := baseParcel (.join q r), reads := [r], noSeam := true }
    (fun s => do
      let (s1, v) ← readReg s r
      if joinValid v && joinSolo v then jumpReg s1 v.lo
      else if joinValid v && (cellOurs s v).isNone then faultR .perm v.lo
      else if s.t.cmds.any (fun c => decide (c.2.2 ≥ 1)) then waitR .release
      else releasing q 4 true (fun s => do
        let (s2, v) ← readReg s r
        joinEnd v s2) s) s

/-! ## Eviction and restore (R298 to R300) -/

/-- Whether a wait is a blocking point (R299). -/
def blockingPoint : Wait → Bool
  | .barrier _ _ _ | .exchange _ _ _ | .portIn _ | .portOut _ | .message | .answer | .watch _ _ => true
  | _ => false

/-- Whether the wake condition of a saved thread holds (R300). -/
def wakeFired (s : State) (tid : Nat) : Bool :=
  let t := s.thread tid
  match t.wait with
  | .barrier b g gen => decide (groupGen (s.bolt b) g ≠ gen)
  | .exchange b g gen => decide (groupGen (s.bolt b) g ≠ gen)
  | .portIn side => !(portQueue (s.core (coreOf tid)) side).isEmpty
  | .portOut side => match neighbour (coreOf tid) side with | some n => decide (portFree s n (opposite side) > 0) | none => true
  | .message => (s.core (coreOf tid)).inbox.any (fun m => decide (m.dstSlot = slotOf tid))
  | .answer => false
  | .watch _ since => t.woken || decide (s.gtime ≥ since + 65536)
  | _ => true

/-- Wakes that have fired are kept in the order they fired (R300). (assumption 37, DEDUCED) -/
def noteWakes (s : State) : State :=
  let new := (s.threads.filter (fun p => decide (p.2.occ = .evicted) && decide (p.1 ≥ 16384) && !s.saved.contains p.1 && wakeFired s p.1)).map (·.1)
  if new.isEmpty then s else { s with saved := s.saved ++ new }

/-- A map with its keys renumbered. -/
def Map.rekey {α : Type} (f : Nat → Nat) (m : Map α) : Map α := m.foldl (fun r p => Map.set r (f p.1) p.2) []

/-- How threads, cores and clusters are renumbered. -/
structure Renum where
  tid : Nat → Nat
  core : Nat → Nat := id
  cluster : Nat → Nat := id
  /-- the bolt whose cores and clusters they are; of a thread alone, whose number no other has, it does not matter -/
  bolt : Option Nat := none

/-- Whether what a bolt has is to be renumbered. -/
def Renum.of (f : Renum) (b : Nat) : Bool := f.bolt.all (fun x => decide (x = b))

/-- A destination or a writer renumbered: slice h, 128 + cluster, or the bridge. -/
def Renum.dest (f : Renum) (d : Nat) : Nat := if d < 128 ∨ d = bridgeWriter then d else 128 + f.cluster (d - 128)

/-- A core renumbered, where it is one: a peer module keeps its number. -/
def Renum.agent (f : Renum) (c : Nat) : Nat := if (agentDie c).isSome then f.core c else c

/-- A requester of the stream detectors renumbered: a core, or the copy engine of a cluster. -/
def Renum.requester (f : Renum) (n : Nat) : Nat :=
  if n ≥ otherRequester then n
  else if n ≥ engineRequester then engineRequester + f.cluster (n - engineRequester) else f.agent n

/-- The key of an agent's accesses renumbered: a thread's, a gather's and an HCALL's name their thread. -/
def Renum.key (f : Renum) (k : Nat) : Nat :=
  if k < 2 ^ 60 then threadKey (f.tid (k / 64)) (k % 64)
  else if k < 2 ^ 62 then k
  else if k < 2 ^ 63 then gatherKey ((k - 2 ^ 62) % 256) (f.tid ((k - 2 ^ 62) / 256)) else hcallKey (f.tid (k - 2 ^ 63))

/-- An agent renumbered. -/
def Renum.ofAgent (f : Renum) (a : Agent) : Agent := { a with key := f.key a.key, requester := f.requester a.requester, cluster := f.cluster a.cluster }

/-- A request renumbered: a thread moved to another core leaves behind what it sent from the one it left (R100). -/
def Renum.req (f : Renum) (r : Req) : Req :=
  { r with tid := f.tid r.tid, dest := f.dest r.dest, core := f.agent r.core, src := f.dest r.src, agent := r.agent.map f.ofAgent }

/-- A reply, a fault and a message renumbered. -/
def Renum.reply (f : Renum) (x : Reply) : Reply :=
  { x with tid := f.tid x.tid, src := f.dest x.src, core := f.agent x.core, agent := x.agent.map f.ofAgent }
def Renum.fault (f : Renum) (x : StoreFault) : StoreFault := { x with tid := f.tid x.tid, src := f.dest x.src }
def Renum.msg (f : Renum) (x : Msg) : Msg := { x with src := f.tid x.src, dstCluster := f.cluster x.dstCluster }

/-- A packet renumbered. -/
def Renum.packet (f : Renum) : Packet → Packet
  | .request r => .request (f.req r)
  | .reply x => .reply (f.reply x)
  | .fault x => .fault (f.fault x)

/-- The place of a saved context renumbered. -/
def Renum.room (f : Renum) : SaveRoom → SaveRoom
  | .entries c => .entries (f.core c)
  | .page c b => .page (f.cluster c) b

/-- What a thread holds of the numbers of others. -/
def Renum.thread (f : Renum) (t : Thread) : Thread :=
  { t with seam := t.seam.map (fun m => { m with head := f.tid m.head }), strm := t.strm.map (fun x => { x with frayTid := f.tid x.frayTid })
           room := t.room.map f.room, savedMsgs := t.savedMsgs.map f.msg, savedFaults := t.savedFaults.map f.fault }

/-- What a core holds. -/
def Renum.coreRec (f : Renum) (c : Core) : Core :=
  { c with
    sent := Map.rekey (fun k => k / destSpan * destSpan + f.dest (k % destSpan)) c.sent
    closing := c.closing.map (fun x => { x with dests := x.dests.map f.dest })
    mq := c.mq.map (fun r => { r with tid := f.tid r.tid })
    sfq := c.sfq.map f.fault
    ring := c.ring.map (fun e => { e with tid := f.tid e.tid })
    inbox := c.inbox.map f.msg }

/-- What a cluster holds. -/
def Renum.clusterRec (f : Renum) (c : Cluster) : Cluster :=
  { c with
    lq := c.lq.map (fun r => { r with tid := f.tid r.tid })
    cq := c.cq.map (fun r => { r with tid := f.tid r.tid, core := f.core r.core })
    gq := c.gq.map (fun r => { r with tid := f.tid r.tid, core := f.core r.core })
    ni := c.ni.map f.req
    rated := c.rated.map f.req
    win := c.win.map f.req
    arrived := Map.rekey (fun k => f.agent (k / 4) * 4 + k % 4) c.arrived }

/-- What a slice holds. -/
def Renum.slice (f : Renum) (h : Slice) : Slice :=
  { h with
    chan := h.chan.map f.req
    chan0 := h.chan0.map f.req
    refused := h.refused.map f.req
    heldReqs := h.heldReqs.map f.req
    detect := Map.rekey f.requester h.detect
    arrived := Map.rekey (fun k => f.agent (k / 4) * 4 + k % 4) h.arrived
    staging := h.staging.map (fun e => { e with core := if e.kind = 2 then f.core e.core else e.core })
    ways := h.ways.map (fun w => (w.1, { w.2 with pin := w.2.pin.map (fun x => { x with cluster := f.cluster x.cluster, core := f.core x.core }) })) }

/-- Numbers changed wherever they stand: commands, accesses, messages and pins follow their threads, cores and clusters. -/
def renumber (f : Renum) (s : State) : State :=
  { s with
    threads := Map.rekey f.tid (s.threads.map (fun p => (p.1, f.thread p.2)))
    cores := Map.rekey f.core (s.cores.map (fun p => (p.1, f.coreRec p.2)))
    clusters := Map.rekey f.cluster (s.clusters.map (fun p => (p.1, f.clusterRec p.2)))
    slices := s.slices.map (fun p => (p.1, match p.2.owner with | .bolt b => if f.of b then f.slice p.2 else p.2 | _ => f.slice p.2))
    blocks := s.blocks.map (fun p => (p.1, { p.2 with cluster := f.cluster p.2.cluster }))
    launches := s.launches.map (fun p => if !f.of p.2.bolt then p else (p.1, { p.2 with tid := f.tid p.2.tid, lastAt := p.2.lastAt.map (fun x => (f.cluster x.1, x.2)) }))
    completions := s.completions.map (fun x => { x with tid := f.tid x.tid })
    replies := s.replies.map f.reply
    msgs := s.msgs.map f.msg
    pwords := s.pwords.map (fun x => { x with core := f.core x.core })
    xwords := s.xwords.map (fun x => { x with core := f.core x.core })
    storeFaults := s.storeFaults.map f.fault
    saved := s.saved.map f.tid
    dies := s.dies.map (fun p => (p.1, { p.2 with
      bridge := p.2.bridge.map f.packet
      sorter := { p.2.sorter with queue := p.2.sorter.queue.map (fun x => (f.core x.1, { x.2 with tid := f.tid x.2.tid })) } }))
    bolts := s.bolts.map (fun p => if !f.of p.1 then p else (p.1, { p.2 with
      swept := p.2.swept.map f.req
      pulls := Map.rekey f.key p.2.pulls
      barriers := p.2.barriers.map (fun x => (x.1, { x.2 with left := x.2.left.map f.core, cores := x.2.cores.map f.core }))
      snaps := Map.rekey (fun k => k / destSpan * destSpan + f.core (k % destSpan)) p.2.snaps
      gathers := p.2.gathers.map (fun g => (g.1, f.tid g.2.1, g.2.2)), records := p.2.records.map (fun g => (g.1, f.tid g.2.1, g.2.2)) })) }

/-- One thread renumbered; the slot it takes is free. (assumption 32, DESIGN CHOICE) -/
def renameTid (s : State) (a b : Nat) : State :=
  renumber { tid := fun t => if t = a then b else t } { s with threads := Map.erase s.threads b }

/-- A number for the saved context of a slot, which no parked context has either. (assumption 32, DESIGN CHOICE) -/
def savedId (s : State) (tid : Nat) : Nat :=
  let n := s.threads.length + (s.parked.map (·.threads.length)).sum
  let k := ((List.range (n + 1)).find? (fun i =>
    let id := tid + 8192 * (i + 2)
    decide ((s.thread id).occ = .empty) && !s.parked.any (fun p => (Map.find p.threads id).isSome))).getD n
  tid + 8192 * (k + 2)

/-- The rooms a bolt advertises for a context of allotment `a`, each with a key that orders them as seen from a core: those of its own die
first, by mesh distance, by core number, a core's register entries before its cluster's memory, which stands at the cluster's lowest live
core (R299). (assumption 37, DEDUCED) -/
def roomsFor (s : State) (bolt from_ a : Nat) : List (Nat × SaveRoom) :=
  let key := fun (c : Nat) => (if dieOf c = dieOf from_ then 0 else 2 ^ 20) + meshDist c from_ * 4096 + c % 2048 * 2
  ((s.bolt bolt).clusters.filter (fun cl => !(s.bolt bolt).departing.contains cl)).flatMap (fun cl =>
    let cs := liveCores s cl
    (cs.filter (fun c => decide (freeEntries s c ≥ a))).map (fun c => (key c, SaveRoom.entries c)) ++
    (match cs, freeRun (windowsOf s cl) 4096 with
      | c :: _, some base => [(key c + 1, SaveRoom.page cl base)]
      | _, _ => []))

/-- The nearest advertised room (R299). (assumption 37, DEDUCED) -/
def nearestRoom (s : State) (bolt from_ a : Nat) : Option SaveRoom :=
  ((roomsFor s bolt from_ a).foldl (fun (b : Option (Nat × SaveRoom)) x => match b with | none => some x | some y => if x.1 < y.1 then some x else some y) none).map (·.2)

/-- The fetched elements of a context's streams are discarded, to be read again (R171). -/
def dropFetched (binds : Map Binding) : Map Binding :=
  binds.map (fun p => (p.1, match p.2 with
    | .stream wr cap st n w sx pol pos _ => .stream wr cap st n w sx pol pos []
    | x => x))

/-- A thread whose context moves: its fetched elements are discarded, those that an instruction awaiting an answer would give back too, and
so are the elements and reads under way (R171). -/
def dropElements (s : State) (tid : Nat) : State :=
  let s1 := dropPulls s tid
  let t := s1.thread tid
  s1.setThread tid { t with binds := dropFetched t.binds, await := t.await.map (fun a => { a with binds := dropFetched a.binds }) }

/-- A thread's store faults leave its core's queue and are saved with its context (R332, R340). -/
def saveFaults (s : State) (tid : Nat) : State :=
  let c := s.core (coreOf tid)
  let s1 := s.setCore (coreOf tid) { c with sfq := c.sfq.filter (fun e => decide (e.tid ≠ tid)) }
  s1.setThread tid { s1.thread tid with savedFaults := (s1.thread tid).savedFaults ++ c.sfq.filter (fun e => decide (e.tid = tid)) }

/-- The saved store faults of a restored thread enter its core's queue; one that finds it full sets the lost bit (R332).
(assumption 74, DEDUCED) -/
def restoreFaults (s : State) (tid : Nat) : State :=
  let t := s.thread tid
  let c := s.core (coreOf tid)
  let n := 16 - c.sfq.length
  (s.setCore (coreOf tid) { c with sfq := c.sfq ++ t.savedFaults.take n }).setThread tid
    { t with savedFaults := [], lost := t.lost || decide (n < t.savedFaults.length) }

/-- A thread's messages leave its core's inbox and are saved with its context (R150). -/
def saveMsgs (s : State) (tid : Nat) : State :=
  let c := s.core (coreOf tid)
  let mine := fun (m : Msg) => decide (m.dstSlot = slotOf tid)
  let s1 := s.setCore (coreOf tid) { c with inbox := c.inbox.filter (fun m => !mine m) }
  s1.setThread tid { s1.thread tid with savedMsgs := (s1.thread tid).savedMsgs ++ c.inbox.filter mine }

/-- The saved messages of a restored thread stand in its core's inbox for its slot. -/
def restoreMsgs (s : State) (tid : Nat) : State :=
  let t := s.thread tid
  let c := s.core (coreOf tid)
  let here := fun (m : Msg) => { m with dstCluster := clusterOf (coreOf tid), dstCore := logical s (coreOf tid), dstSlot := slotOf tid }
  (s.setCore (coreOf tid) { c with inbox := c.inbox ++ t.savedMsgs.map here }).setThread tid { t with savedMsgs := [] }

/-- A save failed (R341): Rolnis is told, with the core and slot. -/
def saveFailed (s : State) (tid : Nat) : State := report s { cause := .savefault, tid := tid }

/-- Whether a placement or restore of equal or higher priority waits in the thread's bolt. -/
def waitedFor (s : State) (t : Thread) : Bool :=
  (match headLaunch s t.bolt with | some (_, l) => decide (l.prio ≥ prioOf s t) | none => false) ||
  s.saved.any (fun j => decide ((s.thread j).bolt = t.bolt) && decide (prioOf s (s.thread j) ≥ prioOf s t))

/-- Whether a thread may be evicted now (R299), and the room its context goes to. (assumption 37, DEDUCED) -/
def evictRoom (s : State) (tid : Nat) : Option SaveRoom :=
  let t := s.thread tid
  let ticks := (s.bolt t.bolt).evict.toNat
  if t.occ ≠ .resident ∨ !blockingPoint t.wait ∨ ticks = 0 ∨ s.gtime - t.blockedAt ≤ ticks ∨ t.seamed ∨ t.xchg ∨ t.handler ∨
     (s.bolt t.bolt).pressed ∨ !waitedFor s t then none
  else nearestRoom s t.bolt (coreOf tid) t.allot

/-- THREAD_EVICT (R299): the context, with what the core's queues hold for it, goes to the nearest advertised room. A thread evicted in
RECV keeps its slot reserved, and its messages stay in the inbox. Where the save fails (R341), because the room is withdrawn or the data
fail a check, the thread stays as it was and SAVEFAULT is reported. (assumption 37, DEDUCED) -/
def threadEvict (s : State) (tid : Nat) (fails : Bool) : State :=
  match evictRoom s tid with
  | none => s
  | some room =>
    if fails then saveFailed s tid
    else
      let t := s.thread tid
      let recv := decide (t.wait = .message)
      let s0 := dropElements (leaveCore (saveFaults (if recv then s else saveMsgs s tid) tid) tid) tid
      let t0 := s0.thread tid
      let id := savedId s tid
      let s1 := renameTid (s0.setThread tid { t0 with occ := .evicted, room := some room }) tid id
      noteWakes (s1.setThread tid { occ := if recv then .evicted else .empty, traced := t.traced })

/-- Whether every write that a thread sent has been performed, from its local queue as well. -/
def writesOver (s : State) (tid : Nat) : Bool :=
  !onTheWay s (fun r => r.writes && r.agent.isNone && decide (r.tid = tid)) && !(s.cluster (clusterOf (coreOf tid))).lq.any (fun r => decide (r.tid = tid))

/-- Where a saved thread may be restored: its own core alone where it holds a port binding, has issued a matrix request or waits in
RECV; else the cores of its block's cluster, a recruit those of its bolt on its die (R300). While a write that it sent is still on its way
it goes back to its own core alone, whose phase the write is of, so that its accesses to a line stay in order and its releases wait for
the write (R272, R277, R285). (assumption 37, DEDUCED) -/
def restoreCores (s : State) (tid : Nat) : List Nat :=
  let t := s.thread tid
  let own := coreOf tid
  let stays := fun (cl : Nat) => !(s.bolt t.bolt).departing.contains cl
  let tied := !writesOver s tid || t.usedMatrix || decide (t.wait = .message) || t.binds.any (fun p => match p.2 with | .port _ _ => true | _ => false)
  if tied then [own].filter (fun c => stays (clusterOf c))
  else if t.recruit then
    (own :: ((s.bolt t.bolt).clusters.filter (fun cl => decide (dieOfCluster cl = dieOf own))).flatMap (liveCores s)).filter (fun c => stays (clusterOf c))
  else (own :: (match Map.find s.blocks t.block with | some b => liveCores s b.cluster | none => [])).filter (fun c => stays (clusterOf c))

/-- Whether a core has the entries and the inbox places that a saved context needs; its own saved entries there are given back. -/
def takesBack (s : State) (t : Thread) (c : Nat) : Bool :=
  decide (t.allot ≤ freeEntries s c + (if t.room = some (.entries c) then t.allot else 0)) && decide ((s.core c).inbox.length + t.savedMsgs.length ≤ 64)

/-- A slot a saved thread can take. (assumption 37, DEDUCED) -/
def restoreSlot (s : State) (tid : Nat) : Option Nat :=
  let t := s.thread tid
  let cores := (restoreCores s tid).filter (takesBack s t)
  if t.wait = .message then cores.head?.map (fun _ => tid % 8192)
  else cores.findSome? (fun c => ((List.range 4).map (c * 4 + ·)).find? (fun i => decide ((s.thread i).occ = .empty)))

/-- THREAD_RESTORE (R300): a saved thread whose wake has fired takes a free slot, before later wakes of equal or lower
priority. (assumption 37, DEDUCED) -/
def threadRestore (s0 : State) (tid : Nat) : State :=
  let s := noteWakes s0
  let t := s.thread tid
  let before := (s.saved.takeWhile (· ≠ tid)).any (fun j => decide ((s.thread j).bolt = t.bolt) && decide (prioOf s (s.thread j) ≥ prioOf s t) && !halted s t.bolt j)
  let higher := s.saved.any (fun j => decide ((s.thread j).bolt = t.bolt) && decide (prioOf s (s.thread j) > prioOf s t) && !halted s t.bolt j) ||
    (match headLaunch s t.bolt with | some (_, l) => decide (l.prio > prioOf s t) && (findFit s l).isSome | none => false)
  if !s.saved.contains tid ∨ tid ≥ 2 ^ 40 ∨ before ∨ higher ∨ halted s t.bolt tid then s
  else match restoreSlot s tid with
    | none => s
    | some slot =>
      let tr := (s.thread slot).traced
      let s1 := renameTid ({ s with saved := s.saved.filter (· ≠ tid) }.setThread tid { t with occ := .resident, room := none, traced := tr }) tid slot
      let s2 := restoreMsgs (restoreFaults s1 slot) slot
      let retry := match t.wait with | .message | .portIn _ | .portOut _ => true | _ => false
      if retry then setWait s2 slot .none else s2

/-! ## Event rows -/

/-- THREAD_EVICT (R299). -/
def execThreadEvict (what : Eviction) (s : State) : Step := withUnit (decide (what.tid < 8192)) (threadEvict s what.tid what.fails)
/-- THREAD_RESTORE (R300). -/
def execThreadRestore (tid : Nat) (s : State) : Step := .next (threadRestore s tid)

end Sys2Proof.Machine
end

