-- ==== Sys2Proof/Machine/Sync.lean ====
section
/-!
DEFINITION. Ordering and synchronisation: FENCE, REL, ACQ (R275 to R278), BAR and BARX (R301), the exchange phase with XSEL, XSEND
and XEND (R302 to R305), WAITV and YIELD (R306, R307); and the event rows BARRIER_DEPART, EXCHANGE_ENTER, EXCHANGE_WORD_HOP,
EXCHANGE_END, WAITV_WAKE and WAITV_TIMEOUT.
-/
namespace Sys2Proof.Machine

/-! ## FENCE, REL, ACQ (R276, R277) -/

/-- A scope code that names a scope (R49). -/
def okScope (sc : BitVec 3) : Bool := decide (sc.toNat ≤ 5)

/-- REL (R276). -/
def execRel (q : Pre) (sc : BitVec 3) (s : State) : Step :=
  issue q { base := baseParcel (.rel q sc), ok := okScope sc } (releasing q sc.toNat true (fun s => .ok s)) s

/-- ACQ (R276). -/
def execAcq (q : Pre) (sc : BitVec 3) (s : State) : Step :=
  issue q { base := baseParcel (.acq q sc), ok := okScope sc }
    (fun s => if sc ≠ 0 ∧ !readsDone s s.cur then waitR .release else .ok s) s

/-- FENCE (R276): the release, then the thread's engine work, then the report of a store fault. -/
def execFence (q : Pre) (sc : BitVec 3) (s : State) : Step :=
  issue q { base := baseParcel (.fence q sc), ok := okScope sc }
    (releasing q sc.toNat false (fun s =>
      -- the pins are widened before the wait for the engines
      if s.t.cmds.any (fun c => decide (c.2.2 = 2)) then (if s.t.stage = 2 then waitR .release else .ok (stay q .release 2 s))
      else if hasStoreFault s s.cur then .ok (storeFaultAt q s)
      else .ok s)) s

/-! ## Barriers (R285, R301) -/

/-- The narrowest scope at which a member of a group has released in the generation under way (R285). (assumption 33, DEDUCED) -/
def leastScope (s : State) (bolt j : Nat) : Nat := (Map.get (s.bolt bolt).barriers j {}).least

/-- A member begins its release at a scope. -/
def noteRelease (s : State) (bolt j sc : Nat) : State :=
  let b := s.bolt bolt
  let x := Map.get b.barriers j {}
  s.setBolt bolt { b with barriers := Map.set b.barriers j { x with least := min x.least sc } }

/-- A wait for the release of a barrier is a wait for the barrier (R367). -/
def asArrival (tid : Nat) (x : Res State) : Res State :=
  match x with
  | .error (.wait .release) => .error (.wait .arrival)
  | .ok s => .ok (if (s.thread tid).wait = .release then setWait s tid .arrival else s)
  | e => e

/-- THE RELEASE OF A BARRIER, then `op` (R285): at the barrier's scope as it stands where the release begins. (assumption 33, DEDUCED) -/
def barrierRelease (q : Pre) (j : Nat) (op : State → Res State) (s : State) : Res State :=
  let sc := barrierScope s s.t.bolt j
  asArrival s.cur
    (if s.t.stage = 0 then releasing q sc false op (noteRelease s s.t.bolt j sc)
     else releasing q (min sc (leastScope s s.t.bolt j)) false op s)

/-- Whether what some cores sent before packet `no` has been performed, where members have released at `scope` and the barrier must
order accesses for `cores`: a scope that has widened since asks for more than the releases waited for (R285). (assumption 33, DEDUCED) -/
def settledOver (s : State) (bolt : Nat) (cores senders : List Nat) (scope no : Nat) : Bool :=
  decide (scopeOver cores ≤ scope) ||
  !onTheWay s (fun r => r.writes && decide (r.bolt = bolt) && senders.contains r.core && decide (r.no < no))

/-- The releases of some cores taken to the scope over `cores`, where that is wider: their pins widen (R282, R285). -/
def widenOver (s : State) (cores senders : List Nat) (scope no : Nat) : State :=
  if scopeOver cores ≤ scope then s else senders.eraseDups.foldl (fun s c => widenPins s c (scopeOver cores) no) s

/-- Whether a member on a core may leave the barrier whose generation has ended (R285). (assumption 33, DEDUCED) -/
def barrierSettled (s : State) (bolt j core : Nat) : Bool :=
  let x := Map.get (s.bolt bolt).barriers j {}
  settledOver s bolt (core :: x.cores) x.cores x.scope x.no

/-- A member on a core leaves the barrier. -/
def barrierLeft (s : State) (bolt j core : Nat) : State :=
  let x := Map.get (s.bolt bolt).barriers j {}
  widenOver s (core :: x.cores) x.cores x.scope x.no

/-- PERM unless the group is 0 or in a valid slot of the thread (R301). -/
def groupCheck (s : State) (j : Nat) : Res Unit :=
  if j = 0 ∨ inGroup s.t j then .ok () else faultR .perm (BitVec.ofNat 64 j)

/-- The check of the record a gather writes: W over 128 bytes (R301). -/
def gatherCheck (s : State) (d : Reg) (v : Val) : Res Unit :=
  if capLoc v then checkLocal s s.cur d.toNat v v.nat 128 false true else checkGlobal d.toNat v [permW] v.nat 128

/-- The counters of the current core as they stand: read when its last member arrives. -/
def snapshot (s : State) (j : Nat) : State :=
  let b := s.b
  s.setB { b with snaps := Map.set b.snaps (j * destSpan + s.curCore) ((List.range 16).map (fun i => (Map.get s.c.evc i 0#32).toNat)) }

/-- ARRIVE (R301): the thread waits for the generation to end. -/
def arrive (s : State) (j : Nat) (w : Nat → Nat → Nat → Wait) : State :=
  let b := s.t.bolt
  let gen := groupGen s.b j
  let s1 := setWait ((snapshot s j).setT { s.t with stage := 0 }) s.cur (w b j gen)
  regroup s1 b j (groupArrived (s1.bolt b) j + 1) (groupMembers (s1.bolt b) j)

/-- BAR in both forms (R301): the release of R285, the arrival, and the wait. -/
def execBar (q : Pre) (d r : Reg) (s : State) : Step :=
  issue q { base := baseParcel (.bar q d r), reads := if d = 0 then [r] else [r, d], noSeam := true }
    (fun s => do
      let (_, g) ← readW s r
      let j := g.toNat % 256
      groupCheck s j
      let wants := g.getLsbD 8
      if wants then do
        let (s1, _) ← readW s r
        let (_, v) ← readReg s1 d
        gatherCheck s d v
      else pure ()
      barrierRelease q j (fun s => do
        let (s1, _) ← readW s r
        if wants then do
          let (s2, v) ← readReg s1 d
          pure (arrive (s2.setB { s2.b with gathers := s2.b.gathers ++ [(j, s.cur, v)] }) j .barrier)
        else pure (arrive s1 j .barrier)) s) s

/-- BARX (R301, R302). -/
def execBarx (q : Pre) (r : Reg) (s : State) : Step :=
  issue q { base := baseParcel (.barx q r), reads := [r], noSeam := true }
    (fun s => do
      let (_, g) ← readW s r
      let j := g.toNat % 256
      groupCheck s j
      barrierRelease q j (fun s => do
        let (s1, _) ← readW s r
        pure (arrive s1 j .exchange)) s) s

/-- BARRIER_DEPART (R285, R301): a member whose generation has ended goes on, once the gathered records are written. -/
def barrierDepart (s : State) (tid : Nat) : State :=
  let t := s.thread tid
  match t.wait with
  | .barrier b j gen =>
    if t.occ = .resident ∧ groupGen (s.bolt b) j ≠ gen ∧ !halted s b tid ∧ barrierSettled s b j (coreOf tid) then
      match (s.bolt b).records.find? (fun x => decide (x.1 = j)) with
      | some x => writeRecord s b x
      | none => setWait (barrierLeft s b j (coreOf tid)) tid .none
    else s
  | _ => s

/-! ## The exchange phase (R302 to R305) -/

/-- The threads that wait in BARX of a group whose generation has ended. -/
def readyForExchange (s : State) (bolt j : Nat) : List Nat :=
  (s.threads.filter (fun p => match p.2.wait with
    | .exchange b k gen => decide (p.2.occ ≠ .empty) && decide (b = bolt) && decide (k = j) && decide (groupGen (s.bolt b) k ≠ gen)
    | _ => false)).map (·.1)

/-- Whether the copy engine of a cluster has no COPY, DLOAD or gather to perform (R302, R325). -/
def engineIdle (s : State) (cl : Nat) : Bool := (s.cluster cl).cq.isEmpty && (s.cluster cl).gq.isEmpty

/-- The exchange cycles in which a core's queues gave a word are of one phase: they are forgotten as a phase begins. -/
def clearPops (s : State) (core : Nat) : State := s.setCore core { s.core core with popAt := [] }

/-- EXCHANGE_ENTER (R302): once the members' copy engines are idle and every one is resident, all enter at cycle 0. (assumption 33, DEDUCED) -/
def exchangeEnter (s : State) (bolt j : Nat) : State :=
  let ms := readyForExchange s bolt j
  if ms.isEmpty ∨ (s.bolt bolt).pressed ∨ ms.any (fun m => decide ((s.thread m).occ ≠ .resident) || !barrierSettled s bolt j (coreOf m)) ∨
     (membersOf s bolt j).any (fun m => !engineIdle s (clusterOf (coreOf m))) then s
  else
    let s1 := s.setBolt bolt { s.bolt bolt with stopDue := (s.bolt bolt).trctl.getLsbD 61 }
    ms.foldl (fun s m =>
      let s2 := setWait (clearPops (barrierLeft s bolt j (coreOf m)) (coreOf m)) m .none
      s2.setThread m { s2.thread m with xchg := true, xphase := some j, xcyc := nextCount s m }) s1

/-- A route entry's fields (R35). -/
def routeStep (e : BitVec 32) : Nat := bits e.toNat 7 0
def routeX (e : BitVec 32) : Nat := bits e.toNat 12 8
def routeY (e : BitVec 32) : Nat := bits e.toNat 17 13
def routeFrom (e : BitVec 32) : Nat := bits e.toNat 20 18
def routeTo (e : BitVec 32) : Nat := bits e.toNat 23 21

/-- The table XSEL installs: at most 64 entries of the core, in order (R303). -/
def routesFor (core : Nat) (l : List (BitVec 32)) : List (BitVec 32) :=
  (l.filter (fun e => decide (routeX e = xOf core) && decide (routeY e = yOf core))).take 64

/-- The bytes of a table XSEL reads. -/
def tableBytes (s : State) (v : Val) (n : Nat) : Res (State × List (BitVec 8)) :=
  if capLoc v then
    if windowOut s s.cur || s.cl.lq.any (fun r => decide (r.tid = s.cur) && r.store) then waitR .place
    else .ok (s, Memory.readN s.cl.mem.cells ((windowOf s s.cur).1 + v.nat) n)
  else (threadRead s v.nat n).map (fun x => (threadReadEnd x.1, x.2.data_))

/-- XSEL (R303). -/
def execXsel (q : Pre) (d r t : Reg) (s : State) : Step :=
  issue q { base := baseParcel (.xsel q d r t), reads := [r, t], writes := [d], xok := true, noSeam := true }
    (fun s => do
      let (s1, v) ← readReg s r
      let (s2, w) ← readW s1 t
      let n := 4 * (w.toNat % 2 ^ 32)
      if capLoc v then checkLocal s s.cur r.toNat v v.nat n true false else checkGlobal r.toNat v [permR] v.nat n
      let (s3, bs) ← tableBytes s2 v n
      let es := (List.range (w.toNat % 2 ^ 32)).map (fun i => BitVec.ofNat 32 (bytesToNat ((bs.drop (4 * i)).take 4)))
      let tab := routesFor s.curCore es
      writeReg (s3.setC { s3.c with routes := tab }) d (Val.ofNat tab.length)) s

/-- XSEND (R304): the word enters the sender's own router in the next exchange cycle. -/
def execXsend (q : Pre) (r : Reg) (s : State) : Step :=
  issue q { base := baseParcel (.xsend q r), ok := s.t.xchg, reads := [r], xok := true, noSeam := true }
    (fun s => do
      let (s1, w) ← readW s r
      let x : XWord := { bolt := s.t.bolt, group := s.t.xphase.getD 0, core := s.curCore, from_ := 4, cyc := s.t.cnt - s.t.xcyc + 1, word := w }
      pure { s1 with xwords := s1.xwords ++ [x] }) s

/-- A member that returns to an exchange phase from a handler joins the cycle that the phase has come to (R302): that of the next instruction
or word of the others, and later than what they have issued. (assumption 33, DEDUCED) -/
def rejoin (s : State) (tid : Nat) : State :=
  let t := s.thread tid
  match t.xphase with
  | none => s
  | some j =>
    let others := (s.threads.filter (fun p => decide (p.1 ≠ tid) && decide (p.2.bolt = t.bolt) && decide (p.2.xphase = some j) && p.2.xchg)).map
      (fun p => p.2.cnt - p.2.xcyc + 1)
    let next := ((xRunning s t.bolt j).filter (· ≠ tid)).map (nextX s) ++
      (s.xwords.filter (fun w => decide (w.bolt = t.bolt) && decide (w.group = j))).map (·.cyc)
    notBefore s tid ((leastNat next).getD (others.foldl max 0))

/-- XEND (R305): the member arrives. -/
def execXend (q : Pre) (s : State) : Step :=
  issue q { base := baseParcel (.xend q), ok := s.t.xchg, xok := true, noSeam := true }
    (barrierRelease q (s.t.xphase.getD 0) (fun s => .ok (setWait (s.setT { s.t with stage := 0 }) s.cur .xend))) s

/-- Whether two words are of one exchange phase. -/
def XWord.samePhase (x y : XWord) : Bool := decide (x.bolt = y.bolt) && decide (x.group = y.group)

/-- Whether a word may move: it is of the earliest cycle among the words of its phase, and no running member issues before. -/
def wordDue (s : State) (w : XWord) : Bool :=
  s.xwords.all (fun x => !x.samePhase w || decide (w.cyc ≤ x.cyc)) && (xRunning s w.bolt w.group).all (fun m => decide (nextX s m > w.cyc))

/-- The sides a router sends a word to: entries of its step and side, the last entry of a step and output deciding (R303). (assumption 33, DEDUCED;
assumption 92, DESIGN CHOICE) -/
def routeOuts (c : Core) (cyc from_ : Nat) : List Nat :=
  (List.range 5).filter (fun to_ =>
    match (c.routes.filter (fun e => decide (routeStep e = cyc % 256) && decide (routeTo e = to_))).getLast? with
    | some e => decide (routeFrom e = from_)
    | none => false)

/-- Whether a core holds a member of an exchange phase of a bolt's group (R304). -/
def xMember (s : State) (bolt group core : Nat) : Bool :=
  (List.range 4).any (fun i => let t := s.thread (core * 4 + i); decide (t.occ ≠ .empty) && decide (t.bolt = bolt) && decide (t.xphase = some group))

/-- A word dropped: the event is counted at the router where it is lost (R304). -/
def dropWord (s : State) (core : Nat) : State := s.setCore core ((s.core core).count 12 0 1)

/-- A word lands in an arrival queue, or is dropped when it is full; a member blocked on it issues no earlier than the cycle it
lands in. One that enters and leaves a router by C, which no assembled route asks for (R35), enters that core's north queue.
(assumption 75, DESIGN CHOICE) -/
def landWord (s : State) (w : XWord) : State :=
  let side := BitVec.ofNat 2 w.from_
  if portFree s w.core side = 0 then dropWord s w.core
  else
    let c := s.core w.core
    let s1 := s.setCore w.core { c with ports := Map.set c.ports side.toNat (portQueue c side ++ [w.word]) }
    (residents s1 w.core).foldl (fun s tid =>
      if (s.thread tid).wait = .portIn side then setWait (notBefore s tid (w.cyc + 1)) tid .none else s) s1

/-- One copy of a word leaves its router. -/
def wordOut (s : State) (w : XWord) (to_ : Nat) : State :=
  if to_ = 4 then landWord s w
  else match neighbour w.core (BitVec.ofNat 2 to_) with
    | none => dropWord s w.core
    | some n =>
      if !xMember s w.bolt w.group n then dropWord s w.core
      else { s with xwords := s.xwords ++ [{ w with core := n, from_ := (to_ + 2) % 4, cyc := w.cyc + 1 }] }

/-- EXCHANGE_WORD_HOP (R304): a router forwards a word by its entries, or drops it. (assumption 33, DEDUCED) -/
def exchangeWordHop (s : State) (n : Nat) : State :=
  match s.xwords[n]? with
  | none => s
  | some w =>
    if !wordDue s w ∨ (s.bolt w.bolt).pressed then s
    else
      let s1 := { s with xwords := s.xwords.eraseIdx n }
      match routeOuts (s.core w.core) w.cyc w.from_ with
      | [] => dropWord s1 w.core
      | outs => outs.foldl (fun s o => wordOut s w o) s1

/-- The threads in the exchange phase of a group. -/
def inPhase (s : State) (bolt j : Nat) : List Nat :=
  (s.threads.filter (fun p => decide (p.2.bolt = bolt) && decide (p.2.occ ≠ .empty) && decide (p.2.xphase = some j))).map (·.1)

/-- EXCHANGE_END (R305): every member has arrived and every word has landed. (assumption 33, DEDUCED) -/
def exchangeEnd (s : State) (bolt : Nat) : State :=
  let done := fun (j : Nat) => let ms := inPhase s bolt j; !ms.isEmpty && ms.all (fun m => decide ((s.thread m).wait = .xend))
  match (List.range 256).find? done with
  | none => s
  | some j =>
    let cores := memberCores s bolt j
    let least := leastScope s bolt j
    if s.xwords.any (fun w => decide (w.bolt = bolt) && decide (w.group = j)) ∨ (s.bolt bolt).pressed ∨ !settledOver s bolt cores cores least s.pkts then s
    else
      let s := widenOver s cores cores least s.pkts
      let b := s.bolt bolt
      let s0 := s.setBolt bolt { b with
        sstep := (b.sstep + 1) % 2 ^ 64, stopDue := b.trctl.getLsbD 61
        barriers := Map.set b.barriers j { Map.get b.barriers j {} with least := 5 } }
      let s1 := traceBolt s0 bolt 3 [(b.sstep + 1) % 2 ^ 32]
      (inPhase s bolt j).foldl (fun s m =>
        let s2 := s.setCore (coreOf m) { s.core (coreOf m) with routes := [], popAt := [] }
        let s3 := setWait s2 m .none
        s3.setThread m { s3.thread m with xchg := false, xphase := none }) s1

/-! ## WAITV and YIELD (R306, R307) -/

/-- WAITV (R306). -/
def execWaitv (q : Pre) (d r t : Reg) (s : State) : Step :=
  issue q { base := baseParcel (.waitv q d r t), reads := [r, t], writes := [d] }
    (fun s => memoryWait do
      let (s1, v) ← readReg s r
      let (s2, w) ← readW s1 t
      writeCheck s2 d
      let a := v.nat / 8 * 8
      checkGlobal r.toNat v [permR] a 8
      afterLocal s2 a 8
      sendRoom s2 1 false
      let s3 := sendLoad (s2.setT { s2.t with woken := false }) a 8 false (s.t.pol &&& 0x01FFFFFF#32)
      pure (awaiting q s s3 { dst := d.toNat, ext := .zx, size := 8, parts := 1, watch := some (a, w) })) s

/-- The word is read again (R306), once its request can be sent. -/
def watchAgain (s : State) (tid : Nat) : State :=
  let t := s.thread tid
  match t.wait, t.await with
  | .watch va _, some a =>
    withCur tid (fun s =>
      if (sendRoom s 1 false).isOk then
      let s1 := sendLoad (s.setT { s.t with woken := false }) va 8 false (s.t.pol &&& 0x01FFFFFF#32)
      awaitAnswer s1 { a with bytes := [], parts := 1, watch := none }
      else s) s
  | _, _ => s

/-- WAITV_WAKE (R306): a write to the watched line was performed. -/
def waitvWake (s : State) (tid : Nat) : State :=
  let t := s.thread tid
  if t.woken ∧ t.occ = .resident ∧ !halted s t.bolt tid then watchAgain s tid else s

/-- WAITV_TIMEOUT (R306): 65,536 ticks have passed. -/
def waitvTimeout (s : State) (tid : Nat) : State :=
  let t := s.thread tid
  match t.wait with
  | .watch _ since => if s.gtime ≥ since + 65536 ∧ t.occ = .resident ∧ !halted s t.bolt tid then watchAgain s tid else s
  | _ => s

/-- Whether a wait lets its thread issue: none, one after which the instruction issues again, or one whose condition is over. -/
def waitOver (s : State) (tid : Nat) : Wait → Bool
  | .none | .operand | .place | .memPlace | .release | .arrival | .streamRelease _ | .qclass | .damask => true
  | .message => (s.core (coreOf tid)).inbox.any (fun m => decide (m.dstSlot = slotOf tid))
  | .portIn side => !(portQueue (s.core (coreOf tid)) side).isEmpty
  | .portOut side => match neighbour (coreOf tid) side with | some n => decide (portFree s n (opposite side) > 0) | none => true
  | _ => false

/-- Whether a member of an exchange phase is due: no running member of the phase issues in an earlier exchange cycle, and no word
of an earlier cycle is on the wires (R302). (assumption 33, DEDUCED) -/
def xDue (s : State) (tid : Nat) : Bool :=
  let t := s.thread tid
  !t.xchg || ((xRunning s t.bolt (t.xphase.getD 0)).all (fun m => decide (nextX s tid ≤ nextX s m)) &&
    s.xwords.all (fun w => decide (w.bolt ≠ t.bolt) || decide (some w.group ≠ t.xphase) || decide (nextX s tid ≤ w.cyc)))

/-- Whether a thread may issue: it is resident, waits on nothing an event must end, and its exchange phase is at its cycle. -/
def mayIssue (s : State) (tid : Nat) : Bool :=
  let t := s.thread tid
  decide (t.occ = .resident) && waitOver s tid t.wait && !halted s t.bolt tid && xDue s tid

/-- A place has come free in an arrival queue of a core: a thread of the neighbour that waits to push there issues again (R173), in an
exchange phase no earlier than the cycle after the pop that freed it (R302). -/
def wakeOuts (s : State) (core : Nat) : State :=
  ([0, 1, 2, 3] : List (BitVec 2)).foldl (fun s side =>
    match neighbour core side with
    | none => s
    | some n =>
      if portFree s core side = 0 then s
      else (residents s n).foldl (fun s tid =>
        if (s.thread tid).wait = .portOut (opposite side) then
          setWait (match Map.find (s.core core).popAt side.toNat with | some c => notBefore s tid (c + 1) | none => s) tid .none
        else s) s) s

/-- YIELD (R307): the threads of the core that are ready in the next cycle, which its scheduler shows, go first, each once. -/
def execYield (q : Pre) (s : State) : Step :=
  issue q { base := baseParcel (.yield q) } (fun s => .ok (s.setT { s.t with yielding := true, yields := [] })) s

/-! ## Event rows -/

/-- BARRIER_DEPART (R301). -/
def execBarrierDepart (tid : Nat) (s : State) : Step := withUnit (hasThread tid) (barrierDepart s tid)
/-- EXCHANGE_WORD_HOP (R304). -/
def execExchangeWordHop (n : Nat) (s : State) : Step := .next (exchangeWordHop s n)
/-- WAITV_WAKE (R306). -/
def execWaitvWake (tid : Nat) (s : State) : Step := withUnit (hasThread tid) (waitvWake s tid)
/-- WAITV_TIMEOUT (R306). -/
def execWaitvTimeout (tid : Nat) (s : State) : Step := withUnit (hasThread tid) (waitvTimeout s tid)

end Sys2Proof.Machine
end

