-- ==== Sys2Proof/Machine/Seam.lean ====
section
/-!
DEFINITION. Seams and panels (R308 to R320): SEAM, PANEL, SEAMEND, SPOS, SRESUME; the stream a head forwards and the order in which
its members execute it; and the event rows SEAM_FORWARD, SEAMFRAY and SEAMEND_HEAD_COMPLETE.
-/
namespace Sys2Proof.Machine

/-! ## Forming (R314) -/

/-- SEAMPOS (R316). -/
def seamposOf (m : Seam) : W64 :=
  BitVec.ofNat 64 (m.skew * 2 ^ 48 + m.nrows * 2 ^ 40 + m.ncols * 2 ^ 32 + (m.row + m.col) * m.skew * 2 ^ 16 + m.row * 2 ^ 8 + m.col)

/-- The positions of the members other than the head: row and column. -/
def seamPlaces (nr nc : Nat) : List (Nat × Nat) :=
  ((List.range nr).flatMap (fun r => (List.range nc).map (fun c => (r, c)))).filter (fun p => decide (p ≠ (0, 0)))

/-- The core of a member. -/
def seamCore (s : State) (p : Nat × Nat) : Nat := coreAt (dieOf s.curCore) (xOf s.curCore + p.2) (yOf s.curCore + p.1)

/-- Whether a core can hold a member (R314). -/
def memberFits (s : State) (core : Nat) : Bool :=
  !s.fused.contains core && s.b.clusters.contains (clusterOf core) && !s.b.departing.contains (clusterOf core) && decide ((s.thread (core * 4)).occ = .empty) &&
  decide (freeEntries s core ≥ s.t.allot)

/-- A member of the current thread's seam (R162, R314). (assumption 36, DEDUCED) -/
def memberOf (s : State) (m : Seam) : Thread :=
  let t := s.t
  { occ := .resident, bolt := t.bolt, launch := t.launch, block := t.block
    regs := t.regs.filter (fun p => (Map.find t.binds p.1).isNone)
    flags := t.flags, pc := t.pc, ecap := t.ecap, allot := t.allot, mode := t.mode, check := t.check, seamed := true
    tvec := t.tvec, frm := t.frm, pol := t.pol, qclass := t.qclass, gslot := t.gslot, tidx := t.tidx, blockReg := t.blockReg
    seampos := seamposOf m, seam := some m, blockedAt := s.gtime }

/-- Columns, rows and skew of a shape (R314). -/
def shapeCols (x : Nat) : Nat := bits x 5 0
def shapeRows (panel : Bool) (x : Nat) : Nat := if panel then bits x 13 8 else 1
def shapeSkew (x : Nat) : Nat := bits x 19 16

/-- The status of SEAM and PANEL on a shape (R314). -/
def seamStatus (s : State) (panel : Bool) (x : Nat) : W64 :=
  let nc := shapeCols x
  let nr := shapeRows panel x
  let sk := shapeSkew x
  if nc < 1 ∨ nc > 32 ∨ nr < 1 ∨ nr > 32 ∨ sk < 1 ∨ sk > 8 then 2
  else if slotOf s.cur ≠ 0 ∨ xOf s.curCore + nc > 32 ∨ yOf s.curCore + nr > 32 ∨ (seamPlaces nr nc).any (fun p => !memberFits s (seamCore s p)) then 1
  else 0

/-- Whether SEAM or PANEL may read the registers it copies: unless its shape, where that register shows it, forms nothing. -/
def mayForm (s : State) (panel : Bool) (r : Reg) : Bool :=
  (Map.find s.t.binds r.toNat).isSome || decide (seamStatus s panel (s.t.reg r).nat = 0)

/-- The registers that SEAM and PANEL copy: g1 to g(A-1), those bound apart (R314); a result that is still to come to one of them is
waited for, as by any instruction that reads it (R57, R138). -/
def copiedRegs (t : Thread) : List Reg :=
  ((List.range (t.allot - 1)).map (fun i => BitVec.ofNat 6 (i + 1))).filter (fun r => (Map.find t.binds r.toNat).isNone)

/-- The flags f0 to f7. -/
def allFlags : List Flag := (List.range 8).map (BitVec.ofNat 3)

/-- SEAM and PANEL (R314). -/
def seamForm (i : Instr) (q : Pre) (panel : Bool) (d r : Reg) (s : State) : Step :=
  let forms := mayForm s panel r
  issue q { base := baseParcel i, reads := [r], writes := [d], implied := if forms then copiedRegs s.t else [], rflags := if forms then allFlags else []
            noSeam := true }
    (fun s => do
      let (s1, v) ← readReg s r
      let st := seamStatus s panel v.nat
      if st ≠ 0 then writeW s1 d st
      else
        let nc := shapeCols v.nat
        let nr := shapeRows panel v.nat
        let sk := shapeSkew v.nat
        let s2 ← writeW s1 d 0
        let at_ := fun (p : Nat × Nat) => ({ head := s.cur, row := p.1, col := p.2, ncols := nc, nrows := nr, skew := sk } : Seam)
        let places := seamPlaces nr nc
        let s3 := places.foldl (fun s' p =>
          let tid := seamCore s p * 4
          s'.setThread tid { memberOf s2 (at_ p) with traced := (s'.thread tid).traced }) s2
        let s4 := (groupsOf s2.t).foldl (fun s' j => joinGroup s' s2.t.bolt j places.length) s3
        let s5 := match Map.find s4.blocks s2.t.block with
          | some b => { s4 with blocks := Map.set s4.blocks s2.t.block { b with live := b.live + places.length } }
          | none => s4
        pure (s5.setT { s5.t with seamed := true, seampos := seamposOf (at_ (0, 0)), seam := some (at_ (0, 0)), strm := some {} })) s

/-- SEAM (R314). -/
def execSeam (q : Pre) (d r : Reg) (s : State) : Step := seamForm (.seam q d r) q false d r s
/-- PANEL (R314). -/
def execPanel (q : Pre) (d r : Reg) (s : State) : Step := seamForm (.panel q d r) q true d r s

/-- SPOS (R316). -/
def execSpos (q : Pre) (d : Reg) (s : State) : Step :=
  issue q { base := baseParcel (.spos q d), writes := [d], lat := some 1 } (fun s => writeW s d (seamposWord s.t)) s

/-! ## The stream (R309, R310) -/

/-- An entry of the stream that a head has forwarded. -/
def forwarded (s : State) (head i : Nat) : Option (Instr × Bool × Nat) :=
  match (s.thread head).strm with
  | some st => (st.fwd.find? (fun e => decide (e.1 = i))).map (·.2)
  | none => none

/-- Whether an instruction is a SEAMEND. -/
def isSeamend : Instr → Bool
  | .seamend _ => true
  | _ => false

/-- A member's delay in cycles. -/
def Seam.delay (m : Seam) : Nat := (m.row + m.col) * m.skew

/-- The cycle in which a member executes its next index: the head's cycle of the index and the member's delay; of an index not yet
forwarded, the cycle of the instruction that the head has in progress, for its release, else the head's next cycle (R309). -/
def memberCycle (s : State) (m : Seam) : Nat :=
  match forwarded s m.head m.next with
  | some (_, _, c) => c + m.delay
  | none => (if (s.thread m.head).stage ≠ 0 then (s.thread m.head).cnt else nextCount s m.head) + m.delay

/-- Whether a member is at an enabled SEAMEND: its wait there holds no other member (R315). (assumption 51, DEDUCED) -/
def atSeamend (s : State) (m : Seam) : Bool :=
  match forwarded s m.head m.next with
  | some (i, g, _) => isSeamend i && g
  | none => false

/-- Whether a thread's instruction has issued and is in progress: it has executed its index in its cycle, and holds the next cycle. -/
def inProgress (t : Thread) : Bool :=
  decide (t.stage ≠ 0) || (match t.wait with | .answer => true | .hcall _ => true | .watch _ _ => true | _ => false)

/-- Whether a member comes before another in the order of delay, then row. -/
def Seam.before (x y : Seam) : Bool := decide (x.row + x.col < y.row + y.col) || (decide (x.row + x.col = y.row + y.col) && decide (x.row < y.row))

/-- Whether a member executes before or with every other: in order of cycle, then delay, then row (R309, R317). -/
def inStep (s : State) (tid : Nat) (m : Seam) : Bool :=
  let mine := memberCycle s m
  (seamMembers s m.head).all (fun j =>
    decide (j = tid) || (match (s.thread j).seam with
      | none => true
      | some x =>
        let c := memberCycle s x
        x.stopped || atSeamend s x || decide (mine < c) || (decide (mine = c) && (m.before x || inProgress (s.thread j)))))

/-- Whether a member's cycle has come: none of the others is still to execute in an earlier one. -/
def cycleCome (s : State) (tid : Nat) (m : Seam) : Bool :=
  (seamMembers s m.head).all (fun j =>
    decide (j = tid) || (match (s.thread j).seam with
      | none => true
      | some x => x.stopped || atSeamend s x || decide (memberCycle s m ≤ memberCycle s x)))

/-- The members that execute in the same cycle as a member, after it in the order, and are still to do so: a stall of one of them freezes
it as well (R309). -/
def sameCycle (s : State) (tid : Nat) (m : Seam) : List Nat :=
  (seamMembers s m.head).filter (fun j =>
    decide (j ≠ tid) && (match (s.thread j).seam with
      | none => false
      | some x => !x.stopped && !atSeamend s x && decide (memberCycle s x = memberCycle s m) && m.before x && !inProgress (s.thread j)))

/-- Whether a seam lets its head issue: it is not frayed and its members keep step; what a handler of the head runs is not part of the
stream (R327). -/
def headInStep (s : State) (tid : Nat) : Bool :=
  let t := s.thread tid
  match t.seam with
  | none => true
  | some m => !t.seamed || t.handler || (!m.stopped && inStep s tid m)

/-- SEAM_FORWARD (R309): a member that is in step executes its next index as the next step of the machine. (assumption 51, DEDUCED) -/
def seamForward (s : State) (tid : Nat) : State :=
  let t := s.thread tid
  match t.seam with
  | none => s
  | some m =>
    if !t.seamed ∨ m.row + m.col = 0 ∨ m.stopped ∨ t.occ ≠ .resident ∨ !waitOver s tid t.wait ∨ halted s t.bolt tid ∨
       (!t.late.isEmpty && decide (t.stage = 0)) ∨ !inStep s tid m then s
    else match forwarded s m.head m.next with
      | none => s
      | some (i, g, _) => { s with forward := some (tid, m.next, i, g) }

/-- The place of a member before it executes an index: the pc that the head logged for it. (assumption 51, DEDUCED) -/
def atIndex (s : State) (tid i : Nat) : State :=
  let t := s.thread tid
  match t.seam with
  | none => s
  | some m => match (s.thread m.head).strm with
    | some st => s.setThread tid { t with pc := loggedPc st i }
    | none => s

/-- Entries that every member has executed leave the record of what was forwarded. -/
def pruneStream (s : State) (head : Nat) : State :=
  let t := s.thread head
  match t.strm with
  | none => s
  | some st => match leastNat ((seamMembers s head).filterMap (fun j => (s.thread j).seam.map (·.next))) with
    | none => s
    | some low => s.setThread head { t with strm := some { st with fwd := st.fwd.filter (fun e => decide (low ≤ e.1)) } }

/-- Whether a thread's instruction is over after it executed: it waits on nothing, or in IDLE. -/
def isOver (t : Thread) : Bool := decide (t.stage = 0) && (decide (t.wait = .none) || decide (t.wait = .idle))

/-- After a member has executed its forwarded instruction: it passes to the next index when the instruction is over; in a frayed
seam it stops where its drain ends (R309, R317). -/
def afterMember (s : State) (tid : Nat) : State :=
  let t := s.thread tid
  match t.seam with
  | none => s
  | some m =>
    if !t.seamed ∨ m.stopped then s
    else
      let m1 := if isOver t then { m with next := m.next + 1 } else m
      let s1 := s.setThread tid { t with seam := some m1 }
      let s2 := match (s1.thread m.head).strm with
        | some st =>
          if !st.frayed then s1
          else
            let dk := match (s1.thread st.frayTid).seam with | some k => k.row + k.col | none => 0
            let same := decide (m.row + m.col ≤ dk)
            if same || decide (m1.next ≥ st.frayIndex) then stopMember s1 tid else s1
        | none => s1
      pruneStream s2 m.head

/-- After the head, `was` before, has issued the instruction `i` with its guard: it is logged and forwarded, with the counted cycle
of its issue, and the head passes it when it is over (R309, R310). What forms the seam, and what a handler of the head issues up to
its return, has no index. -/
def afterHead (s : State) (was : Thread) (tid : Nat) (i : Instr) (guard : Bool) : State :=
  let t := s.thread tid
  match t.seam, t.strm with
  | some m, some st =>
    let issuedNow := isOver t || (match t.wait with | .answer => true | .hcall _ => true | .watch _ _ => true | .seamEnd => true | _ => false)
    let st1 := { st with log := ((st.index, was.pc) :: st.log).take 512, fwd := st.fwd ++ [(st.index, i, guard, t.cnt)], index := st.index + 1 }
    if !t.seamed ∨ !was.seamed ∨ was.handler then s
    else if m.stopped then
      -- the head frayed: a TRAP or a user-mode HCALL has completed, and takes its index
      if m.next > st.index then s.setThread tid { t with strm := some st1 } else s
    else if !issuedNow then s
    else pruneStream (s.setThread tid { t with strm := some st1, seam := some (if isOver t then { m with next := m.next + 1 } else m) }) tid
  | _, _ => s

/-! ## SEAMEND (R315) -/

/-- The members other than the head. -/
def followersOf (s : State) (head : Nat) : List Nat := (seamMembers s head).filter (· ≠ head)

/-- A thread that is in no seam any more. -/
def unseamed (t : Thread) : Thread := { t with seamed := false, seampos := 0, seam := none, strm := none }

/-- SEAMEND (R315): outside a seam nothing; the head waits for the others to retire, and then for its ACQ.module, which its earlier reads
must precede (R276); each other member ends its commands, releases at module scope and retires. -/
def execSeamend (q : Pre) (s : State) : Step :=
  let base := baseParcel (.seamend q)
  if !s.t.seamed then issue q { base := base } (fun s => .ok s) s
  else if !follows s.t then
    issue q { base := base } (fun s =>
      if (followersOf s s.cur).isEmpty ∧ readsDone s s.cur then .ok (s.setT (unseamed s.t)) else .ok (setWait (s.setT { s.t with stage := 0 }) s.cur .seamEnd)) s
  else
    let on := match s.forward with | some (_, _, _, g) => g | none => true
    issue { q with gen := false } { base := base }
      (fun s =>
        if !on then .ok s
        else if s.t.cmds.any (fun c => decide (c.2.2 ≥ 1)) then waitR .place
        else releasing q 4 true (fun s => .ok (retire (s.setT { s.t with seampos := 0 }) s.cur)) s) s

/-- SEAMEND_HEAD_COMPLETE (R315): every other member has retired; the head acquires at module scope and continues unseamed. -/
def seamendHeadComplete (s : State) (tid : Nat) : State :=
  let t := s.thread tid
  if t.wait = .seamEnd ∧ (followersOf s tid).isEmpty ∧ readsDone s tid ∧ !halted s t.bolt tid then
    let s1 := setWait s tid .none
    s1.setThread tid (unseamed (s1.thread tid))
  else s

/-! ## Fray and recovery (R317 to R319) -/

/-- Whether every member has stopped and none awaits an ATOM or the reply of an HCALL. (assumption 51, DEDUCED) -/
def frayComplete (s : State) (head : Nat) : Bool :=
  (seamMembers s head).all (fun j =>
    let t := s.thread j
    (match t.seam with | some m => m.stopped | none => true) && t.await.isNone && (match t.wait with | .hcall _ => false | _ => true))

/-- TVAL of SEAMFRAY (R318). -/
def frayTvalOf (s : State) (st : Stream) : W64 :=
  let (row, col) := match (s.thread st.frayTid).seam with | some m => (m.row, m.col) | none => (0, 0)
  BitVec.ofNat 64 (st.frayIndex % 2 ^ 32 * 2 ^ 32 + row * 2 ^ 16 + col * 2 ^ 8 + st.frayCause.code.toNat)

/-- The fault that frayed a seam is consumed when the head's handler takes SEAMFRAY: the late fault, or the store fault, of the
faulting member. (assumption 51, DEDUCED) -/
def consumeFray (s : State) (st : Stream) : State :=
  let x := s.thread st.frayTid
  match st.frayLate with
  | some q => s.setThread st.frayTid { x with late := x.late.eraseP (fun l => decide (l.seq = q)), lateSeq := some q }
  | none => if st.frayCause = .storefault then dropStoreFault s st.frayTid else s

/-- SEAMFRAY (R318): the drain is over; the head takes SEAMFRAY at the pc of its resume index. (assumption 51, DEDUCED) -/
def seamfray (s : State) (tid : Nat) : State :=
  let t := s.thread tid
  match t.seam, t.strm with
  | some m, some st =>
    if !st.draining ∨ m.head ≠ tid ∨ !frayComplete s tid ∨ halted s t.bolt tid then s
    else
      let tpc := if m.next < st.index then loggedPc st m.next else t.pc
      let s0 := if t.handler ∨ t.tvec = 0 then s else consumeFray s st
      let s1 := s0.setThread tid { s0.thread tid with strm := some { st with draining := false } }
      takeTrap s1 tid .seamfray (frayTvalOf s st) tpc false false false 0
  | _, _ => s

/-- The seam of a head dissolved: every other member retires, the head is unseamed (R319). (assumption 39, DESIGN CHOICE) -/
def dissolve (s : State) (head : Nat) : State :=
  let s1 := (followersOf s head).foldl (fun s j => retire s j) s
  s1.setThread head (unseamed (s1.thread head))

/-- The head reissues the PC logged for an index without executing it (R319): the instruction as it is fetched now. The guard is the one
the head logged, for the path is. -/
def reissue (s : State) (core : Nat) (t : Thread) (st : Stream) (low i : Nat) (guard : Bool) : Except Stop (Nat × Instr × Bool × Nat) :=
  match fetchFrom s t.bolt core t.ecap 6 {} (loggedPc st i) with
  | .ok (_, x) => .ok (i, x, guard, t.cnt + 1 + (i - low))
  | .error e => .error e

/-- The logged indices reissued in order, up to one that can no longer be fetched. -/
def reissueAll (s : State) (core : Nat) (t : Thread) (st : Stream) (low : Nat) :
    List (Nat × Instr × Bool × Nat) → List (Nat × Instr × Bool × Nat) × Option (Nat × Stop)
  | [] => ([], none)
  | e :: rest => match reissue s core t st low e.1 e.2.2.1 with
    | .error x => ([], some (e.1, x))
    | .ok y =>
      let (l, x) := reissueAll s core t st low rest
      (y :: l, x)

/-- A logged PC that cannot be fetched any more frays the seam again at its index, in the head, which keeps its resume index: members stop
there. (assumption 77, DESIGN CHOICE) -/
def refray (s : State) (head i : Nat) (x : Stop) : State :=
  match x, (s.thread head).strm with
  | .trap c tv, some st =>
    let s1 := s.setThread head { s.thread head with strm := some { st with
      frayed := true, draining := true, frayIndex := i, frayTid := head, frayCause := c, frayTval := tv, frayLate := none } }
    (seamMembers s head).foldl (fun s j => match (s.thread j).seam with
      | some m => if j = head ∨ m.next ≥ i then stopMember s j else s
      | none => s) s1
  | _, _ => s

/-- A stream starts again at the lowest resume index, each logged index in a cycle of its own, its logged PC fetched again, and members go
on at their resume indices (R319). An index that the head has issued, whose instruction is still in progress there, stays issued.
(assumption 77, DESIGN CHOICE) -/
def restartStream (s : State) (head : Nat) : State :=
  let t := s.thread head
  match t.seam, t.strm with
  | some m, some st =>
    let low := restartIndex s head
    let upTo := if inProgress t then st.index else m.next
    let (fwd, bad) := reissueAll s (coreOf head) t st low (st.fwd.filter (fun e => decide (low ≤ e.1) && decide (e.1 < upTo)))
    let st1 : Stream := { st with
      index := upTo
      log := st.log.filter (fun e => decide (e.1 < upTo))
      fwd := fwd
      frayed := false, draining := false }
    let s2 := s.setThread head { t with strm := some st1, cnt := t.cnt + (upTo - low) }
    match bad with
    | some (i, x) => refray s2 head i x
    | none => s2
  | _, _ => s

/-- The members of a seam go on after a fray: what their faults held is free. -/
def unstopMembers (s : State) (head : Nat) : State :=
  (seamMembers s head).foldl (fun s j =>
    let x := s.thread j
    let s' := match x.lateSeq with | some q => freeRing s q | none => s
    match x.seam with
    | some k => s'.setThread j { x with seam := some { k with stopped := false }, lateSeq := none }
    | none => s') s

/-- SRESUME (R319): where it executes outside the handler of a SEAMFRAY it is illegal. (assumption 51, DEDUCED) -/
def execSresume (q : Pre) (s : State) : Step :=
  issue q { base := baseParcel (.sresume q) }
    (fun s =>
      if !inFrayHandler s.t then faultR .illegal (illTval q (baseParcel (.sresume q)))
      else if s.t.tpc.getLsbD 0 then faultR .illegal s.t.tpc
      else .ok (restartStream (unstopMembers (s.setT { leaveHandler s.t with lateSeq := s.t.lateSeq }) s.cur) s.cur)) s

/-! ## Event rows -/

/-- SEAM_FORWARD (R309). -/
def execSeamForward (tid : Nat) (s : State) : Step := withUnit (hasThread tid) (seamForward s tid)
/-- SEAMFRAY (R318). -/
def execSeamfray (tid : Nat) (s : State) : Step := withUnit (hasThread tid) (seamfray s tid)
/-- SEAMEND_HEAD_COMPLETE (R315). -/
def execSeamendHeadComplete (tid : Nat) (s : State) : Step := withUnit (hasThread tid) (seamendHeadComplete s tid)

end Sys2Proof.Machine
end

