-- ==== Sys2Proof/Machine/Trap.lean ====
section
/-!
DEFINITION. Traps and service (R325 to R339): TRAP, HCALL, TRET, MARK, IDLE; and the event rows TRAP_ENTRY, LATE_FAULT_TAKEN,
IDLE_WAKE and ROLNIS_RESTART.
-/
namespace Sys2Proof.Machine

/-! ## TRAP and HCALL (R336, R337) -/

/-- TRAP: it completes, then the handler is entered (R336). -/
def execTrap (q : Pre) (fn : BitVec 10) (s : State) : Step :=
  issue q { base := baseParcel (.trap q fn) } (fun s => .ok (takeTrap s s.cur .trap (fn.setWidth 64) s.t.pc false false true 0)) s

/-- HCALL (R336, R337): in user mode it enters the handler; in supervisor mode it reads its arguments g4 to g7, releases at module scope,
sends the request and waits for the reply, whose result code is written to g4. (assumption 13, DEDUCED) -/
def hcallForm (i : Instr) (q : Pre) (fn : BitVec 10) (s : State) : Step :=
  issue q { base := baseParcel i, implied := if s.t.mode then [4, 5, 6, 7] else [] }
    (fun s =>
      if !s.t.mode then .ok (takeTrap s s.cur .hcall (fn.setWidth 64) s.t.pc false false true 0)
      else releasing q 4 false (fun s =>
        .ok (setWait (s.setT { s.t with stage := 0, asked := (s.gtime, s.b.clusters, s.b.swatches) }) s.cur (.hcall fn))) s) s

/-- HCALL (R336). -/
def execHcall (q : Pre) (fn : BitVec 10) (s : State) : Step := hcallForm (.hcall q fn) q fn s
/-- HCALL to system software (R337). (assumption 13, DEDUCED) -/
def execHcallSystem (q : Pre) (fn : BitVec 10) (s : State) : Step := hcallForm (.hcallSystem q fn) q fn s
/-- HCALL 0x200: resize (R348). -/
def execHcallResize (q : Pre) (s : State) : Step := hcallForm (.hcallResize q) q 0x200 s
/-- HCALL 0x201: return a swatch (R348). -/
def execHcallReturnSwatch (q : Pre) (s : State) : Step := hcallForm (.hcallReturnSwatch q) q 0x201 s
/-- HCALL 0x202: attest (R374). -/
def execHcallAttest (q : Pre) (s : State) : Step := hcallForm (.hcallAttest q) q 0x202 s
/-- HCALL 0x203: register a Damask template (R350). -/
def execHcallDamaskTemplate (q : Pre) (s : State) : Step := hcallForm (.hcallDamaskTemplate q) q 0x203 s

/-! ## TRET (R330) -/

/-- TRET: the check of TPC first; a frayed seam is dissolved, the ring entry of the late fault freed, the handler left. -/
def execTret (q : Pre) (s : State) : Step :=
  issue q { base := baseParcel (.tret q), priv := true }
    (fun s =>
      if s.t.tpc.getLsbD 0 then faultR .illegal s.t.tpc
      else
        let s1 := if inFrayHandler s.t then dissolve s s.cur else s
        let s2 := match s1.t.lateSeq with | some n => freeRing s1 n | none => s1
        .ok (rejoin (s2.setT (leaveHandler s2.t)) s2.cur)) s

/-! ## MARK and IDLE (R338, R339) -/

/-- MARK (R338): a record in the cluster's trace ring while it captures, and an event. -/
def execMark (q : Pre) (fn : BitVec 10) (s : State) : Step :=
  issue q { base := baseParcel (.mark q fn) }
    (fun s =>
      let s1 := countEvent s s.cur 11 1
      .ok (traceNote s1 { cluster := s.curCluster, core := logical s s.curCore, slot := slotOf s.cur, kind := 2, rest := [fn.toNat] })) s

/-- Whether what ends an IDLE of a thread already holds (R339). -/
def idleOver (s : State) (tid : Nat) : Bool :=
  let t := s.thread tid
  (s.core (coreOf tid)).inbox.any (fun m => decide (m.dstSlot = slotOf tid)) || !t.late.isEmpty || t.tokDone

/-- IDLE (R339). -/
def execIdle (q : Pre) (s : State) : Step :=
  issue q { base := baseParcel (.idle q), priv := true }
    (fun s => .ok (if idleOver s s.cur then s.setT { s.t with tokDone := false } else setWait s s.cur .idle)) s

/-- IDLE_WAKE (R339). -/
def idleWake (s : State) (tid : Nat) : State :=
  let t := s.thread tid
  if t.wait = .idle ∧ t.occ = .resident ∧ idleOver s tid ∧ !halted s t.bolt tid then wakeIdle s tid else s

/-! ## Late faults (R329) -/

/-- Whether a thread stands at an instruction boundary: no instruction of it is in progress; the acquire of a write stream's last element
comes before the next one (R94). (assumption 38, DEDUCED) -/
def atBoundary (t : Thread) : Bool :=
  decide (t.occ = .resident) && !t.handler && decide (t.stage = 0) && 
  (decide (t.wait = .none) || decide (t.wait = .operand) || decide (t.wait = .place) || decide (t.wait = .memPlace) || (t.acqDue && decide (t.wait = .release)))

/-- LATE_FAULT_TAKEN (R329): the fault first recorded is taken before the thread's next instruction; one that escalates stays
recorded (R335). In a seam it frays when the member's cycle has come, those before it in the cycle having executed (R317), and stays
recorded until SEAMFRAY; a member that has stopped takes none. (assumption 38, DEDUCED) -/
def lateFaultTaken (s : State) (tid : Nat) : State :=
  let t := s.thread tid
  match t.late with
  | [] => s
  | l :: rest =>
    let held : Bool := match t.seam with | some m => t.seamed && (m.stopped || !inStep s tid m) | none => false
    if !atBoundary t ∨ held ∨ halted s t.bolt tid then s
    else if t.seamed then takeTrap s tid l.cause (l.seq.num.setWidth 64) t.pc true false false 0
    else if t.tvec = 0 then escalate s tid l.cause (l.seq.num.setWidth 64) t.pc
    else takeTrap (s.setThread tid { t with late := rest, lateSeq := some l.seq }) tid l.cause (l.seq.num.setWidth 64) t.pc true false false 0

/-! ## Entries and restarts -/

/-- The thread-taken cause of a code (R325). (assumption 39, DESIGN CHOICE) -/
def causeOf (code : BitVec 8) : Option Cause :=
  ([.illegal, .allot, .group, .captag, .capbound, .capperm, .localprot, .page, .map, .storefault, .scale, .stallcount, .coproc, .walk,
    .damask, .perm, .seamfray, .stream, .trap, .hcall] : List Cause).find? (fun c => decide (c.code = code))

/-- TRAP_ENTRY (R327): a resident thread takes a trap of a thread-taken cause at its next instruction. (assumption 39, DESIGN CHOICE) -/
def trapEntry (s : State) (tid : Nat) (code : BitVec 8) (tval : W64) : State :=
  let t := s.thread tid
  match causeOf code with
  | none => s
  | some c => if t.occ = .resident ∧ !halted s t.bolt tid then takeTrap s tid c tval t.pc false false false 0 else s

/-- ROLNIS_RESTART (R335): a stopped thread goes on at a stated pc in supervisor mode with HANDLER cleared, in no handler that has a ring
entry to free (R330), or is retired, with
the members of a seam it heads. (assumption 39, DESIGN CHOICE) -/
def rolnisRestart (s : State) (tid : Nat) (pc : Option W64) : State :=
  let t := s.thread tid
  if t.occ ≠ .stopped then s
  else match pc with
    | some a =>
      s.setThread tid { t with occ := .resident, mode := true, handler := false, lateSeq := none, pc := a, ecap := capMove t.ecap a, wait := .none, stage := 0 }
    | none => retire (if t.seamed then dissolve s tid else s) tid

/-! ## Event rows -/

/-- IDLE_WAKE (R339). -/
def execIdleWake (tid : Nat) (s : State) : Step := withUnit (hasThread tid) (idleWake s tid)
/-- LATE_FAULT_TAKEN (R329). -/
def execLateFaultTaken (tid : Nat) (s : State) : Step := withUnit (hasThread tid) (lateFaultTaken s tid)
/-- TRAP_ENTRY (R327). -/
def execTrapEntry (tid : Nat) (code : BitVec 8) (tval : W64) (s : State) : Step := withUnit (hasThread tid) (trapEntry s tid code tval)
/-- ROLNIS_RESTART (R335). -/
def execRolnisRestart (tid : Nat) (pc : Option W64) (s : State) : Step := withUnit (hasThread tid) (rolnisRestart s tid pc)

end Sys2Proof.Machine
end

