-- ==== Sys2Proof/Machine/Bolt.lean ====
section
/-!
DEFINITION. Bolts (R344 to R360): the press and the resume, take-in and let-out with migration, rehash, quarantine and scrub,
time-sharing and the end of a bolt; XINV (R84, R85); and the event rows PRESS, BOLT_RESUME, TAKE_IN, LET_OUT, BLOCK_MIGRATE,
SHADOW_FETCH, SHADOW_LINE_ARRIVAL, SWEEPER, SCRUB, TIMESHARE_SWITCH, BOLT_END and SWATCH_ADD.
-/
namespace Sys2Proof.Machine

/-! ## XINV (R85) -/

/-- Whether the page of a translation-cache entry or a claim, given in 64 KiB units, meets `[b, e)`. -/
def pageMeets (page pages b e : Nat) : Bool := decide (page * 2 ^ 16 < e) && decide (b < (page + pages) * 2 ^ 16)

/-- One slice invalidated: translations dropped, dirty lines of `[b, e)` written back, which is charged to the bolt (R357), its lines
dropped. -/
def invalidateSlice (s : State) (bolt : Nat) (cls : BitVec 2) (b e h : Nat) : State :=
  let sl := s.slice h
  let inRange := fun (k line : Nat) => decide (k = bolt) && decide (b ≤ line * 64) && decide (line * 64 < e)
  let s1 := sl.ways.foldl (fun s p =>
    if inRange p.2.bolt p.2.line && p.2.dirty then chargeBack (dramWriteLine s p.2.pa p.2.data.toNat p.2.tags) bolt cls else s) s
  let s2 := sl.staging.foldl (fun s x =>
    if inRange x.bolt x.line && decide (x.kind = 1) then dramWriteLine s x.pa x.data.toNat x.tags else s) s1
  s2.setSlice h { s2.slice h with
    xlat := sl.xlat.filter (fun x => !(decide (x.bolt = bolt) && pageMeets x.page x.pages b e))
    ways := sl.ways.filter (fun p => !inRange p.2.bolt p.2.line)
    staging := sl.staging.filter (fun x => !inRange x.bolt x.line) }

/-- A range invalidated at every slice of a bolt, old homes included, and its claims cleared. -/
def invalidate (s : State) (bolt : Nat) (cls : BitVec 2) (b e : Nat) : State :=
  let hs := risingSet ((s.bolt bolt).slices ++ (s.bolt bolt).oldSlices)
  let s1 := hs.foldl (fun s h => invalidateSlice s bolt cls b e h) s
  { s1 with claims := s1.claims.filter (fun p => !(decide (p.2.2 = bolt) && decide (b ≤ p.2.1 * 2 ^ 16) && decide (p.2.1 * 2 ^ 16 < e))) }

/-- XINV (R84, R85). -/
def execXinv (q : Pre) (d r : Reg) (s : State) : Step :=
  issue q { base := baseParcel (.xinv q d r), priv := true, reads := [r, d] }
    (fun s => do
      let (s1, len) ← readW s r
      let (s2, va) ← readW s1 d
      let b := va.toNat / 2 ^ 16 * 2 ^ 16
      let e := min ((len.toNat + va.toNat + 0xFFFF) / 2 ^ 16 * 2 ^ 16) 0xE000000000000
      pure (if len = 0 ∨ b ≥ e then s2 else invalidate s2 s.t.bolt s.t.qclass b e)) s

/-! ## The press (R346, R347) -/

/-- The requests that are between their network interfaces and their homes and are as `mine` says, the ones nearest home first, and the
state without them. A peer module's stay where they are (R347). (assumption 42, DESIGN CHOICE) -/
def sweepPackets (s : State) (mine : Req → Bool) : State × List Req :=
  let mine := fun (r : Req) => mine r && !r.peer
  let keep := fun (l : List Req) => l.filter (fun r => !mine r)
  let take := fun (l : List Req) => l.filter mine
  let crossing := fun (p : Packet) => match p with | .request r => if mine r then some { r with src := bridgeWriter } else none | _ => none
  let out := s.slices.flatMap (fun p => take (p.2.chan0 ++ p.2.chan)) ++ s.clusters.flatMap (fun p => take p.2.win) ++
    s.dies.flatMap (fun p => p.2.bridge.filterMap crossing)
  ({ s with
     slices := s.slices.map (fun p => (p.1, { p.2 with chan := keep p.2.chan, chan0 := keep p.2.chan0 }))
     clusters := s.clusters.map (fun p => (p.1, { p.2 with win := keep p.2.win }))
     dies := s.dies.map (fun p => (p.1, { p.2 with bridge := p.2.bridge.filter (fun x => (crossing x).isNone) })) }, out)

/-- A member of a seam whose instruction waits for a load is saved with the instruction unissued (R320). -/
def unissue (s : State) (tid : Nat) : State :=
  let t := s.thread tid
  match t.await with
  | some a => if t.seamed && !t.handler && !a.atom then (giveBack s tid a.popped).setThread tid (abandon t) else s
  | none => s

/-- A thread as a press saves it: a DSEAL or DOPEN looks at STATE again (R125). (assumption 42, DESIGN CHOICE) -/
def savedThread (t : Thread) : Thread :=
  { t with
    occ := .pressed
    stage := if t.wait = .damask ∧ t.stage = sealSeen then sealWait else if t.wait = .damask ∧ t.stage = openSeen then openWait else t.stage }

/-- A thread's context saved by a press, with its store faults (R340); the elements its streams have fetched are discarded (R171).
(assumption 42, DESIGN CHOICE) -/
def pressThread (s : State) (tid : Nat) : State :=
  if (s.thread tid).occ ≠ .resident then s
  else
    let s1 := dropElements (saveFaults (unissue s tid) tid) tid
    s1.setThread tid (savedThread (s1.thread tid))

/-- A saved context restored; an IDLE in force is complete (R339). (assumption 42, DESIGN CHOICE) -/
def unpressThread (s : State) (tid : Nat) : State :=
  let t := s.thread tid
  if t.occ = .pressed then wakeIdle (restoreFaults (s.setThread tid { t with occ := .resident, blockedAt := s.gtime }) tid) tid else s

/-- The slots of the threads of a bolt that `f` selects; the system cores that serve it are no part of it. -/
def threadsOf (s : State) (bolt : Nat) (f : Thread → Bool) : List Nat :=
  (s.threads.filter (fun p => decide (p.2.bolt = bolt) && decide (p.2.occ ≠ .empty) && decide (p.1 < 8192) && f p.2)).map (·.1)

/-- The seams of threads just restored start again from their lowest resume index; a fray that was draining goes on (R320). -/
def restartSeams (s : State) (tids : List Nat) : State :=
  tids.foldl (fun s tid =>
    let t := s.thread tid
    match t.seam, t.strm with
    | some m, some st => if m.head = tid ∧ t.seamed ∧ !t.handler ∧ !st.frayed then restartStream s tid else s
    | _, _ => s) s

/-- Swept packets whose threads are halted no more enter the channels of their homes, in order. (assumption 42, DESIGN CHOICE) -/
def reinject (s : State) (bolt : Nat) : State :=
  let b := s.bolt bolt
  let s1 := s.setBolt bolt { b with swept := b.swept.filter (fun r => halted s bolt r.tid) }
  (b.swept.filter (fun r => !halted s bolt r.tid)).foldl (fun s r => deliver s r.src r) s1

/-- The port words on their way to the cores of a bolt that can land do so, before any member of a seam issues (R320). -/
def landWords (bolt : Nat) : Nat → Nat → State → State
  | 0, _, s => s
  | n + 1, i, s =>
    match s.pwords[i]? with
    | none => s
    | some p =>
      let s1 := if (s.cluster (clusterOf p.core)).owner = .bolt bolt then portWordArrival s i else s
      if s1.pwords.length < s.pwords.length then landWords bolt n i s1 else landWords bolt n (i + 1) s1

/-- Threads that a press saved go on: their contexts are back, then their packets and port words, then the seams (R320, R346).
(assumption 42, DESIGN CHOICE) -/
def resumeThreads (s : State) (bolt : Nat) (tids : List Nat) : State :=
  let s1 := reinject (tids.foldl unpressThread s) bolt
  restartSeams (landWords bolt s1.pwords.length 0 s1) tids

/-- The threads of a set saved, with the packets that are as `mine` says; or the bolt left halted with threads and packets in place, and
SAVEFAULT reported, where the save of one of the threads fails (R341, R346). What an array has been granted or the Sorter has accepted
completes while the threads are saved (R241, R265): nothing of a cluster is moved or streamed before it has. (assumption 42, DESIGN CHOICE) -/
def pressThreads (s : State) (bolt : Nat) (tids : List Nat) (mine : Req → Bool) (fail : Option Nat) : State :=
  match fail.filter tids.contains with
  | some tid => saveFailed (s.setBolt bolt { s.bolt bolt with pressed := true }) tid
  | none =>
    let (s2, out) := sweepPackets (tids.foldl pressThread s) (fun r => mine r && !r.goesOn s)
    s2.setBolt bolt { s2.bolt bolt with swept := (s2.bolt bolt).swept ++ out }

/-- One block pressed: the block number a PRESS names is its window number (R346). -/
def pressBlock (s : State) (bolt w : Nat) (fail : Option Nat) : State :=
  let k := blockKey bolt w
  if (Map.find s.blocks k).isNone ∨ (s.bolt bolt).pressed then s
  else
    let tids := threadsOf s bolt (fun t => decide (t.block = k))
    let s1 := pressThreads s bolt tids (fun r => decide (r.bolt = bolt) && decide ((s.thread r.tid).block = k) && decide ((s.thread r.tid).occ ≠ .empty) && !isSystem (coreOf r.tid)) fail
    let b := s1.bolt bolt
    if b.pressed then s1 else s1.setBolt bolt { b with pressedBlocks := w :: b.pressedBlocks.filter (· ≠ w) }

/-- A whole bolt pressed (R346): one whose save failed before is saved when it is pressed again. -/
def pressBolt (s : State) (bolt : Nat) (fail : Option Nat) : State :=
  if !(s.bolt bolt).live then s
  else
    let s1 := pressThreads s bolt (threadsOf s bolt (fun _ => true)) (fun r => decide (r.bolt = bolt)) fail
    s1.setBolt bolt { s1.bolt bolt with pressed := true }

/-- PRESS (R346): of a bolt or of one of its blocks; `fail` names the slot of a thread whose save fails (R341).
(assumption 42, DESIGN CHOICE) -/
def press (s : State) (bolt : Nat) (block fail : Option Nat) : State :=
  match block with
  | none => pressBolt s bolt fail
  | some w => pressBlock s bolt w fail

/-- Whether a block of a bolt waits in reserved memory for clusters that can take its seam (R349). -/
def reserved (s : State) (k : Nat) : Bool := match Map.find s.blocks k with | some b => inReserve b.cluster | none => false

/-- A bolt resumed (R346, R347, R364): contexts restored, packets reinjected, a debug stop over. A bolt stopped by MACHINECHECK,
or with a cluster lent to another bolt, does not resume; a block that waits in reserved memory stays there.
(assumption 42, DESIGN CHOICE) -/
def boltResume (s : State) (bolt : Nat) : State :=
  let b := s.bolt bolt
  if !b.live ∨ b.stopped ∨ s.parked.any (fun p => decide (p.bolt = bolt)) then s
  else
    let s1 := s.setBolt bolt { b with
      pressed := false, pressedBlocks := b.pressedBlocks.filter (fun w => reserved s (blockKey bolt w))
      stopDue := false, trctl := b.trctl &&& ~~~0x3000000000000000#64 }
    let tids := threadsOf s1 bolt (fun t => !reserved s t.block)
    -- every IDLE that was in force at a press completes, of threads too that a failed save left in place (R339)
    resumeThreads (if b.pressed then tids.foldl wakeIdle s1 else s1) bolt tids

/-- A bolt stopped by MACHINECHECK: it is halted, and Rolnis told (R343). (assumption 44, DEDUCED) -/
def machineCheck (s : State) (bolt : Nat) (tval : W64) : State :=
  let s1 := pressBolt s bolt none
  report (s1.setBolt bolt { s1.bolt bolt with stopped := true }) { cause := .machinecheck, tid := 0, tval := tval }

/-! ## Scrub (R353) -/

/-- A cluster in the state the scrub leaves, its owner apart: the clock of its region is no resource of the scrub. (assumption 6, DESIGN CHOICE) -/
def scrubbedCluster (c : Cluster) : Cluster := { throttle := c.throttle, copyOut := c.copyOut, matrixOut := c.matrixOut }

/-- A cluster's cores and thread slots at reset. -/
def scrubCores (s : State) (cl : Nat) : State :=
  let here := fun (k : Nat) => decide (clusterOf k = cl)
  { s with
    cores := s.cores.filter (fun p => !here p.1)
    threads := s.threads.filter (fun p => !(here (coreOf p.1) && decide (p.1 < 8192)))
    pwords := s.pwords.filter (fun p => !here p.core)
    xwords := s.xwords.filter (fun p => !here p.core) }

/-- A cluster scrubbed and free. -/
def scrubCluster (s : State) (cl : Nat) : State := (scrubCores s cl).setCluster cl (scrubbedCluster (s.cluster cl))

/-- What a slice keeps over a scrub: requests of the system cores and its counts of them (R371). (assumption 78, DESIGN CHOICE) -/
def keepSystem (sl : Slice) : Slice :=
  { chan := sl.chan.filter (fun r => isSystem r.core), chan0 := sl.chan0.filter (fun r => isSystem r.core)
    arrived := sl.arrived.filter (fun p => isSystem (p.1 / 4)) }

/-- A slice scrubbed and free. -/
def scrubSlice (s : State) (h : Nat) : State := s.setSlice h (keepSystem (s.slice h))

/-- SCRUB (R353): what is in quarantine is cleared, then released. -/
def scrub (s : State) (cluster slice : Option Nat) : State :=
  let s1 := match cluster with
    | some cl => if (s.cluster cl).owner = .quarantine then scrubCluster s cl else s
    | none => s
  match slice with
  | some h => if (s1.slice h).owner = .quarantine then scrubSlice s1 h else s1
  | none => s1

/-! ## Resizing (R349, R351) -/

/-- Every cluster's PERMT bits of some clusters cleared (R345). -/
def clearPermt (s : State) (cls : List Nat) : State :=
  { s with clusters := s.clusters.map (fun p => (p.1, { p.2 with permt := p.2.permt.filter (fun c => !cls.contains c) })) }

/-- PERMT bits for newly owned clusters, set in every cluster of the bolt (R345). (assumption 43, DEDUCED) -/
def setPermt (s : State) (bolt : Nat) (cls : List Nat) : State :=
  let reserve := ((s.blocks.filter (fun p => decide (p.2.bolt = bolt) && inReserve p.2.cluster)).map (·.2.cluster)).eraseDups
  ((s.bolt bolt).clusters ++ reserve).foldl (fun s c => s.setCluster c { s.cluster c with permt := risingSet ((s.cluster c).permt ++ cls) }) s

/-- The live cores of a cluster out of reset. -/
def releaseCores (s : State) (cl : Nat) : State :=
  (liveCores s cl).foldl (fun s k => s.setCore k { s.core k with live := true }) s

/-- A free cluster becomes a bolt's, its Damask slice holding the template and SEALED (R350). (assumption 43, DEDUCED) -/
def grantCluster (s : State) (bolt cl : Nat) : State :=
  let c := s.cluster cl
  let c1 := match (s.bolt bolt).template with
    | some (m, _) => { c with owner := .bolt bolt, damask := m, dstate := 2 }
    | none => { c with owner := .bolt bolt }
  releaseCores (s.setCluster cl c1) cl

/-- A free slice becomes a bolt's, with its swatch mask (R68). -/
def grantSlice (s : State) (bolt h : Nat) : State :=
  s.setSlice h { s.slice h with owner := .bolt bolt, swmask := (s.bolt bolt).swatches }

/-- Whether nothing of a cluster is under way: its engines, banks, requests and Sorter entries. -/
def clusterQuiet (s : State) (cl : Nat) : Bool :=
  let c := s.cluster cl
  c.lq.isEmpty && c.cq.isEmpty && c.gq.isEmpty && c.arrayBusy.isNone && c.win.isEmpty &&
  !onTheWay s (fun r => decide (r.cluster = cl) || decide (r.dest = 128 + cl)) &&
  !s.dies.any (fun d => d.2.sorter.queue.any (fun x => decide (clusterOf x.1 = cl)))

/-- Whether a thread slot of a cluster, or a saved context of one of its cores, is in use. -/
def clusterHolds (s : State) (cl : Nat) : Bool :=
  s.blocks.any (fun p => decide (p.2.cluster = cl)) || s.threads.any (fun p => decide (clusterOf (coreOf p.1) = cl) && decide (p.2.occ ≠ .empty))

/-- A core's counts of writes to a slice gone. -/
def Core.settled (h : Nat) (c : Core) : Core :=
  { c with
    sent := c.sent.filter (fun e => decide (e.1 % destSpan ≠ h))
    closing := c.closing.map (fun x => { x with dests := x.dests.filter (· ≠ h) }) }

/-- What is left to settle of a departing slice: a write counted there has been performed, so its counts go, of parked cores too. -/
def settleSlice (s : State) (h : Nat) : State :=
  { s with
    cores := s.cores.map (fun p => if isSystem p.1 then p else (p.1, p.2.settled h))
    parked := s.parked.map (fun k => { k with cores := k.cores.map (fun p => (p.1, p.2.settled h)) }) }

/-- Whether a departing slice may enter quarantine: no request names it, and its staging buffer owes DRAM nothing. (assumption 43, DEDUCED) -/
def sliceQuiet (s : State) (h : Nat) : Bool :=
  !onTheWay s (fun r => decide (r.dest = h)) && (s.slice h).ways.isEmpty && !(s.slice h).staging.any (fun e => decide (e.kind = 1))

/-- A rehash begins (R351): the network interfaces adopt the new list, every old home has its sweep to make. (assumption 43, DEDUCED) -/
def beginRehash (s : State) (bolt : Nat) : State :=
  let b := s.bolt bolt
  match b.newSlices with
  | none => s
  | some l =>
    if l = b.slices then s.setBolt bolt { b with newSlices := none }
    else if b.slices.isEmpty then s.setBolt bolt { b with newSlices := none, slices := l }
    else s.setBolt bolt { b with newSlices := none, slices := l, oldSlices := b.slices, sweeping := b.slices }

/-- The slices that leave a bolt with its rehash. -/
def goneSlices (b : Bolt) : List Nat := b.oldSlices.filter (fun h => !b.slices.contains h)

/-- Whether a rehash is over: no list is to come, the sweeps have ended, and nothing names a departing slice. -/
def rehashOver (s : State) (bolt : Nat) : Bool :=
  let b := s.bolt bolt
  b.newSlices.isNone && b.sweeping.isEmpty && (goneSlices b).all (sliceQuiet s)

/-- A rehash ends: the departing slices enter quarantine. -/
def endRehash (s : State) (bolt : Nat) : State :=
  let b := s.bolt bolt
  let s1 := (goneSlices b).foldl (fun s h => (settleSlice s h).setSlice h { (s.slice h) with owner := .quarantine }) s
  let s2 := b.slices.foldl (fun s h => s.setSlice h { s.slice h with record := [], fetching := [] }) s1
  s2.setBolt bolt { s2.bolt bolt with oldSlices := [] }

/-- Whether a saved context's room is in one of some clusters. -/
def roomIn (cls : List Nat) (t : Thread) : Bool :=
  decide (t.occ = .evicted) && (match t.room with | some (.entries c) => cls.contains (clusterOf c) | some (.page c _) => cls.contains c | none => false)

/-- The contexts of evicted threads that are saved in departing clusters go to the nearest room that the bolt keeps (R299).
(assumption 37, DEDUCED) -/
def rehome (s : State) (bolt : Nat) (cls : List Nat) : State :=
  ((s.threads.filter (fun p => roomIn cls p.2)).map (·.1)).foldl (fun s tid =>
    let t := s.thread tid
    match nearestRoom s bolt (coreOf tid) t.allot with
    | some r => s.setThread tid { t with room := some r }
    | none => s) s

/-- The take-in goes on as far as it can: emptied clusters, then the rehash; then the PERMT bits of the departing clusters are cleared, and
departing clusters and slices enter quarantine together (R349). (assumption 43, DEDUCED) -/
def advanceResize (s0 : State) (bolt : Nat) : State :=
  let s := rehome s0 bolt (s0.bolt bolt).departing
  let b := s.bolt bolt
  if b.departing.any (fun cl => clusterHolds s cl) ∨ s.threads.any (fun p => roomIn b.departing p.2) then s
  else
    let s1 := if b.oldSlices.isEmpty then beginRehash s bolt else s
    let b1 := s1.bolt bolt
    if !rehashOver s1 bolt ∨ !b1.departing.all (clusterQuiet s1) then s1
    else
      let s2 := endRehash (clearPermt s1 b1.departing) bolt
      let s3 := b1.departing.foldl (fun s cl => s.setCluster cl { s.cluster cl with owner := .quarantine }) s2
      s3.setBolt bolt { s3.bolt bolt with clusters := b1.clusters.filter (fun c => !b1.departing.contains c), departing := [] }

/-- Whether a bolt is being resized. -/
def resizing (b : Bolt) : Bool := !b.departing.isEmpty || b.newSlices.isSome || !b.oldSlices.isEmpty

/-- TAKE_IN (R349): clusters and slices of the bolt begin to leave; at least one of each stays. -/
def takeIn (s : State) (bolt : Nat) (clusters slices : List Nat) : State :=
  let b := s.bolt bolt
  let ok := b.live && !resizing b && clusters.all b.clusters.contains && slices.all b.slices.contains &&
    b.clusters.any (fun c => !clusters.contains c) && b.slices.any (fun h => !slices.contains h)
  if ok then
    advanceResize (s.setBolt bolt { b with departing := clusters, newSlices := some (b.slices.filter (fun h => !slices.contains h)) }) bolt
  else advanceResize s bolt

/-- LET_OUT (R349, R350): free clusters and slices become the bolt's; the rehash begins after the PERMT bits are set. -/
def letOut (s : State) (bolt : Nat) (clusters slices : List Nat) : State :=
  let b := s.bolt bolt
  let ok := b.live && !resizing b && distinct clusters && distinct slices &&
    clusters.all (fun c => decide (c < Config.clusters) && decide ((s.cluster c).owner = .free)) &&
    slices.all (fun h => decide (h < Config.slices) && decide ((s.slice h).owner = .free))
  if !ok then s
  else
    let s1 := slices.foldl (fun s h => grantSlice s bolt h) (clusters.foldl (fun s c => grantCluster s bolt c) s)
    let s2 := s1.setBolt bolt { s1.bolt bolt with clusters := b.clusters ++ clusters, newSlices := some (b.slices ++ slices) }
    let s3 := clusters.foldl (fun s c => s.setCluster c { s.cluster c with permt := risingSet (b.clusters ++ clusters) }) (setPermt s2 bolt clusters)
    advanceResize s3 bolt

/-! ## Migration (R349, step 2) -/

/-- Whether a block has reached an exchange boundary: one of its threads is about to enter or to leave an exchange phase. -/
def atBoundaryX (s : State) (k : Nat) : Bool :=
  s.threads.any (fun p =>
    let t := p.2
    decide (t.block = k) && decide (t.occ ≠ .empty) &&
      (match t.wait with
        | .exchange b j gen => decide (groupGen (s.bolt b) j ≠ gen)
        | .xend => (match t.xphase with | some j => (inPhase s t.bolt j).all (fun m => decide ((s.thread m).wait = .xend)) | none => false)
        | _ => false))

/-- Whether a block may move now. (assumption 43, DEDUCED) -/
def mayMove (s : State) (bolt k : Nat) : Bool :=
  (s.bolt bolt).pressed || (s.bolt bolt).pressedBlocks.contains (k % 8192) || atBoundaryX s k

/-- The clusters that the seams with a member in a set of clusters span. -/
def seamClusters (s : State) (cls : List Nat) : List Nat :=
  let heads := risingSet (s.threads.filterMap (fun p => match p.2.seam with
    | some m => if p.2.occ ≠ .empty ∧ cls.contains (clusterOf (coreOf p.1)) then some m.head else none
    | none => none))
  risingSet (cls ++ heads.flatMap (fun h => (seamMembers s h).map (fun t => clusterOf (coreOf t))))

/-- The set closed under seams. -/
def seamClosure (s : State) : Nat → List Nat → List Nat
  | 0, l => l
  | n + 1, l => let l' := seamClusters s l; if l' = l then l else seamClosure s n l'

/-- A cluster displaced as `a` is to `b`: the same relative mesh position, on the die of `b`. -/
def displaced (a b c : Nat) : Option Nat :=
  let dx : Int := (b % 4 : Nat) - (a % 4 : Nat)
  let dy : Int := (b % 128 / 4 : Nat) - (a % 128 / 4 : Nat)
  let x : Int := (c % 4 : Nat) + dx
  let y : Int := (c % 128 / 4 : Nat) + dy
  if 0 ≤ x ∧ x < 4 ∧ 0 ≤ y ∧ y < 32 then some (b / 128 * 128 + y.toNat * 4 + x.toNat) else none

/-- Where the clusters of `l` go when `a` moves to `b`. -/
def moveMap (s : State) (a b : Nat) (l : List Nat) : Option (List (Nat × Nat)) :=
  if l = [a] then some [(a, b)]
  else l.mapM (fun c => (displaced a b c).bind (fun d =>
    -- a seam keeps the mesh positions of its members within each cluster
    if (liveCores s c).map (fun k => xOf k % 8) = (liveCores s d).map (fun k => xOf k % 8) then some (c, d) else none))

/-- A swap of numbers by a list of pairs. -/
def swapNat (l : List (Nat × Nat)) (n : Nat) : Nat :=
  match l.find? (fun p => decide (p.1 = n) || decide (p.2 = n)) with
  | some p => if p.1 = n then p.2 else p.1
  | none => n

/-- The number of a thread whose core is renumbered. -/
def moveTid (fc : Nat → Nat) (tid : Nat) : Nat :=
  let c := coreOf tid
  let k := fc c
  if k = c then tid else k / 2 ^ 24 * 2 ^ 40 + tid % 2 ^ 40 / 8192 * 8192 + k % 2 ^ 24 * 4 + slotOf tid

/-- Clusters of a bolt exchange what they hold, core by logical core, PERMT too, for a thread sees nothing but its CLID change (R354); owners,
clocks and units out of service stay where they are. What is another bolt's keeps its numbers (R358). -/
def swapClusters (s : State) (bolt : Nat) (l : List (Nat × Nat)) : State :=
  let fc := swapNat (l.flatMap (fun p => List.zip (liveCores s p.1) (liveCores s p.2)))
  let s1 := renumber { tid := moveTid fc, core := fc, cluster := swapNat l, bolt := some bolt } s
  (l.flatMap (fun p => [p.1, p.2])).foldl (fun s' c =>
    s'.setCluster c { s'.cluster c with owner := (s.cluster c).owner, throttle := (s.cluster c).throttle,
                                        copyOut := (s.cluster c).copyOut, matrixOut := (s.cluster c).matrixOut }) s1

/-- Whether a cluster's contents can be moved: nothing granted or accepted is still under way there. -/
def movable (s : State) (cl : Nat) : Bool :=
  (s.cluster cl).lq.isEmpty && (s.cluster cl).arrayBusy.isNone && !s.dies.any (fun d => d.2.sorter.queue.any (fun x => decide (clusterOf x.1 = cl)))

/-- Whether an owned cluster that stays and holds no block can take what cluster `a` holds. -/
def canTake (s : State) (bolt : Nat) (from_ : List Nat) (a d : Nat) : Bool :=
  let b := s.bolt bolt
  b.clusters.contains d && !b.departing.contains d && !from_.contains d && !clusterHolds s d && clusterQuiet s d &&
  (!(s.cluster d).copyOut || (s.cluster a).copyOut) && (!(s.cluster d).matrixOut || (s.cluster a).matrixOut) &&
  decide ((liveCores s a).length ≤ (liveCores s d).length) && movable s a

/-- The clusters of a set, with `a` among them, and where each goes when `a` goes to `cluster`, where all of them can move. -/
def moveTo (s : State) (bolt a cluster : Nat) (from_ : List Nat) : Option (List (Nat × Nat)) :=
  (moveMap s a cluster from_).filter (fun l => l.all (fun p => canTake s bolt from_ p.1 p.2))

/-- Blocks moved with their clusters; their threads go on where the bolt is not pressed. -/
def moveBlocks (s : State) (bolt : Nat) (moving : List Nat) (l : List (Nat × Nat)) : State :=
  -- what the streams of the moving threads have fetched is read again (R171)
  let s1 := swapClusters ((threadsOf s bolt (fun t => moving.contains t.block)).foldl dropElements s) bolt l
  let b1 := s1.bolt bolt
  let s2 := s1.setBolt bolt { b1 with pressedBlocks := b1.pressedBlocks.filter (fun k => !moving.contains (blockKey bolt k)) }
  let s3 := if b1.pressed then s2 else resumeThreads s2 bolt (threadsOf s2 bolt (fun t => moving.contains t.block))
  advanceResize s3 bolt

/-- A number of the reserved memory that no saved seam has. (assumption 32, DESIGN CHOICE) -/
def freeReserve (s : State) : Nat :=
  ((List.range (s.clusters.length + 1)).find? (fun j => !s.clusters.any (fun p => decide (p.1 / 2 ^ 21 = j + 1)))).getD s.clusters.length + 1

/-- The blocks of a seam for which the bolt has no clusters at the same relative positions stay saved in reserved memory (R349): their
threads are pressed, and what their clusters hold is kept under numbers that name no cluster. (assumption 43, DEDUCED) -/
def saveSeam (s : State) (bolt : Nat) (moving from_ : List Nat) : State :=
  let s1 := moving.foldl (fun s k => pressBlock s bolt (k % 8192) none) s
  if !from_.all (movable s1) then s1
  else
    let j := freeReserve s1
    let s2 := swapClusters s1 bolt (from_.map (fun c => (c, c + 2 ^ 21 * j)))
    advanceResize (from_.foldl (fun s c => grantCluster s bolt c) s2) bolt

/-- BLOCK_MIGRATE (R349): all the blocks of the block's departing cluster move together to an owned cluster that holds no block, with
a seam that spans further clusters at the same relative mesh positions. Where no clusters can take such a seam, its blocks are saved in
reserved memory, from which the same row restores them when some can. (assumption 43, DEDUCED) -/
def blockMigrate (s : State) (bolt w cluster : Nat) : State :=
  match Map.find s.blocks (blockKey bolt w) with
  | none => s
  | some blk =>
    let b := s.bolt bolt
    let from_ := seamClosure s 256 [blk.cluster]
    let moving := (s.blocks.filter (fun p => from_.contains p.2.cluster)).map (·.1)
    let leaves := inReserve blk.cluster || (b.departing.contains blk.cluster && from_.all b.clusters.contains && moving.all (mayMove s bolt))
    if !leaves then s
    else match moveTo s bolt blk.cluster cluster from_ with
      | some l => moveBlocks s bolt moving l
      | none =>
        if from_ = [blk.cluster] ∨ inReserve blk.cluster ∨ b.clusters.any (fun d => (moveTo s bolt blk.cluster d from_).isSome) then s
        else saveSeam s bolt moving from_

/-- Whether a seam that waits in reserved memory for clusters that can take it now comes before a launch's next block: it has no lower
priority (R349). -/
def seamFirst (s : State) (bolt : Nat) : Bool :=
  match headLaunch s bolt with
  | none => false
  | some (_, l) => s.blocks.any (fun p => decide (p.2.bolt = bolt) && inReserve p.2.cluster &&
      (match Map.find s.launches p.2.launch with | some x => decide (x.prio ≥ l.prio) | none => decide (l.prio = 0)) &&
      (let from_ := seamClosure s 256 [p.2.cluster]
       (s.bolt bolt).clusters.any (fun d => (moveTo s bolt p.2.cluster d from_).isSome)))

/-! ## The rehash (R351, R352) -/

/-- A line of a bolt moves from its old home to its new one with its data, tags, class and pin; the requests held for it go before
those that come later. None where its set at the new home has sixteen pinned ways. A dirty victim's write-back is charged to the bolt, in the
class of reset, since no thread's request causes it (R357). (assumption 91, DESIGN CHOICE) -/
def moveLine (s : State) (bolt line old new : Nat) : Option State :=
  let so := s.slice old
  let mine := fun (e : Staged) => decide (e.bolt = bolt) && decide (e.line = line)
  let s1 := (so.staging.filter (fun e => mine e && decide (e.kind = 1))).foldl (fun s e => dramWriteLine s e.pa e.data.toNat e.tags) s
  let s2 := s1.setSlice old { s1.slice old with staging := so.staging.filter (fun e => !mine e) }
  let arrive := fun (s : State) =>
    let n := s.slice new
    let held := n.heldReqs.filter (fun r => decide (r.bolt = bolt) && decide (r.va / 64 = line))
    s.setSlice new { n with
      record := line :: n.record, fetching := n.fetching.filter (· ≠ line)
      heldReqs := n.heldReqs.filter (fun r => !(decide (r.bolt = bolt) && decide (r.va / 64 = line)))
      chan0 := held.filter (fun r => decide (r.cls = 0)) ++ n.chan0, chan := held.filter (fun r => decide (r.cls ≠ 0)) ++ n.chan }
  match findWay so bolt line with
  | none => some (arrive s2)
  | some (k, l) =>
    match victim (s2.slice new) (line % 1024) with
    | none => none
    | some v =>
      let s3 := match Map.find (s2.slice new).ways v with
        | some x => if x.dirty then chargeBack (dramWriteLine s2 x.pa x.data.toNat x.tags) bolt 1 else s2
        | none => s2
      let s4 := s3.setSlice old { s3.slice old with ways := Map.erase (s3.slice old).ways k }
      let n := s4.slice new
      some (arrive (s4.setSlice new { n with clock := n.clock + 1, ways := Map.set n.ways v { l with used := n.clock + 1 } }))

/-- The bolt that owns a slice. -/
def boltOfSlice (s : State) (h : Nat) : Option Nat := match (s.slice h).owner with | .bolt b => some b | _ => none

/-- SHADOW_FETCH (R351): a shadow home asks the old home for a line that a held request needs. -/
def shadowFetch (s : State) (h line : Nat) : State :=
  let n := s.slice h
  if n.heldReqs.any (fun r => decide (r.va / 64 = line)) ∧ !n.fetching.contains line then s.setSlice h { n with fetching := line :: n.fetching } else s

/-- SHADOW_LINE_ARRIVAL (R351): the old home, having performed every request for the line that was sent to it, sends it; the new home
becomes home of record. What a core sent to the old home before the switch thus stays before what it sends to the new one.
(assumption 43, DEDUCED) -/
def shadowLineArrival (s : State) (h line : Nat) : State :=
  match boltOfSlice s h with
  | none => s
  | some b =>
    let old := homeIn (s.bolt b).oldSlices (line * 64)
    let before := fun (r : Req) => decide (lineOf s r = (b, line)) && decide (r.dest = old)
    if !(s.slice h).fetching.contains line ∨ onTheWay s before then s
    else advanceResize ((moveLine s b line old h).getD s) b

/-- The lines of changed home blocks that an old home still holds. -/
def toSweep (s : State) (b h : Nat) : List Nat :=
  let changed := fun (line : Nat) => decide (homeIn (s.bolt b).slices (line * 64) ≠ h) && decide (recordHome s b (line * 64) = h)
  ((s.slice h).ways.filter (fun p => decide (p.2.bolt = b) && changed p.2.line)).map (·.2.line) ++
  ((s.slice h).staging.filter (fun e => decide (e.bolt = b) && decide (e.kind ≤ 1) && changed e.line)).map (·.line)

/-- A pin that would keep a line at a departing slice is recalled when the sweep reaches it (R352). -/
def sweepRecall (s : State) (h k line : Nat) (l : Line) (p : Pin) : State :=
  if p.recalled ∨ corePressed s l.bolt p.core then s
  else match closePhase (s.core p.core) [(l.bolt, line)] with
    | none => s
    | some c => (s.setSlice h { s.slice h with ways := Map.set (s.slice h).ways k { l with pin := some { p with recalled := true } } }).setCore p.core c

/-- SWEEPER (R351, R352): an old home sends a remaining line of a changed home block to its new home, once what was sent to it for the
line has been performed; when none remains and no request for one is on its way there, its sweep ends. (assumption 43, DEDUCED) -/
def sweeper (s : State) (h line : Nat) : State :=
  match boltOfSlice s h with
  | none => s
  | some b =>
    let bo := s.bolt b
    if !bo.sweeping.contains h then advanceResize s b
    else
      let left := toSweep s b h
      let here := fun (r : Req) => decide (r.bolt = b) && decide (r.dest = h) && decide (regionOf r.va = .ordinary) && decide (homeSlice s b r.va ≠ h)
      if left.isEmpty then
        if onTheWay s here then s
        else
          let s1 := s.setBolt b { bo with sweeping := bo.sweeping.filter (· ≠ h) }
          -- the requests held for lines of this sweep are performed at their new homes
          let s2 := bo.slices.foldl (fun s n =>
            let x := s.slice n
            let mine := fun (r : Req) => decide (r.bolt = b) && decide (homeIn bo.oldSlices r.va = h)
            s.setSlice n { x with
              heldReqs := x.heldReqs.filter (fun r => !mine r), fetching := x.fetching.filter (fun l => decide (homeIn bo.oldSlices (l * 64) ≠ h))
              chan0 := x.heldReqs.filter (fun r => mine r && decide (r.cls = 0)) ++ x.chan0
              chan := x.heldReqs.filter (fun r => mine r && decide (r.cls ≠ 0)) ++ x.chan }) s1
          advanceResize s2 b
      else if !left.contains line ∨ onTheWay s (fun r => decide (lineOf s r = (b, line)) && decide (r.dest = h)) then s
      else match findWay (s.slice h) b line with
        | some (k, l) => match l.pin with
          | some p => if bo.slices.contains h then (moveLine s b line h (homeSlice s b (line * 64))).getD s else sweepRecall s h k line l p
          | none => (moveLine s b line h (homeSlice s b (line * 64))).getD s
        | none => (moveLine s b line h (homeSlice s b (line * 64))).getD s

/-! ## Time-sharing (R358) -/

/-- Whether a thread's slot, or its saved context, is one of a cluster's cores. -/
def ofCluster (cl tid : Nat) : Bool := decide (clusterOf (coreOf tid) = cl)

/-- Whether a packet on the bridge is an answer to a thread of a cluster. -/
def answersCluster (cl : Nat) : Packet → Bool
  | .request _ => false
  | p => ofCluster cl p.tid

/-- What a press has saved of a cluster of a bolt. (assumption 42, DESIGN CHOICE) -/
def parkImage (s : State) (bolt cl : Nat) : Parked :=
  let here := ofCluster cl
  let crossing := s.dies.flatMap (fun d => d.2.bridge.filter (answersCluster cl))
  { bolt := bolt, cluster := cl, image := s.cluster cl
    cores := s.cores.filter (fun x => decide (clusterOf x.1 = cl))
    threads := s.threads.filter (fun x => here x.1)
    blocks := s.blocks.filter (fun x => decide (x.2.cluster = cl))
    completions := s.completions.filter (fun x => here x.tid)
    replies := s.replies.filter (fun x => here x.tid) ++ crossing.filterMap (fun p => match p with | .reply y => some { y with src := bridgeWriter } | _ => none)
    msgs := s.msgs.filter (fun x => here x.src)
    pwords := s.pwords.filter (fun x => decide (clusterOf x.core = cl))
    xwords := s.xwords.filter (fun x => decide (clusterOf x.core = cl))
    storeFaults := s.storeFaults.filter (fun x => here x.tid) ++ crossing.filterMap (fun p => match p with | .fault f => some { f with src := bridgeWriter } | _ => none)
    saved := s.saved.filter here }

/-- What a press saved of a cluster goes to the reserved memory of its bolt, and the cluster keeps nothing of it. (assumption 42, DESIGN CHOICE) -/
def park (s : State) (bolt cl : Nat) : State :=
  let here := ofCluster cl
  scrubCluster { s with
    parked := parkImage s bolt cl :: s.parked
    threads := s.threads.filter (fun x => !here x.1)
    blocks := s.blocks.filter (fun x => decide (x.2.cluster ≠ cl))
    completions := s.completions.filter (fun x => !here x.tid)
    replies := s.replies.filter (fun x => !here x.tid)
    msgs := s.msgs.filter (fun x => !here x.src)
    dies := s.dies.map (fun d => (d.1, { d.2 with bridge := d.2.bridge.filter (fun p => !answersCluster cl p) }))
    saved := s.saved.filter (fun x => !here x)
    storeFaults := s.storeFaults.filter (fun x => !here x.tid) } cl

/-- Two maps joined; the first decides. -/
def Map.join {α : Type} (a b : Map α) : Map α := a.foldl (fun m x => Map.set m x.1 x.2) b

/-- A parked cluster restored to a cluster that its bolt owns again. -/
def unpark (s : State) (p : Parked) : State :=
  let c := s.cluster p.cluster
  let s1 := { s with
    parked := s.parked.erase p
    threads := Map.join p.threads s.threads
    cores := Map.join p.cores s.cores
    blocks := Map.join p.blocks s.blocks
    completions := s.completions ++ p.completions
    replies := s.replies ++ p.replies
    msgs := s.msgs ++ p.msgs
    pwords := s.pwords ++ p.pwords
    xwords := s.xwords ++ p.xwords
    saved := s.saved ++ p.saved
    storeFaults := s.storeFaults ++ p.storeFaults }
  s1.setCluster p.cluster { p.image with owner := c.owner, permt := c.permt, throttle := c.throttle, copyOut := c.copyOut, matrixOut := c.matrixOut }

/-- Whether a pressed bolt's cluster can be saved: nothing granted or accepted is still under way, and no save there failed (R346). -/
def parkable (s : State) (cl : Nat) : Bool :=
  movable s cl && s.threads.all (fun p => decide (clusterOf (coreOf p.1) ≠ cl) || decide (p.2.occ ≠ .resident))

/-- Contexts of evicted threads of a bolt that are saved in some clusters go to its reserved memory (R346). -/
def reserveContexts (s : State) (bolt : Nat) (cls : List Nat) : State :=
  { s with threads := s.threads.map (fun p =>
      if p.2.bolt = bolt ∧ p.2.occ = .evicted ∧ (roomIn cls p.2 ∨ cls.contains (clusterOf (coreOf p.1))) then (p.1, { p.2 with room := none }) else p) }

/-- The lost time of a bolt in ticks (R358). -/
def lostTicks (b : Bolt) : Nat := b.lost / 1504

/-- A slice of a bolt begins: it is longer by the lost time not repaid yet, by its nominal length at most (R358). (assumption 50, DEDUCED) -/
def beginSlice (now n : Nat) (b : Bolt) : Bolt :=
  let more := min n (lostTicks b - b.repaid)
  { b with sliceEnd := now + n + more, repaid := b.repaid + more }

/-- TIMESHARE_SWITCH (R358): at the end of its slice one bolt is pressed; its blocks on the shared clusters stay saved; the clusters are taken
in, scrubbed and let out to the next bolt, whose saved blocks are restored onto them and whose slice begins. (assumption 50, DEDUCED) -/
def timeshareSwitch (s : State) (a b : Nat) (share : TimeShare) : State :=
  let cls := share.clusters
  let s0 := reserveContexts (pressBolt s a none) a cls
  let ok := (s.bolt a).live && (s.bolt b).live && decide (a ≠ b) && distinct cls && cls.all (s.bolt a).clusters.contains && !resizing (s.bolt a) && !resizing (s.bolt b) &&
    decide ((s.bolt a).sliceEnd ≤ s.gtime)
  if !ok then s
  else if !cls.all (parkable s0) then s0
  else
    let s1 := cls.foldl (fun s c => park s a c) s0
    let s2 := clearPermt (s1.setBolt a { s1.bolt a with clusters := (s1.bolt a).clusters.filter (fun c => !cls.contains c) }) cls
    let s3 := cls.foldl (fun s c => grantCluster s b c) s2
    let all := (s3.bolt b).clusters ++ cls
    let s4 := s3.setBolt b (beginSlice s.gtime share.slice { s3.bolt b with clusters := all })
    let s5 := cls.foldl (fun s c => s.setCluster c { s.cluster c with permt := risingSet all }) (setPermt s4 b cls)
    let s6 := (s5.parked.filter (fun p => decide (p.bolt = b) && cls.contains p.cluster)).foldl unpark s5
    boltResume s6 b

/-! ## The end of a bolt, and swatches (R68, R79, R313) -/

/-- The swatch of a claim key (R78). -/
def claimSwatch (k : Nat) : Nat :=
  let u := k % 2 ^ 40
  (match k / 2 ^ 40 with | 0 => u * 2 ^ 16 | 1 => u * 2 ^ 21 | _ => u * 2 ^ 30) / 2 ^ 30

/-- A slice forgets a swatch: its bit of the mask, the translations that lead there, and the lines held for it, which are written back
first, so that nothing reaches the swatch later (R68, R344). (assumption 43, DEDUCED; assumption 91, DESIGN CHOICE) -/
def forgetSwatch (s : State) (h w : Nat) : State :=
  let sl := s.slice h
  let s1 := sl.ways.foldl (fun s p => if p.2.dirty && decide (p.2.pa / 2 ^ 30 = w) then chargeBack (dramWriteLine s p.2.pa p.2.data.toNat p.2.tags) p.2.bolt 1 else s) s
  let s2 := sl.staging.foldl (fun s e => if decide (e.kind = 1) && decide (e.pa / 2 ^ 30 = w) then dramWriteLine s e.pa e.data.toNat e.tags else s) s1
  s2.setSlice h { s2.slice h with
    swmask := sl.swmask.filter (· ≠ w)
    xlat := sl.xlat.filter (fun x => decide (bits x.leaf.toNat 47 30 ≠ w))
    ways := sl.ways.filter (fun p => decide (p.2.pa / 2 ^ 30 ≠ w))
    staging := sl.staging.filter (fun e => decide (e.pa / 2 ^ 30 ≠ w)) }

/-- A swatch taken from a bolt: every slice forgets it, and its claims there are cleared (R68, R79). -/
def dropSwatch (s : State) (bolt w : Nat) : State :=
  let b := s.bolt bolt
  let s1 := s.setBolt bolt { b with swatches := b.swatches.filter (· ≠ w) }
  let s2 := (risingSet (b.slices ++ b.oldSlices)).foldl (fun s h => forgetSwatch s h w) s1
  { s2 with claims := s2.claims.filter (fun p => !(decide (p.2.2 = bolt) && decide (claimSwatch p.1 = w))) }

/-- SWATCH_ADD (R68): a free swatch becomes the bolt's. -/
def swatchAdd (s : State) (bolt w : Nat) : State :=
  let b := s.bolt bolt
  if !b.live ∨ w ≥ Config.swatches ∨ s.bolts.any (fun p => p.2.live && p.2.swatches.contains w) then s
  else
    let s1 := s.setBolt bolt { b with swatches := risingSet (w :: b.swatches) }
    (risingSet (b.slices ++ b.oldSlices)).foldl (fun s h => s.setSlice h { s.slice h with swmask := risingSet (w :: (s.slice h).swmask) }) s1

/-- BOLT_END (R313): the bolt's threads, blocks, launches, packets and saved images end; its clusters and slices enter quarantine, its
swatches and claims are free. (assumption 47, DEDUCED) -/
def boltEnd (s : State) (bolt : Nat) : State :=
  let b := s.bolt bolt
  if !b.live then s
  else
    let mine := fun (tid : Nat) => decide ((s.thread tid).bolt = bolt)
    let (s1, _) := sweepPackets s (fun r => decide (r.bolt = bolt))
    let s2 := { s1 with
      threads := s1.threads.filter (fun p => decide (p.2.bolt ≠ bolt))
      sysBolt := s1.sysBolt.filter (fun p => decide (p.2 ≠ bolt))
      clusters := s1.clusters.filter (fun p => !(inReserve p.1 && s1.blocks.any (fun x => decide (x.2.bolt = bolt) && decide (x.2.cluster = p.1))))
      blocks := s1.blocks.filter (fun p => decide (p.2.bolt ≠ bolt))
      launches := s1.launches.filter (fun p => decide (p.2.bolt ≠ bolt))
      completions := s1.completions.filter (fun x => !mine x.tid)
      replies := s1.replies.filter (fun x => !mine x.tid)
      msgs := s1.msgs.filter (fun x => !mine x.src)
      storeFaults := s1.storeFaults.filter (fun x => !mine x.tid)
      saved := s1.saved.filter (fun x => !mine x)
      xwords := s1.xwords.filter (fun x => decide (x.bolt ≠ bolt))
      parked := s1.parked.filter (fun p => decide (p.bolt ≠ bolt))
      claims := s1.claims.filter (fun p => decide (p.2.2 ≠ bolt))
      -- what it exported is recalled: an importer's acknowledgement, or the bound, is still to come (R83)
      grants := s1.grants.map (fun p => (p.1, if p.2.bolt = bolt ∧ p.2.state = 0 then { p.2 with state := 1, tick := s1.gtime } else p.2))
      dies := s1.dies.map (fun d => (d.1, { d.2 with sorter := { d.2.sorter with queue := d.2.sorter.queue.filter (fun x => decide (x.2.bolt ≠ bolt)) } })) }
    let s3 := b.clusters.foldl (fun s c =>
      (scrubCores s c).setCluster c { (s.cluster c) with owner := .quarantine, lq := [], cq := [], gq := [], ni := [], rated := [], win := [], arrayBusy := none }) s2
    let s4 := (risingSet (b.slices ++ b.oldSlices)).foldl (fun s h => s.setSlice h { s.slice h with owner := .quarantine, refused := [], heldReqs := [], staging := [] }) s3
    { clearPermt s4 b.clusters with bolts := Map.erase s4.bolts bolt }

/-! ## Event rows -/

/-- Bolt numbers. -/
def isBolt (b : Nat) : Bool := decide (0 < b)

/-- PRESS (R346). -/
def execPress (bolt : Nat) (what : PressOf) (s : State) : Step := withUnit (isBolt bolt) (press s bolt what.block what.fail)
/-- BLOCK_PLACEMENT (R292, R349). -/
def execBlockPlacement (bolt : Nat) (s : State) : Step := .next (if seamFirst s bolt then s else blockPlacement s bolt)
/-- BOLT_RESUME (R346). -/
def execBoltResume (bolt : Nat) (s : State) : Step := withUnit (isBolt bolt) (boltResume s bolt)
/-- TAKE_IN (R349). -/
def execTakeIn (bolt : Nat) (clusters slices : List Nat) (s : State) : Step := withUnit (isBolt bolt) (takeIn s bolt clusters slices)
/-- LET_OUT (R349). -/
def execLetOut (bolt : Nat) (clusters slices : List Nat) (s : State) : Step := withUnit (isBolt bolt) (letOut s bolt clusters slices)
/-- BLOCK_MIGRATE (R349). -/
def execBlockMigrate (bolt block cluster : Nat) (s : State) : Step :=
  withUnit (isBolt bolt && decide (cluster < Config.clusters)) (blockMigrate s bolt block cluster)
/-- SHADOW_FETCH (R351). -/
def execShadowFetch (slice line : Nat) (s : State) : Step := withUnit (decide (slice < Config.slices)) (shadowFetch s slice line)
/-- SHADOW_LINE_ARRIVAL (R351). -/
def execShadowLineArrival (slice line : Nat) (s : State) : Step := withUnit (decide (slice < Config.slices)) (shadowLineArrival s slice line)
/-- SWEEPER (R351). -/
def execSweeper (slice line : Nat) (s : State) : Step := withUnit (decide (slice < Config.slices)) (sweeper s slice line)
/-- SCRUB (R353). -/
def execScrub (cluster slice : Option Nat) (s : State) : Step :=
  withUnit (cluster.all (fun c => decide (c < Config.clusters)) && slice.all (fun h => decide (h < Config.slices))) (scrub s cluster slice)
/-- TIMESHARE_SWITCH (R358). -/
def execTimeshareSwitch (from_ to_ : Nat) (share : TimeShare) (s : State) : Step :=
  withUnit (isBolt from_ && isBolt to_) (timeshareSwitch s from_ to_ share)
/-- BOLT_END (R313). -/
def execBoltEnd (bolt : Nat) (s : State) : Step := withUnit (isBolt bolt) (boltEnd s bolt)
/-- SWATCH_ADD (R68). -/
def execSwatchAdd (bolt swatch : Nat) (s : State) : Step := withUnit (isBolt bolt) (swatchAdd s bolt swatch)

end Sys2Proof.Machine
end

