-- ==== Sys2Proof/Machine/Service.lean ====
section
/-!
DEFINITION. What system software and the exporter do for a bolt: the replies of HCALL (R337, R348, R350, R374), triggers and the debug
stop (R362, R364), the watchdog (R359), throttling (R358), errors of memory and of slice tags (R130, R360), exported grants (R82, R83);
and the event rows HCALL_REPLY, TRIGGER_MATCH, DEBUG_STOP, WATCHDOG, THROTTLE_CHANGE, LOCAL_ECC_ERROR, SLICE_TAG_PARITY_ERROR,
FABRIC_EXPORT_REQUEST, GRANT_RECALL, RECALL_ACK and RECALL_TIMEOUT.
-/
namespace Sys2Proof.Machine

/-! ## Replies of HCALL -/

/-- What a function answers: the state after its effect, the code in g4, other registers it writes; or, while it is not done, what it asks
for next. -/
abbrev HResult := Except (Option Ask) (State × W64 × List (Nat × W64))

/-- Rolnis, or a system image, as the requester of an access to the bolt's memory for a thread: an agent of the thread's die that is no core
of the mesh. (assumption 46, DEDUCED; assumption 65, DESIGN CHOICE) -/
def systemWho (s : State) (tid : Nat) : Who :=
  { threadWho s tid 0 with core := dieAgent (dieOf (coreOf tid)), requester := otherRequester, mode := true }

/-- Counts of a bolt's clusters and slices, as resize returns them. -/
def boltCounts (b : Bolt) : List (Nat × W64) := [(5, BitVec.ofNat 64 b.clusters.length), (6, BitVec.ofNat 64 b.slices.length)]

/-- Whether Rolnis may refuse a resize: too few free clusters or slices; or, whichever clusters leave, no empty cluster for a block that must
migrate: fewer of the bolt's clusters are empty than leave (R348). -/
def mayRefuse (s : State) (b : Bolt) (c h : Nat) : Bool :=
  let free := ((List.range Config.clusters).filter (fun k => decide ((s.cluster k).owner = .free))).length
  let freeH := ((List.range Config.slices).filter (fun k => decide ((s.slice k).owner = .free))).length
  decide (b.clusters.length + free < c) || decide (b.slices.length + freeH < h) ||
  decide ((b.clusters.filter (fun k => !clusterHolds s k)).length < b.clusters.length - c)

/-- HCALL 0x200 (R348): done when the bolt has the counts asked for and is being resized no more; refused with nothing changed. (assumption 46, DEDUCED) -/
def replyResize (s : State) (t : Thread) (g4 : W64) : HResult :=
  let b := s.bolt t.bolt
  let c := (t.reg 5).nat
  let h := (t.reg 6).nat
  let d := (t.reg 7).nat
  if c < 1 ∨ c > 256 ∨ h < 1 ∨ h > 128 ∨ d < 10000 ∨ d > 2 ^ 32 - 1 then .ok (s, 2, boltCounts b)
  else if g4 = 0 ∧ b.clusters.length = c ∧ b.slices.length = h ∧ !resizing b then .ok (s, 0, boltCounts b)
  else if g4 = 4 ∧ !resizing b ∧ mayRefuse s b c h then .ok (s, 4, boltCounts b)
  else .error none

/-- HCALL 0x201 (R348): a swatch goes back to Rolnis. (assumption 46, DEDUCED) -/
def replySwatch (s : State) (t : Thread) : HResult :=
  let w := (t.reg 5).nat
  if (s.bolt t.bolt).swatches.contains w then .ok (dropSwatch s t.bolt w, 0, []) else .ok (s, 2, [])

/-- A tagged capability with SYS (R337). -/
def hasSys (v : Val) : Bool := v.tag && bitAt (capPerm v) permSYS

/-- A range under a capability, with its permission, in the window of the thread or in global memory; the bytes, or none where it may not
be read. -/
def readUnder (s : State) (tid : Nat) (v : Val) (n : Nat) : Except (Option Ask) (State × Option (List (BitVec 8))) :=
  if !bitAt (capPerm v) permR ∨ (boundFault v v.nat n).isSome ∨ capDam v then .ok (s, none)
  else if capLoc v then
    let (lb, ws, _) := windowOf s tid
    .ok (s, if v.nat + n > ws then none else some (Memory.readN (s.cluster (clusterOf (coreOf tid))).mem.cells (lb + v.nat) n))
  else (pull s (hcallKey tid) 0 (systemWho s tid) tid v.nat n none false).map
    (fun x => (x.1, if x.2.fault.isSome then none else some x.2.data_))

/-- Bytes of a bit set, bit k for number k. -/
def setBytes (n : Nat) (l : List Nat) : List (BitVec 8) := natToBytes n ((risingSet l).map (2 ^ ·)).sum

/-- Bytes 0 to 359 of the attestation report of a thread's bolt, as it was at the tick of the call (R374). (assumption 46, DEDUCED) -/
def reportHead (s : State) (t : Thread) (nonce : List (BitVec 8)) : List (BitVec 8) :=
  natToBytes 4 1 ++ natToBytes 4 4987 ++ nonce ++ natToBytes 8 t.asked.1 ++ natToBytes 64 Config.identityDigest.toNat ++
  natToBytes 64 (Config.digest s.hypervisor).toNat ++ natToBytes 64 (Config.digest (s.bolt t.bolt).image).toNat ++ natToBytes 4 t.bolt ++
  natToBytes 4 0 ++ setBytes 32 t.asked.2.1 ++ setBytes 48 t.asked.2.2

/-- HCALL 0x202 (R374): the report is written under g5, the nonce read under g6. (assumption 46, DEDUCED) -/
def replyAttest (s : State) (tid : Nat) (t : Thread) : HResult :=
  let v := t.reg 5
  let n := t.reg 6
  if !hasSys v ∨ !hasSys n then .ok (s, 3, [])
  else if !bitAt (capPerm v) permW ∨ (boundFault v v.nat 4987).isSome ∨ capDam v then .ok (s, 2, [])
  else match readUnder s tid n 64 with
    | .error a => .error a
    | .ok (s1, none) => .ok (s1, 2, [])
    | .ok (s1, some nonce) =>
      let head := reportHead s t nonce
      let bs := head ++ (List.range 4627).map (Config.signature head)
      if capLoc v then
        let (lb, ws, _) := windowOf s tid
        if v.nat + 4987 > ws then .ok (s1, 2, []) else .ok (writeLocal s1 (clusterOf (coreOf tid)) (lb + v.nat) bs, 0, [])
      else (pull s1 (hcallKey tid) 0 (systemWho s tid) tid v.nat bs.length (some bs) false).map
        (fun x => (x.1, if x.2.fault.isSome then 2 else 0, []))

/-- HCALL 0x203 (R350): the bolt's Damask template is what stands under g5. (assumption 46, DEDUCED) -/
def replyTemplate (s : State) (tid : Nat) (t : Thread) : HResult :=
  let v := t.reg 5
  let n := (t.reg 6).nat
  if !hasSys v then .ok (s, 3, [])
  else if n > Config.damaskBytes ∨ capLoc v then .ok (s, 2, [])
  else match readUnder s tid v n with
    | .error a => .error a
    | .ok (s, none) => .ok (s, 2, [])
    | .ok (s, some bs) => .ok (s.setBolt t.bolt { s.bolt t.bolt with template := some (Memory.writeN [] 0 bs, n) }, 0, [])

/-- The answer of a function (R337): the system image's below 0x200, Rolnis's from there on. (assumption 46, DEDUCED) -/
def replyOf (s : State) (tid : Nat) (fn : BitVec 10) (g4 : W64) (regs : List (Nat × W64)) (mem : List Host.Cell) : HResult :=
  let t := s.thread tid
  match fn.toNat with
  | 0x200 => replyResize s t g4
  | 0x201 => replySwatch s t
  | 0x202 => replyAttest s tid t
  | 0x203 => replyTemplate s tid t
  | n =>
    if n ≥ 0x200 then .ok (s, 1, [])
    else (mem.foldlM (fun s c => (pull s (hcallKey tid) 0 (systemWho s tid) tid c.1 1 (some [c.2]) false).map (·.1)) s).map (fun s => (s, g4, regs))

/-- HCALL_REPLY (R337): the reply ends the wait, also of a thread that a press has saved. System software's accesses go to their homes as any
other's, and a press of the bolt holds them there (R92, R282, R347); the reply comes once they are made. (assumption 46, DEDUCED) -/
def hcallReply (s : State) (tid : Nat) (g4 : W64) (regs : List (Nat × W64)) (mem : List Host.Cell) : State :=
  match (s.thread tid).wait with
  | .hcall fn =>
    match replyOf s tid fn g4 regs mem with
    | .error a => askFor s a
    | .ok (s1, code, rs) =>
      let s1 := endPulls s1 (s.thread tid).bolt (hcallKey tid)
      let t := rs.foldl (fun (t : Thread) r => t.setReg (BitVec.ofNat 6 r.1) (Val.ofW r.2)) ((s1.thread tid).setReg 4 (Val.ofW code))
      memberPast (setWait (s1.setThread tid t) tid .none) tid true
  | _ => s

/-! ## Triggers, debug stop, watchdog, throttling -/

/-- TRIGGER_MATCH (R362): every armed trigger that matches acts; freeze prevails over stop, stop over start; a start, also of a ring that
records already, writes its records.
(assumption 45, DEDUCED; assumption 56, DESIGN CHOICE) -/
def triggerMatch (s : State) (bolt : Nat) (kind : BitVec 3) (value : BitVec 32) : State :=
  let b := s.bolt bolt
  let hits := ((List.range 4).map (fun j => Map.get b.trig j 0#64)).filter (fun w =>
    w.getLsbD 63 && decide (bits w.toNat 60 58 = kind.toNat) && decide (kind.toNat ≤ 3) && (decide (kind = 3) || decide (bits w.toNat 31 0 = value.toNat)))
  let act := fun (a : Nat) => hits.any (fun w => decide (bits w.toNat 62 61 = a))
  if !b.live ∨ hits.isEmpty then s
  else
    let frz := b.trctl.getLsbD 62 || act 2
    let off := frz || act 1
    setTrctl s bolt (!off && (b.trctl.getLsbD 63 || act 0)) frz (b.trctl.getLsbD 61 || act 3) (!off && act 0)

/-- DEBUG_STOP (R364): at the exchange boundary that STOPREQ waited for, the bolt is pressed, STOPPED is set and each ring receives a
STOP record. -/
def debugStop (s : State) (bolt : Nat) : State :=
  let b := s.bolt bolt
  if !b.live ∨ !b.stopDue ∨ !b.trctl.getLsbD 61 ∨ b.pressed then s
  else
    let s1 := pressBolt s bolt none
    let s2 := s1.setBolt bolt { s1.bolt bolt with stopDue := false, trctl := b.trctl ||| 0x1000000000000000#64 }
    traceBolt s2 bolt 4 []

/-- EXCHANGE_ENTER and EXCHANGE_END (R302, R305): the exchange boundary, and at its tick the debug stop that waited for it (R364). -/
def execExchangeEnter (bolt group : Nat) (s : State) : Step := .next (debugStop (exchangeEnter s bolt group) bolt)
def execExchangeEnd (bolt : Nat) (s : State) : Step := .next (debugStop (exchangeEnd s bolt) bolt)

/-- WATCHDOG (R359): the counter has reached its limit, once since it was last reset: FIRED, a report, and the bolt is pressed. -/
def watchdog (s : State) (bolt : Nat) : State :=
  let b := s.bolt bolt
  if !b.live ∨ !b.wdog.getLsbD 63 ∨ b.wfired ∨ b.wcount < bits b.wdog.toNat 31 0 * 1024 * 100 then s
  else
    let s1 := report (s.setBolt bolt { b with wdog := b.wdog ||| (1#64 <<< 62), wfired := true }) { cause := .watchdog, tval := BitVec.ofNat 64 bolt }
    pressBolt s1 bolt none

/-- The clock, in sixteenths, that a power limit leaves a region at most (R379). (assumption 95, DESIGN CHOICE) -/
def powerCap (s : State) (cl : Nat) : Nat := if s.powerLimit < 2400 then 8 + Config.powerClock s.powerLimit cl % 9 else 16

/-- THROTTLE_CHANGE (R358): a region's clock becomes k sixteenths, k from 8 to 16, or what the power limit leaves it (R379).
(assumption 50, DEDUCED) -/
def throttleChange (s : State) (cl k : Nat) : State :=
  if 8 ≤ k ∧ k ≤ 16 then s.setCluster cl { s.cluster cl with throttle := min k (powerCap s cl) } else s

/-! ## Errors (R130, R342, R343, R360) -/

/-- The bolts whose slice list, or old list during a rehash, names a slice: each is stopped; Rolnis is told where there is none (R343,
R353, R360). (assumption 44, DEDUCED) -/
def sliceCheck (s : State) (h : Nat) (tval : W64) : State :=
  match s.bolts.filter (fun p => p.2.live && (p.2.slices ++ p.2.oldSlices).contains h) with
  | [] => report s { cause := .machinecheck, tval := tval }
  | l => l.foldl (fun s p => machineCheck s p.1 tval) s

/-- The bolt that owns a cluster is stopped; Rolnis is told where there is none (R130, R343, R353). (assumption 44, DEDUCED) -/
def clusterCheck (s : State) (cl : Nat) (tval : W64) : State :=
  match (s.cluster cl).owner with
  | .bolt b => machineCheck s b tval
  | _ => report s { cause := .machinecheck, tval := tval }

/-- The bolt of a thread is stopped (R343). (assumption 44, DEDUCED) -/
def threadCheck (s : State) (tid : Nat) (tval : W64) : State :=
  let b := (s.thread tid).bolt
  if (s.bolt b).live then machineCheck s b tval else report s { cause := .machinecheck, tid := tid, tval := tval }

/-- The bolt of the packet on its way that has a number: an answer, a store fault, a request to a slice or a window. (assumption 44, DEDUCED) -/
def packetBolt (s : State) (n : Nat) : Option Nat :=
  let crossing := s.dies.flatMap (·.2.bridge)
  let ofReply := fun (y : Reply) => match y.agent with | some a => a.bolt | none => (s.thread y.tid).bolt
  let requests := s.clusters.flatMap (fun p => p.2.ni ++ p.2.win) ++ s.slices.flatMap (fun p => p.2.chan0 ++ p.2.chan) ++
    crossing.filterMap (fun p => match p with | .request r => some r | _ => none)
  match (s.replies ++ crossing.filterMap (fun p => match p with | .reply y => some y | _ => none)).find? (fun y => decide (y.no = n)) with
  | some y => some (ofReply y)
  | none =>
    match (s.storeFaults ++ crossing.filterMap (fun p => match p with | .fault f => some f | _ => none)).find? (fun f => decide (f.no = n)) with
    | some f => some (s.thread f.tid).bolt
    | none => (requests.find? (fun r => decide (r.no = n))).map (·.bolt)

/-- A packet whose CRC fails, on its way from or to a slice or local memory, is sent again by its writer and stays the next that its writer
sends; its failures are counted, and the third of one packet stops the bolt it is of, or is only reported (R342).
(assumption 44, DEDUCED) -/
def packetError (s : State) (n : Nat) : State :=
  match packetBolt s n with
  | none => s
  | some b =>
    let k := Map.get s.crcFails n 0 + 1
    let s1 := { s with crcFails := Map.set s.crcFails n k }
    if k ≠ 3 then s1
    else if (s.bolt b).live then machineCheck s1 b (BitVec.ofNat 64 n)
    else report s1 { cause := .machinecheck, tval := BitVec.ofNat 64 n }

/-- A line whose DRAM data cannot be corrected is not installed: the slice keeps no clean copy of it and no fill (R342). (assumption 44, DEDUCED) -/
def dropFill (s : State) (h line : Nat) : State :=
  let sl := s.slice h
  s.setSlice h { sl with ways := sl.ways.filter (fun p => !(decide (p.2.line = line) && !p.2.dirty))
                         staging := sl.staging.filter (fun e => !(decide (e.line = line) && decide (e.kind ≠ 1))) }

/-- LOCAL_ECC_ERROR (R130, R237, R342, R343): a corrected error of local memory is counted in the cores of the cluster, one of DRAM at the slice; what a check finds
beyond repair stops the bolts that owned what failed, or is only reported. (assumption 44, DEDUCED) -/
def localEccError (s : State) (e : EccError) (a : Nat) (fatal : Bool) : State :=
  match e with
  | .cluster cl => if fatal then clusterCheck s cl (BitVec.ofNat 64 a) else (liveCores s cl).foldl (fun s k => s.setCore k ((s.core k).count 10 0 1)) s
  | .register | .restored => if fatal then threadCheck s a (BitVec.ofNat 64 a) else s
  | .dram h => if fatal then sliceCheck (dropFill s h a) h (BitVec.ofNat 64 h) else s.setSlice h { s.slice h with corrected := (s.slice h).corrected + 1 }
  | .packet => packetError s a

/-- SLICE_TAG_PARITY_ERROR (R360): the set is invalidated and its dirty data lost; every bolt that names the slice is stopped. (assumption 44, DEDUCED) -/
def sliceTagParityError (s : State) (h set : Nat) : State :=
  let sl := s.slice h
  sliceCheck (s.setSlice h { sl with ways := sl.ways.filter (fun p => decide (p.1 / 16 ≠ set)) }) h (BitVec.ofNat 64 h)

/-! ## Exported grants (R82, R83) -/

/-- The number of the thread that stands for a peer module. (assumption 65, DESIGN CHOICE) -/
def peerTid : Nat := 2 ^ 39

/-- What a peer module asks for, as the home's operation: 0 a load, 1 a store, from 16 an ATOM by its operation, from 32 a RED.
(assumption 47, DEDUCED; assumption 93, DESIGN CHOICE) -/
def peerOp (op n : Nat) (data : BitVec 512) (cmp : BitVec 128) (off : Nat) : ReqOp :=
  if op = 0 then .load false
  else if op = 1 then .store (data >>> (8 * off)) false
  else .atom (op % 16) (8 * n) (data.setWidth 128) cmp (decide (op < 32))

/-- A request of a peer module refused with REASON 6 of PAGE, as the importer reports it (R82, R83). (assumption 47, DEDUCED) -/
def refusePeer (s : State) (off : Nat) : State :=
  { s with peerReplies := s.peerReplies ++ [{ tid := peerTid, acc := s.accs, off := off, bytes := [], fault := some (.page, pageTval 0 6 off) }], accs := s.accs + 1 }

/-- FABRIC_EXPORT_REQUEST (R82, R83, R105, R347): a request of the peer module `peer` for bytes of a grant. One of a grant that is recalled,
retired or over is refused, and counted; one beyond the grant is refused; else its line parts enter the channels of their own homes,
which translate, hold, refuse with RETRY or perform them as any other's, and answer it. (assumption 47, DEDUCED) -/
def fabricExportRequest (s : State) (peer grant off n op : Nat) (data : BitVec 512) (cmp : BitVec 128) : State :=
  match Map.find s.grants grant with
  | none => refusePeer s off
  | some g =>
    let a := g.base + off
    if g.state ≠ 0 then refusePeer { s with grants := Map.set s.grants grant { g with refusals := g.refusals + 1 } } off
    else if n = 0 ∨ n > 64 ∨ off + n > g.len ∨ regionOf a ≠ .ordinary ∨ regionOf (a + n - 1) ≠ .ordinary then refusePeer s off
    else
      let s1 := (lineParts a n).foldl (fun s p =>
        let h := homeSlice s g.bolt p.1
        arriveAt s h { tid := peerTid, bolt := g.bolt, cls := 1, phase := 0, va := p.1, n := p.2, off := p.1 - a, pol := 0, op := peerOp op p.2 data cmp (p.1 - a)
                       mode := false, dest := h, acc := s.accs, no := s.pkts, core := firstPeer + peer }) s
      { s1 with accs := s1.accs + 1 }

/-- GRANT_RECALL (R83). (assumption 47, DEDUCED) -/
def grantRecall (s : State) (grant : Nat) : State :=
  match Map.find s.grants grant with
  | some g => if g.state = 0 then { s with grants := Map.set s.grants grant { g with state := 1, tick := s.gtime } } else s
  | none => s

/-- A grant identifier retired for want of an acknowledgement, and its kernel told (R83). -/
def retireGrant (s : State) (grant : Nat) (g : Grant) : State :=
  { s with grants := Map.set s.grants grant { g with state := 2 }, recallsTold := s.recallsTold ++ [(g.bolt, grant)] }

/-- RECALL_ACK (R83): the importer unbinds the slot once every access it accepted for it is over; bolt 0 stands for a peer that
acknowledges this module's grant `slot`, whose range may then be used again; an acknowledgement after the bound comes too late.
(assumption 47, DEDUCED) -/
def recallAck (s : State) (bolt slot : Nat) : State :=
  if bolt = 0 then
    match Map.find s.grants slot with
    | some g =>
      if g.state ≠ 1 then s
      else if s.gtime > g.tick + 100000 then retireGrant s slot g
      else { s with grants := Map.set s.grants slot { g with state := 3 } }
    | none => s
  else
    let b := s.bolt bolt
    if onTheWay s (fun r => decide (r.bolt = bolt) && decide (regionOf r.va = .fabric) && decide (bits r.va 47 40 = slot)) then s
    else match Map.find b.imports slot with
      | some i => s.setBolt bolt { b with imports := Map.set b.imports slot { i with bound := false } }
      | none => s

/-- RECALL_TIMEOUT (R83): 100,000 ticks without an acknowledgement retire the grant identifier. (assumption 47, DEDUCED) -/
def recallTimeout (s : State) (grant : Nat) : State :=
  match Map.find s.grants grant with
  | some g => if g.state = 1 ∧ s.gtime ≥ g.tick + 100000 then retireGrant s grant g else s
  | none => s

/-- What the kernels do with a grant that a flit carries (R82): the exporter makes it, of an identifier that is in no use and was never
retired; the importer binds it to a free slot. (assumption 47, DEDUCED) -/
def grantAct (s : State) (a : GrantAct) : State :=
  match a with
  | .none => s
  | .make grant bolt base len =>
    let free : Bool := match Map.find s.grants grant with | some g => decide (g.state = 3) | none => true
    if (s.bolt bolt).live ∧ free then { s with grants := Map.set s.grants grant { bolt := bolt, base := base, len := len } } else s
  | .bind bolt slot peer grant len rd w at_ =>
    let b := s.bolt bolt
    if b.live ∧ slot < 256 ∧ !(Map.get b.imports slot {}).bound then
      s.setBolt bolt { b with imports := Map.set b.imports slot { bound := true, peer := peer, grant := grant, len := len, rd := rd, w := w, at_ := at_ } }
    else s

/-! ## Event rows -/

/-- HCALL_REPLY (R337). -/
def execHcallReply (tid : Nat) (g4 : W64) (regs : List (Nat × W64)) (mem : List Host.Cell) (s : State) : Step :=
  withUnit (hasThread tid) (hcallReply s tid g4 regs mem)
/-- TRIGGER_MATCH (R362). -/
def execTriggerMatch (bolt : Nat) (kind : BitVec 3) (value : BitVec 32) (s : State) : Step := withUnit (isBolt bolt) (triggerMatch s bolt kind value)
/-- DEBUG_STOP (R364). -/
def execDebugStop (bolt : Nat) (s : State) : Step := withUnit (isBolt bolt) (debugStop s bolt)
/-- WATCHDOG (R359). -/
def execWatchdog (bolt : Nat) (s : State) : Step := withUnit (isBolt bolt) (watchdog s bolt)
/-- THROTTLE_CHANGE (R358). -/
def execThrottleChange (cluster k : Nat) (s : State) : Step := withUnit (decide (cluster < Config.clusters)) (throttleChange s cluster k)
/-- Whether the units an error names are there (R2). -/
def errorUnits (e : EccError) (a : Nat) : Bool :=
  match e with
  | .cluster cl => decide (cl < Config.clusters) && decide (a < Config.localBytes)
  | .register | .restored => hasThread a
  | .dram h => decide (h < Config.slices)
  | .packet => true

/-- LOCAL_ECC_ERROR (R130, R342). -/
def execLocalEccError (what : EccError) (a : Nat) (fatal : Bool) (s : State) : Step := withUnit (errorUnits what a) (localEccError s what a fatal)
/-- SLICE_TAG_PARITY_ERROR (R360). -/
def execSliceTagParityError (slice set : Nat) (s : State) : Step :=
  withUnit (decide (slice < Config.slices) && decide (set < 1024)) (sliceTagParityError s slice set)
/-- FABRIC_EXPORT_REQUEST (R82). -/
def execFabricExportRequest (from_ : PeerGrant) (off n op : Nat) (data : PeerData) (s : State) : Step :=
  .next (fabricExportRequest s from_.peer from_.grant off n op data.data data.cmp)
/-- GRANT_RECALL (R83). -/
def execGrantRecall (grant : Nat) (s : State) : Step := .next (grantRecall s grant)
/-- RECALL_ACK (R83). -/
def execRecallAck (bolt slot : Nat) (s : State) : Step := .next (recallAck s bolt slot)
/-- RECALL_TIMEOUT (R83). -/
def execRecallTimeout (grant : Nat) (s : State) : Step := .next (recallTimeout s grant)

end Sys2Proof.Machine
end

