-- ==== Sys2Proof/Machine/Boot.lean ====
section
/-!
DEFINITION. Boot (R372, R373) and the routers in the boot state (R381 to R385); the fabric links (R375 to R377), checkpoints (R378)
and the power limit (R379); and the event rows MODULE_RESET, RECOVERY_NEW_IMAGE, SELF_TEST_RELEASE, BOLT_CREATE, PROBE, REPLY,
IMAGE_HEADER, IMAGE_DATA, ACK, ACK_HOLDER_PUSH, DISCARDED_WORD, MEMORY_REQUEST_FLIT, MEMORY_REPLY_FLIT, GRANT_OR_RECALL_FLIT,
CHECKPOINT_DATA_FLIT, RESEND_REQUEST, DISCARDED_FLIT, TIME_SYNC, FABRIC_JOIN, CHECKPOINT and POWER_LIMIT_SET.
-/
namespace Sys2Proof.Machine

/-! ## Reset, recovery, self-test, bolts (R372, R373, R381) -/

/-- The 16 system cores (R2, R371). (assumption 78, DESIGN CHOICE) -/
def systemCores : List Nat := (List.range 8).map (2048 + ·) ++ (List.range 8).map (3072 + ·)

/-- A supervisor thread of Rolnis's or of a bolt's system image, as it starts. (assumption 78, DESIGN CHOICE) -/
def systemThread (bolt : Nat) (entry : Val) : Thread :=
  { occ := .resident, bolt := bolt, mode := true, pc := entry.lo, ecap := entry, allot := 64 }

/-- A verification that failed: the module is in recovery, and reports the stage and the digest (R373). (assumption 48, DESIGN CHOICE) -/
def recovery (s : State) (stage : Stage) (image : List (BitVec 8)) : State :=
  let d := Config.digest image
  { s with boot := .recovery, bootFailed := some stage, bootDigest := some d, bootReports := s.bootReports ++ [(stage, d)] }

/-- The launch record of the discovery image, which stands at its beginning; what follows is the local image (R381).
(assumption 48, DESIGN CHOICE) -/
def discoveryRecord (s : State) : LRec := recordOf (bytesToNat (s.discovery.take 64)) true

/-- Rolnis's launch of the discovery image on a die (R381): one block of one thread on slot 0 of core (0, 0), its window at local address 0,
its token a register of Rolnis's thread on the die; the core's cluster may reach that of core (0, 1). (assumption 48, DESIGN CHOICE) -/
def launchDiscovery (s : State) (d : Nat) : State :=
  let r := discoveryRecord s
  let cl := 128 * d
  let tid := 8192 + 4096 * d
  let seq : SeqNo := { num := 0, id := s.accs }
  let l : Launch :=
    { bolt := 0, tid := tid, tok := 8, seq := seq, recVa := 0, entry := r.entry, presets := r.presets, blocks := 1, threads := 1, ws := r.ws, allot := r.allot
      place := r.place, prio := r.prio, img := none, groups := [], g3 := {}, qclass := 1 }
  let t := s.thread tid
  let s1 := { s with accs := s.accs + 1 }.setThread tid { t with pending := t.pending ++ [8], cmds := t.cmds ++ [(seq, 8, 0)] }
  let s2 := (s1.setCluster cl { s1.cluster cl with permt := [cl + 4] }).setCore (firstCore cl) { s1.core (firstCore cl) with live := true }
  joinGroup (placeBlock s2 (freshLaunch s2) l 0 cl 0 [firstCore cl * 4] ((s.discovery.drop 64).take r.ws)) 0 0 1

/-- Step 4 of the boot (R372): the discovery image is verified and started on each die. (assumption 48, DESIGN CHOICE) -/
def startDiscovery (s : State) : State :=
  if Config.verifies s.discovery then
    (List.range Config.dies).foldl launchDiscovery { s with boot := .discovery, bootFailed := none, bootDigest := some (Config.digest s.discovery) }
  else recovery s .discovery s.discovery

/-- Steps 2 to 4 of the boot (R372): the hypervisor image is verified and Rolnis starts on the system cores. (assumption 48, DESIGN CHOICE) -/
def startRolnis (s : State) (image : List (BitVec 8)) : State :=
  if Config.verifies image then
    let s1 := systemCores.foldl (fun (s : State) c => (s.setThread (c * 4) (systemThread 0 s.rolnisEntry)).setCore c { live := true }) s
    startDiscovery { s1 with hypervisor := image }
  else recovery s .hypervisor image

/-- MODULE_RESET (R372): the machine is as after reset, its fuses and the controller's power limit apart, and boots; what lies outside it, the
safe tier's checkpoints and the plan of what the outside does, goes on: the hypervisor and the
discovery image, what they bring into memory, and Rolnis's table and start. (assumption 48, DESIGN CHOICE) -/
def moduleReset (s : State) (image disc : List (BitVec 8)) (mem : List Host.Cell) (root : Nat) (entry : BitVec 128) : State :=
  startRolnis { State.reset with
    fused := s.fused, powerLimit := s.powerLimit, dieTemps := s.dieTemps, checkpoints := s.checkpoints
    sched := s.sched, delays := s.delays, free := s.free, discovery := disc, rolnisRoot := root, rolnisEntry := { bits := entry, tag := true }
    dram := { cells := mem.foldl (fun m c => Memory.write m c.1 c.2) [] } } image

/-- RECOVERY_NEW_IMAGE (R373): the new image takes the place of the one that failed. -/
def recoveryNewImage (s : State) (image : List (BitVec 8)) : State :=
  match s.boot, s.bootFailed with
  | .recovery, some .hypervisor => startRolnis s image
  | .recovery, some .discovery => startDiscovery { s with discovery := image }
  | _, _ => s

/-- Whether a core is live and received the image, as the discovery record of its die shows (R372, R386). -/
def imaged (s : State) (core : Nat) : Bool :=
  let p := (discoveryRecord s).presets
  let w := (p.getD 0 0).toNat
  decide (xOf core < w) && decide (yOf core < (p.getD 1 0).toNat) && !s.fused.contains core &&
  decide (Memory.read (s.cluster (128 * dieOf core)).mem.cells (yOf core * w + xOf core) = 3)

/-- The thread that runs a core's self-test: slot 0, in supervisor mode, in no bolt, its image and its window the boot area.
(assumption 48, DESIGN CHOICE) -/
def testThread (core : Nat) : Thread :=
  { systemThread 0 (capOf 0 0x9F 0 0 bootBytes) with block := blockKey 0 core, regs := [(2, stackCap bootBytes)] }

/-- The self-test released on a core. -/
def testCore (s : State) (core : Nat) : State :=
  let b : Block := { launch := 0, bolt := 0, cluster := clusterOf core, lb := bootArea core, ws := bootBytes, window := core, live := 1 }
  { (s.setThread (core * 4) (testThread core)).setCore core { s.core core with live := true } with blocks := Map.set s.blocks (blockKey 0 core) b }

/-- Every compute core in reset, every cluster and slice scrubbed; Rolnis goes on. -/
def scrubAll (s : State) : State :=
  let sys := fun (tid : Nat) => isSystem (coreOf tid)
  { s with
    boot := .scrubbed, cores := s.cores.filter (fun p => isSystem p.1), threads := s.threads.filter (fun p => sys p.1)
    blocks := [], pwords := [], xwords := [], msgs := []
    completions := s.completions.filter (fun x => sys x.tid), replies := s.replies.filter (fun x => sys x.tid)
    storeFaults := s.storeFaults.filter (fun x => sys x.tid)
    slices := s.slices.map (fun p => (p.1, keepSystem p.2))
    clusters := s.clusters.map (fun p => (p.1, if p.1 < Config.clusters then scrubbedCluster p.2 else p.2)) }

/-- SELF_TEST_RELEASE (R372): once both dies have reported, the self-test runs on every core that received it; once it has ended there, its
result words are read, and the module is scrubbed. (assumption 48, DESIGN CHOICE) -/
def selfTestRelease (s : State) : State :=
  let mesh := s.threads.filter (fun p => decide (p.1 < 8192) && decide (p.2.occ ≠ .empty))
  match s.boot with
  | .discovery =>
    if s.launches.any (fun p => decide (p.2.bolt = 0)) then s
    else ((List.range 2048).filter (imaged s)).foldl testCore { s with boot := .selfTest }
  | .selfTest =>
    if mesh.all (fun p => decide (p.2.wait = .idle) || decide (p.2.occ = .stopped)) then
      let word := fun (c : Nat) => BitVec.ofNat 64 (bytesToNat (Memory.readN (s.cluster (clusterOf c)).mem.cells (bootArea c) 8))
      scrubAll { s with selfTest := mesh.map (fun p => (coreOf p.1, word (coreOf p.1))) }
    else s
  | _ => s

/-- A bolt's system image starts on the system cores that the bolt is given (R371). -/
def startImages (s : State) (sys : List (Nat × Nat)) : State :=
  sys.foldl (fun s x => { s.setThread (x.2 * 4 + 1) (systemThread x.1 (s.bolt x.1).entry) with sysBolt := Map.set s.sysBolt x.2 x.1 }) s

/-- BOLT_CREATE (R372, R373, R344, R68, R371): Rolnis verifies the bolt's system image, gives the bolt free clusters, slices and swatches,
and starts the image on system cores that serve no other bolt; with the first bolt every router leaves the boot state and its arrival
queues are emptied (R382). An image that does not verify stops this creation only, and is reported. -/
def boltCreate (s : State) (bolt : Nat) (image : List (BitVec 8)) (cls hs sws : List Nat) (root : Nat) (sys : List Nat) (entry : BitVec 128) : State :=
  let ok := (decide (s.boot = .scrubbed) || decide (s.boot = .running)) && !(s.bolt bolt).live && distinct cls && distinct hs && distinct sws &&
    !cls.isEmpty && !hs.isEmpty && !sys.isEmpty && distinct sys &&
    sys.all (fun c => systemCores.contains c && (Map.find s.sysBolt c).isNone) &&
    cls.all (fun c => decide (c < Config.clusters) && decide ((s.cluster c).owner = .free)) &&
    hs.all (fun h => decide (h < Config.slices) && decide ((s.slice h).owner = .free)) &&
    sws.all (fun w => decide (w < Config.swatches) && !s.bolts.any (fun p => p.2.live && p.2.swatches.contains w))
  if !ok then s
  else if !Config.verifies image then { s with bootReports := s.bootReports ++ [(.system, Config.digest image)] }
  else
    let s0 := if s.boot = .scrubbed then
        { s with boot := .running, pwords := [], cores := s.cores.map (fun p => (p.1, { p.2 with ports := [], router := {} })) }
      else s
    let s1 := s0.setBolt bolt { live := true, clusters := cls, slices := hs, swatches := risingSet sws, root := root, image := image, entry := { bits := entry, tag := true } }
    let s2 := hs.foldl (fun s h => grantSlice s bolt h) (cls.foldl (fun s c => grantCluster s bolt c) s1)
    setPermt (startImages s2 (sys.map (fun c => (bolt, c)))) bolt cls

/-! ## Routers in the boot state (R382 to R385) -/

/-- Whether a core's router is in the boot state. -/
def bootRouter (s : State) (core : Nat) : Bool :=
  (decide (s.boot = .discovery) || decide (s.boot = .selfTest) || decide (s.boot = .scrubbed)) && decide (core % 1024 ≠ 0)

/-- What a router does with the word it takes. -/
inductive BootAct where
  | probe | reply | header | data | ack | discard
  deriving DecidableEq, Repr

/-- Fields of a boot word (R383). -/
def wordOp (w : W64) : Nat := bits w.toNat 63 60
def wordCount (w : W64) : Nat := bits w.toNat 47 32
def wordX (w : W64) : Nat := bits w.toNat 4 0
def wordY (w : W64) : Nat := bits w.toNat 9 5
def wordW (w : W64) : Nat := bits w.toNat 15 11 + 1
def wordH (w : W64) : Nat := bits w.toNat 20 16 + 1

/-- A boot word made of an operation, and the fields below it. -/
def bootWord (op low : Nat) : W64 := BitVec.ofNat 64 (op * 2 ^ 60 + low)

/-- The action of a word that arrives on a side (R384). -/
def bootAct (r : Router) (side : BitVec 2) (w : W64) : BootAct :=
  let fromNW := decide (side = 0) || decide (side = 3)
  let streaming : Bool := match r.img with | some (d, _, _) => decide (d = side) | none => false
  if streaming then .data
  else match wordOp w with
    | 1 => if fromNW ∧ !r.coord then .probe else .discard
    | 2 => if r.coord then .reply else .discard
    | 3 => if fromNW ∧ r.coord ∧ 1 ≤ wordCount w ∧ wordCount w ≤ 2048 then .header else .discard
    | 4 => if r.coord then .ack else .discard
    | _ => .discard

/-- The sides to which an image word goes on: E, and S in column order. -/
def imageSides (r : Router) (side : BitVec 2) : List (BitVec 2) :=
  (if r.x + 1 < r.w then [1] else []) ++ (if side = 0 ∧ r.y + 1 < r.hgt then [2] else [])

/-- The words a router pushes for a word it takes: side and word. -/
def bootPushes (s : State) (core : Nat) (side : BitVec 2) (w : W64) : List (BitVec 2 × W64) :=
  let r := (s.core core).router
  match bootAct r side w with
  | .probe =>
    let x := wordX w
    let y := wordY w
    let low := (wordH w - 1) * 2 ^ 16 + (wordW w - 1) * 2 ^ 11
    (if x + 1 < wordW w ∧ y < wordH w then [(1, bootWord 1 (low + y * 32 + (x + 1)))] else []) ++
    (if y + 1 < wordH w ∧ x < wordW w then [(2, bootWord 1 (low + (y + 1) * 32 + x))] else []) ++
    [(side, bootWord 2 ((s.fused.contains core).toNat * 2 ^ 21 + y * 32 + x))]
  | .reply => [(r.parent, w)]
  | .ack => [(r.parent, w)]
  | .header => (imageSides r side).map (fun d => (d, w))
  | .data => (imageSides r side).map (fun d => (d, w))
  | .discard => []

/-- Whether a push finds room in the neighbour's queue; a push off the mesh goes nowhere. -/
def pushFits (s : State) (core : Nat) (p : BitVec 2 × W64) : Bool :=
  match neighbour core p.1 with | some n => decide (portFree s n (opposite p.1) > 0) | none => true

/-- A push made. -/
def pushWord (s : State) (core : Nat) (p : BitVec 2 × W64) : State :=
  match neighbour core p.1 with | some n => pushPort s n (opposite p.1) p.2 none none | none => s

/-- The side a router serves next (R382): the first in cyclic order, after the one served last, whose word finds room for every push of
its action. -/
def bootSide (s : State) (core : Nat) : Option (BitVec 2) :=
  let c := s.core core
  let first : BitVec 2 := match c.router.served with | some d => d + 1 | none => 0
  [first, first + 1, first + 2, first + 3].find? (fun d =>
    match portQueue c d with
    | [] => false
    | w :: _ => (bootPushes s core d w).all (pushFits s core))

/-- What the router holds after it took a word. -/
def afterWord (r : Router) (fused : Bool) (side : BitVec 2) (w : W64) : Router :=
  let r := { r with served := some side }
  match bootAct r side w with
  | .probe => { r with coord := true, x := wordX w, y := wordY w, w := wordW w, hgt := wordH w, parent := side }
  | .header => { r with img := some (side, wordCount w, 0) }
  | .data =>
    match r.img with
    | some (d, n, i) =>
      if i + 1 = n then { r with img := none, holder := if fused then r.holder else some (bootWord 4 (r.y * 32 + r.x)) }
      else { r with img := some (d, n, i + 1) }
    | none => r
  | _ => r

/-- The data word an image stream delivers to a core that is not fused. -/
def bootWrite (s : State) (core : Nat) (side : BitVec 2) (w : W64) : State :=
  match (s.core core).router.img with
  | some (d, _, i) =>
    if d = side ∧ !s.fused.contains core then writeLocal s (clusterOf core) (bootArea core + 8 * i) (natToBytes 8 w.toNat) else s
  | none => s

/-- A router takes the word of the side it serves next, when that is the side and the action an event names. (assumption 48, DESIGN CHOICE) -/
def bootTake (act : BootAct) (s : State) (core : Nat) (side : BitVec 2) : State :=
  let c := s.core core
  match portQueue c side with
  | [] => s
  | w :: rest =>
    if !bootRouter s core ∨ bootSide s core ≠ some side ∨ bootAct c.router side w ≠ act then s
    else
      let out := bootPushes s core side w
      let s1 := bootWrite s core side w
      let s2 := s1.setCore core { c with ports := Map.set c.ports side.toNat rest, router := afterWord c.router (s.fused.contains core) side w }
      out.foldl (fun s p => pushWord s core p) s2

/-- ACK_HOLDER_PUSH (R382). -/
def ackHolderPush (s : State) (core : Nat) : State :=
  let c := s.core core
  match c.router.holder with
  | none => s
  | some w =>
    if bootRouter s core ∧ pushFits s core (c.router.parent, w) then
      pushWord (s.setCore core { c with router := { c.router with holder := none } }) core (c.router.parent, w)
    else s

/-! ## Fabric lanes (R375, R376) -/

/-- Fabric lanes: 48 fibres of 32 wavelengths. (assumption 49, DEDUCED) -/
def laneCount : Nat := 1536

/-- The CRC of the `n` low bits of a flit, the highest first, from the value so far. -/
def crcFrom (f : BitVec 256) : Nat → BitVec 16 → BitVec 16
  | 0, c => c
  | n + 1, c => if c.getLsbD 15 = f.getLsbD n then crcFrom f n (c <<< 1) else crcFrom f n ((c <<< 1) ^^^ 0x1021#16)

/-- CRC-16 with polynomial 0x1021 and initial value 0xFFFF over the bits from 239 down to 0 (R375). (assumption 49, DEDUCED) -/
def crc16 (f : BitVec 256) : BitVec 16 := crcFrom f 240 0xFFFF#16

/-- Fields of a flit (R375). -/
def flitCrc (f : BitVec 256) : BitVec 16 := (f >>> 240).setWidth 16
def flitType (f : BitVec 256) : Nat := bits f.toNat 239 236
def flitSeq (f : BitVec 256) : BitVec 8 := (f >>> 224).setWidth 8
def flitPayload (f : BitVec 256) : BitVec 224 := f.setWidth 224

/-- START and CLASS of a flit (R375). -/
def flitStart (f : BitVec 256) : Bool := f.getLsbD 235
def flitClass (f : BitVec 256) : BitVec 2 := (f >>> 233).setWidth 2

/-- A flit made of its fields, with its CRC (R375). -/
def makeFlit (type : Nat) (start : Bool) (cls : BitVec 2) (seq : BitVec 8) (payload : BitVec 224) : BitVec 256 :=
  let f := BitVec.ofNat 256 (((((type % 16 * 2 + start.toNat) * 4 + cls.toNat) * 2) * 256 + seq.toNat) * 2 ^ 224 + payload.toNat)
  f ||| ((crc16 f).setWidth 256 <<< 240)

/-- A lane. -/
def State.lane (s : State) (l : Nat) : Lane := Map.get s.lanes l {}
def State.setLane (s : State) (l : Nat) (x : Lane) : State := { s with lanes := Map.set s.lanes l x }

/-- The other lanes of a lane's fibre in cyclic order after it, the lane itself last. -/
def fibreAfter (lane : Nat) : List Nat := (List.range 32).map (fun i => lane / 32 * 32 + (lane + 1 + i) % 32)

/-- The lane on which what is sent on a lane goes: the lane itself, or the next of its fibre that is not retired (R376). -/
def outLane (s : State) (lane : Nat) : Option Nat := (lane :: fibreAfter lane).find? (fun l => !(s.lane l).outRetired)

/-- A flit sent on a lane, or on the one that carries its traffic. (assumption 49, DEDUCED) -/
def sendFlit (lane type : Nat) (start : Bool) (cls : BitVec 2) (payload : BitVec 224) (s : State) : State :=
  match outLane s lane with
  | none => s
  | some l =>
    let x := s.lane l
    s.setLane l { x with 
      sent := x.sent ++ [makeFlit type start cls x.outSeq payload], outSeq := x.outSeq + 1, asked := Map.erase x.asked x.outSeq.toNat }

/-- Rolnis is told of a retired lane (R376). -/
def tellLane (s : State) (lane : Nat) : State := if s.lanesTold.contains lane then s else { s with lanesTold := s.lanesTold ++ [lane] }

/-- A resend request for a sent flit (R376): it is sent again; asked for a third time, its lane is retired, and what was sent on it from
that flit on goes to the other lanes of the fibre in order. (assumption 49, DEDUCED) -/
def resend (s : State) (lane : Nat) (seq : BitVec 8) : State :=
  let x := s.lane lane
  let from_ := (x.sent.reverse.dropWhile (fun f => decide (flitSeq f ≠ seq))).length
  match x.sent[from_ - 1]? with
  | none => s
  | some f =>
    if from_ = 0 ∨ x.outRetired then s
    else
      let n := Map.get x.asked seq.toNat 0 + 1
      let x1 := { x with asked := Map.set x.asked seq.toNat n }
      if n < 3 then s.setLane lane { x1 with resent := x1.resent ++ [f] }
      else
        (x.sent.drop (from_ - 1)).foldl (fun s f => sendFlit lane (flitType f) (flitStart f) (flitClass f) (flitPayload f) s)
          (tellLane (s.setLane lane { x1 with outRetired := true }) lane)

/-- A word of a packet goes on with the packet that a lane's last flit belongs to. -/
def Lane.extend (l : Lane) (w : BitVec 224) : Lane :=
  match l.delivered.reverse with
  | p :: r => { l with delivered := (({ p with words := p.words ++ [w] } : FPacket) :: r).reverse, joined := decide (p.words.length + 1 < 4) }
  | [] => { l with discarded := l.discarded + 1 }

/-- A time-sync flit that carries this module's GTIME. (assumption 50, DEDUCED) -/
def sendTime (lane : Nat) (s : State) : State := sendFlit lane 4 true 0 (BitVec.ofNat 224 s.gtime) s

/-- A time-sync flit delivered (R377): the reference answers it with its own GTIME; another module finds by it how far it is from the
reference. (assumption 50, DEDUCED) -/
def timeArrived (s : State) (lane : Nat) (payload : BitVec 224) : State :=
  if s.reference then sendTime lane s
  else { s with behindBy := ((bits payload.toNat 63 0 : Nat) : Int) - ((s.gtime : Nat) : Int) }

/-- What the first flit of a packet delivered has the module do: a time-sync packet, a grant (R82, R377). -/
def flitActs (s : State) (lane : Nat) (f : BitVec 256) : State :=
  if flitType f = 4 then timeArrived s lane (flitPayload f)
  else if flitType f = 3 then
    let l := s.lane lane
    let s1 := s.setLane lane { l with acts := l.acts.filter (fun a => decide (a.1 ≠ flitSeq f)) }
    match l.acts.find? (fun a => decide (a.1 = flitSeq f)) with
    | some a => grantAct s1 a.2
    | none => s1
  else s

/-- The flit that is due on a lane, delivered (R375, R376): a first flit begins a packet of one to four, another goes on with it, also
with one that a retired lane of the fibre left; any other flit ends it; a resend request is obeyed; types without meaning are counted.
(assumption 49, DEDUCED) -/
def deliverFlit (s : State) (lane : Nat) (f : BitVec 256) : State :=
  let t := flitType f
  let l := { s.lane lane with seq := flitSeq f + 1, asking := false, fails := Map.erase (s.lane lane).fails (flitSeq f).toNat }
  if t = 0 then s.setLane lane { l with joined := false }
  else if t = 6 then resend (s.setLane lane { l with joined := false }) lane ((flitPayload f).setWidth 8)
  else if t ≥ 7 then s.setLane lane { l with joined := false, discarded := l.discarded + 1 }
  else if flitStart f then
    flitActs (s.setLane lane { l with delivered := l.delivered ++ [{ type := t, cls := flitClass f, words := [flitPayload f] }], joined := true }) lane f
  else if l.joined then s.setLane lane (l.extend (flitPayload f))
  else match (fibreAfter lane).find? (fun k => (s.lane k).retired && (s.lane k).joined) with
    | some k => (s.setLane lane l).setLane k ((s.lane k).extend (flitPayload f))
    | none => s.setLane lane { l with discarded := l.discarded + 1 }

/-- Held flits that have come due, delivered in order. -/
def deliverHeld (lane : Nat) : Nat → State → State
  | 0, s => s
  | n + 1, s =>
    let l := s.lane lane
    match l.held.find? (fun f => decide (flitSeq f = l.seq)) with
    | some f => deliverHeld lane n (deliverFlit (s.setLane lane { l with held := l.held.erase f }) lane f)
    | none => s

/-- A resend request for the flit that is due on a lane (R376). -/
def askDue (s : State) (lane : Nat) : State :=
  let l := s.lane lane
  sendFlit lane 6 true 0 (l.seq.setWidth 224) (s.setLane lane { l with asking := true })

/-- After a delivery: a flit that failed meanwhile, or that one held waits for, is asked for when it is due. -/
def askNext (s : State) (lane : Nat) : State :=
  let l := s.lane lane
  if l.asking ∨ l.retired ∨ (l.unheard = 0 ∧ l.held.isEmpty) then s
  else askDue (s.setLane lane { l with unheard := l.unheard - 1 }) lane

/-- A flit received (R376): one whose CRC fails is dropped, whatever its bits say, and the flit that is due asked for again, of which the
third failure retires the lane; one that comes early is held, one that comes again dropped. A failing flit is the one due unless that has
been asked for and the flit says another SEQ: then a later one, which is asked for when it is due. (assumption 49, DEDUCED) -/
def receiveFlit (s : State) (lane : Nat) (f : BitVec 256) : State :=
  let l := s.lane lane
  let q := flitSeq f
  if l.retired then s
  else if crc16 f ≠ flitCrc f then
    let later := l.asking && decide (q ≠ l.seq)
    let n := Map.get l.fails l.seq.toNat 0 + (!later).toNat
    let s1 := askDue (s.setLane lane { l with fails := Map.set l.fails l.seq.toNat n, unheard := l.unheard + later.toNat }) lane
    if n < 3 then s1 else tellLane (s1.setLane lane { s1.lane lane with retired := true, held := [], acts := [] }) lane
  else if q = l.seq then askNext (deliverHeld lane l.held.length (deliverFlit s lane f)) lane
  else if (q - l.seq).toNat ≥ 128 ∨ l.held.any (fun x => decide (flitSeq x = q)) then s
  else askNext (s.setLane lane { l with held := l.held ++ [f] }) lane

/-- A flit of the types an event row names, received on a lane. (assumption 49, DEDUCED; assumption 58, DESIGN CHOICE) -/
def receiveOn (types : List Nat) (s : State) (lane : Nat) (f : BitVec 256) : State :=
  if types.contains (flitType f) then receiveFlit s lane f else s

/-- The packets of a type that a lane has delivered. -/
def arrivedOf (s : State) (lane type : Nat) : List FPacket := (s.lane lane).delivered.filter (fun p => decide (p.type = type))

/-- GRANT_OR_RECALL_FLIT (R376, R82): when the packet is delivered, at once or after the flits before it, the kernels do what they do with
the grant it carries. (assumption 47, DEDUCED) -/
def grantFlit (s : State) (lane : Nat) (f : BitVec 256) (a : GrantAct) : State :=
  let l := s.lane lane
  let heard := decide (flitType f = 3) && flitStart f && !l.retired && decide (crc16 f = flitCrc f) && decide ((flitSeq f - l.seq).toNat < 128) &&
    !l.held.any (fun x => decide (flitSeq x = flitSeq f))
  receiveOn [3] (if heard then s.setLane lane { l with acts := l.acts ++ [(flitSeq f, a)] } else s) lane f

/-! ## Time, checkpoints, power (R377 to R379) -/

/-- Every 2^20 ticks a synchronised module that is not the reference begins an exchange: it sends its time-sync flit to the reference, which
answers (R377). (assumption 50, DEDUCED) -/
def beginExchange (s : State) : State :=
  if s.joined ∧ !s.reference ∧ s.syncAt.all (fun t => decide (s.gtime ≥ t + 2 ^ 20)) then { sendTime s.refLane s with syncAt := some s.gtime } else s

/-- TIME_SYNC without a flit (R377): a slewed tick, at most one in every 1,024: one more where the module is behind the reference; where it
is ahead its clock takes one tick's time more, which changes no number. (assumption 50, DEDUCED) -/
def slewTick (s : State) : State :=
  if s.behindBy = 0 ∨ s.gtime < s.slewAt + 1024 then s
  else if s.behindBy > 0 then { s with gtime := s.gtime + 1, slewAt := s.gtime + 1, behindBy := s.behindBy - 1 }
  else { s with slewAt := s.gtime, behindBy := s.behindBy + 1 }

/-- TIME_SYNC (R377): a flit received; without one, an exchange that is due begins, and a slewed tick. -/
def timeSync (s : State) (flit : Option (Nat × BitVec 256)) : State :=
  match flit with
  | some (lane, f) => if lane < laneCount then receiveOn [4] s lane f else s
  | none => slewTick (beginExchange s)

/-- FABRIC_JOIN (R377): a module that owns no bolt may step its GTIME forward once; Rolnis names the reference. (assumption 50, DEDUCED) -/
def fabricJoin (s : State) (step : Nat) (reference : Bool) (lane : Nat) : State :=
  if s.joined then s
  else { s with joined := true, reference := reference, refLane := lane % laneCount, gtime := if s.bolts.any (fun p => p.2.live) then s.gtime else s.gtime + step }

/-- DRAM with everything that the slices hold for it written back. -/
def writtenBack (s : State) : Mem :=
  (s.slices.foldl (fun (s : State) p =>
    p.2.ways.foldl (fun (s : State) w => if w.2.dirty then dramWriteLine s w.2.pa w.2.data.toNat w.2.tags else s)
      (p.2.staging.foldl (fun (s : State) e => if e.kind = 1 then dramWriteLine s e.pa e.data.toNat e.tags else s) s)) s).dram

/-- The bytes of a swatch. -/
def swatchBytes (m : List Host.Cell) (w : Nat) : List (BitVec 8) := Memory.readN m (w * 2 ^ 30) (2 ^ 30)

/-- Bytes streamed as checkpoint data, in packets of four flits of 28 bytes (R375, R378). (assumption 50, DEDUCED) -/
def streamBytes (s : State) (bs : List (BitVec 8)) : State :=
  (List.range ((bs.length + 27) / 28)).foldl (fun s i =>
    sendFlit 0 5 (decide (i % 4 = 0)) 3 (BitVec.ofNat 224 (bytesToNat ((bs.drop (28 * i)).take 28))) s) s

/-- The bytes of a manifest: each swatch and its digest (R378). (assumption 50, DEDUCED) -/
def manifestBytes (l : List (Nat × BitVec 512)) : List (BitVec 8) := l.flatMap (fun p => natToBytes 8 p.1 ++ natToBytes 64 p.2.toNat)

/-- DRAM with the reserved memory of bolts as a press leaves it. (assumption 94, DESIGN CHOICE) -/
def withReserved (x : Saved) (m : List Host.Cell) : List Host.Cell := (Config.reservedCells x).foldl (fun m c => Memory.write m c.1 c.2) m

/-- CHECKPOINT that saves (R378): the bolts are pressed, their swatches streamed, the contexts in their reserved memory among them, the signed manifest of digests sent; then they
resume. (assumption 50, DEDUCED) -/
def checkpointSave (s : State) (bolts : List Nat) : State :=
  let bs := bolts.filter (fun b => (s.bolt b).live)
  let s1 := bs.foldl (fun s b => pressBolt s b none) s
  -- the contexts are saved once granted and accepted requests have completed (R346)
  if !bs.all (fun b => (s1.bolt b).clusters.all (parkable s1)) then s1 else
  let m := writtenBack s1
  let sws := bs.flatMap (fun b => (s1.bolt b).swatches)
  let mine := fun (b : Nat) => bs.contains b
  let saved : Saved :=
    { tags := m.tags.filter (fun p => sws.contains (p.1 * 16 / 2 ^ 30))
      bolts := s1.bolts.filter (fun p => mine p.1), parked := bs.flatMap (fun b => (s1.bolt b).clusters.map (parkImage s1 b))
      slices := s1.slices.filter (fun p => match p.2.owner with | .bolt b => mine b | _ => false)
      launches := s1.launches.filter (fun p => mine p.2.bolt), claims := s1.claims.filter (fun p => mine p.2.2) }
  let cells := withReserved saved m.cells
  let digests := sws.map (fun w => (w, Config.digest (swatchBytes cells w)))
  let sig := (List.range 4627).map (Config.signature (manifestBytes digests))
  let c : Checkpoint := { digests := digests, sig := sig, saved := saved }
  let s2 := streamBytes (sws.foldl (fun s w => streamBytes s (swatchBytes cells w)) s1) (manifestBytes digests ++ sig)
  bs.foldl boltResume { s2 with checkpoints := s2.checkpoints ++ [c] }

/-- A checkpoint whose signature and digests all verify against what came back of its swatches, in which its contexts lie (R378).
(assumption 94, DESIGN CHOICE) -/
def checkpointVerifies (c : Checkpoint) (m : List Host.Cell) : Bool :=
  Config.verifiesManifest (manifestBytes c.digests) c.sig && c.digests.all (fun p => decide (Config.digest (swatchBytes m p.1) = p.2)) &&
  (Config.reservedCells c.saved).all (fun x => decide (Memory.read m x.1 = x.2))

/-- Whether the bolts of a checkpoint are over, all that they had is free, and each is given system cores that serve no other bolt (R371). -/
def checkpointFits (s : State) (c : Saved) (sys : List (Nat × Nat)) : Bool :=
  c.bolts.all (fun p => sys.any (fun x => decide (x.1 = p.1))) && distinct (sys.map (·.2)) &&
  sys.all (fun x => (Map.find c.bolts x.1).isSome && systemCores.contains x.2 && (Map.find s.sysBolt x.2).isNone) &&
  c.bolts.all (fun p => !(s.bolt p.1).live && p.2.clusters.all (fun k => decide ((s.cluster k).owner = .free)) &&
    (p.2.slices ++ p.2.oldSlices).all (fun h => decide ((s.slice h).owner = .free)) &&
    p.2.swatches.all (fun w => !s.bolts.any (fun q => q.2.live && q.2.swatches.contains w)))

/-- The launches of what was saved of a cluster renumbered. -/
def shiftLaunches (n : Nat) (p : Parked) : Parked :=
  { p with
    image := { p.image with cells := p.image.cells.map (fun x => (x.1, x.2.1, x.2.2.1 + n, x.2.2.2)) }
    threads := p.threads.map (fun x => (x.1, { x.2 with launch := x.2.launch + n }))
    blocks := p.blocks.map (fun x => (x.1, { x.2 with launch := x.2.launch + n })) }

/-- Memory written as a checkpoint brings it back: its swatches' bytes and tags. -/
def restoredMem (s : State) (c : Checkpoint) (m : List Host.Cell) : Mem :=
  let old := fun (a : Nat) => !c.digests.any (fun p => decide (p.1 = a / 2 ^ 30))
  { cells := (m.filter (fun x => !old x.1)).foldl (fun m x => Memory.write m x.1 x.2) (s.dram.cells.filter (fun x => old x.1))
    tags := Map.join c.saved.tags (s.dram.tags.filter (fun x => old (x.1 * 16))) }

/-- CHECKPOINT that restores (R378): bolts come back, pressed, on the clusters, slices and swatches they had, their system images start on the
system cores they are given, and they resume; only from a manifest whose signature and digests all verify. (assumption 50, DEDUCED) -/
def checkpointRestore (s : State) (k : Nat) (m : List Host.Cell) (sys : List (Nat × Nat)) : State :=
  match s.checkpoints[k]? with
  | none => s
  | some x =>
    let c := x.saved
    if !checkpointVerifies x m ∨ !checkpointFits s c sys then s
    else
      let n := freshLaunch s
      let s1 := { s with
        dram := restoredMem s x m, bolts := Map.join c.bolts s.bolts, slices := Map.join c.slices s.slices, claims := Map.join c.claims s.claims
        launches := Map.join (c.launches.map (fun p => (p.1 + n, p.2))) s.launches }
      let s2 := c.bolts.foldl (fun s p => p.2.clusters.foldl (fun s cl => grantCluster s p.1 cl) s) s1
      let s3 := (c.parked.map (shiftLaunches n)).foldl unpark s2
      let s4 := c.bolts.foldl (fun s p => p.2.clusters.foldl (fun s cl => s.setCluster cl { s.cluster cl with permt := risingSet p.2.clusters }) s) s3
      c.bolts.foldl (fun s p => boltResume s p.1) (startImages s4 sys)

/-- CHECKPOINT (R378). -/
def checkpoint (s : State) (act : CheckpointAct) : State :=
  match act with
  | .save bolts => checkpointSave s bolts
  | .restore k m sys => checkpointRestore s k m sys

/-! ## Event rows -/

/-- MODULE_RESET (R372). -/
def execModuleReset (load : BootLoad) (s : State) : Step :=
  .next (moduleReset s load.hypervisor load.discovery load.mem load.root load.entry)
/-- RECOVERY_NEW_IMAGE (R373). -/
def execRecoveryNewImage (image : List (BitVec 8)) (s : State) : Step := .next (recoveryNewImage s image)
/-- SELF_TEST_RELEASE (R372). -/
def execSelfTestRelease (s : State) : Step := .next (selfTestRelease s)
/-- BOLT_CREATE (R372). -/
def execBoltCreate (bolt : Nat) (image : BoltImage) (clusters slices swatches : List Nat) (root : Nat) (s : State) : Step :=
  withUnit (isBolt bolt) (boltCreate s bolt image.bytes clusters slices swatches root image.sys image.entry)
/-- PROBE (R384). -/
def execProbe (core : Nat) (side : BitVec 2) (s : State) : Step := withUnit (decide (core < 2048)) (bootTake .probe s core side)
/-- REPLY (R384). -/
def execReply (core : Nat) (side : BitVec 2) (s : State) : Step := withUnit (decide (core < 2048)) (bootTake .reply s core side)
/-- IMAGE_HEADER (R384). -/
def execImageHeader (core : Nat) (side : BitVec 2) (s : State) : Step := withUnit (decide (core < 2048)) (bootTake .header s core side)
/-- IMAGE_DATA (R384, R385). -/
def execImageData (core : Nat) (side : BitVec 2) (s : State) : Step := withUnit (decide (core < 2048)) (bootTake .data s core side)
/-- ACK (R384). -/
def execAck (core : Nat) (side : BitVec 2) (s : State) : Step := withUnit (decide (core < 2048)) (bootTake .ack s core side)
/-- DISCARDED_WORD (R384). -/
def execDiscardedWord (core : Nat) (side : BitVec 2) (s : State) : Step := withUnit (decide (core < 2048)) (bootTake .discard s core side)
/-- ACK_HOLDER_PUSH (R382). -/
def execAckHolderPush (core : Nat) (s : State) : Step := withUnit (decide (core < 2048)) (ackHolderPush s core)
/-- MEMORY_REQUEST_FLIT (R376). -/
def execMemoryRequestFlit (lane : Nat) (flit : BitVec 256) (s : State) : Step := withUnit (decide (lane < laneCount)) (receiveOn [1] s lane flit)
/-- MEMORY_REPLY_FLIT (R376). -/
def execMemoryReplyFlit (lane : Nat) (flit : BitVec 256) (s : State) : Step := withUnit (decide (lane < laneCount)) (receiveOn [2] s lane flit)
/-- GRANT_OR_RECALL_FLIT (R376). -/
def execGrantOrRecallFlit (lane : Nat) (flit : GrantFlit) (s : State) : Step :=
  withUnit (decide (lane < laneCount)) (grantFlit s lane flit.bits flit.act)
/-- CHECKPOINT_DATA_FLIT (R376). -/
def execCheckpointDataFlit (lane : Nat) (flit : BitVec 256) (s : State) : Step := withUnit (decide (lane < laneCount)) (receiveOn [5] s lane flit)
/-- RESEND_REQUEST (R376). -/
def execResendRequest (lane : Nat) (flit : BitVec 256) (s : State) : Step := withUnit (decide (lane < laneCount)) (receiveOn [6] s lane flit)
/-- DISCARDED_FLIT (R375): a flit of no packet, idle ones among them. -/
def execDiscardedFlit (lane : Nat) (flit : BitVec 256) (s : State) : Step :=
  withUnit (decide (lane < laneCount)) (receiveOn [0, 7, 8, 9, 10, 11, 12, 13, 14, 15] s lane flit)
/-- TIME_SYNC (R377). -/
def execTimeSync (flit : Option (Nat × BitVec 256)) (s : State) : Step := .next (timeSync s flit)
/-- FABRIC_JOIN (R377). -/
def execFabricJoin (act : JoinAct) (s : State) : Step := .next (fabricJoin s act.step act.reference act.lane)
/-- CHECKPOINT (R378). -/
def execCheckpoint (act : CheckpointAct) (s : State) : Step := .next (checkpoint s act)
/-- POWER_LIMIT_SET (R379): the limit comes by the sideband, which carries the temperatures of the dies back; Rolnis throttles the regions
that a limit below 2,400 W asks to be. (assumption 95, DESIGN CHOICE) -/
def powerLimitSet (s : State) (watts : Nat) : State :=
  let s1 := { s with powerLimit := watts, dieTemps := (List.range Config.dies).map (fun d => Config.dieTemperature d s.gtime) }
  if watts ≥ 2400 then s1
  else (List.range Config.clusters).foldl (fun s cl =>
    s.setCluster cl { s.cluster cl with throttle := min (s.cluster cl).throttle (powerCap s cl) }) s1

/-- POWER_LIMIT_SET (R379). -/
def execPowerLimitSet (watts : Nat) (s : State) : Step := .next (powerLimitSet s watts)

end Sys2Proof.Machine
end

