-- ==== Sys2Proof/Machine/Inbox.lean ====
section
/-!
DEFINITION. Messages between threads: SENDM, RECV (R147 to R150), and the event row MESSAGE_DELIVERY.
-/
namespace Sys2Proof.Machine

/-- Message places of a core's inbox (R147). -/
def inboxPlaces : Nat := 64

/-- Fields of a descriptor (R148). -/
def descCluster (w : W64) : Nat := bits w.toNat 12 5
def descCore (w : W64) : Nat := bits w.toNat 4 2
def descSlot (w : W64) : Nat := bits w.toNat 1 0
def descCount (w : W64) : Nat := bits w.toNat 18 16
/-- Whether the reserved bits of a descriptor are 0. -/
def descClean (w : W64) : Bool := decide (bits w.toNat 63 19 = 0) && decide (bits w.toNat 15 13 = 0)

/-- The descriptor of a slot with a word count (R148). -/
def descOf (s : State) (tid count : Nat) : W64 :=
  BitVec.ofNat 64 (count * 2 ^ 16 + clusterOf (coreOf tid) * 32 + logical s (coreOf tid) * 4 + slotOf tid)

/-- SENDM (R149). -/
def execSendm (q : Pre) (d r t : Reg) (s : State) : Step :=
  issue q { base := baseParcel (.sendm q d r t), reads := [t], rgroups := [(r, 4)], writes := [d] }
    (fun s => do
      let (s1, w) ← readW s t
      let c := descCluster w
      let k := descCount w
      if c ≠ s.curCluster ∧ !s.cl.permt.contains c then faultR .perm w else pure ()
      writeCheck s1 d
      if k = 0 ∨ k > 4 ∨ !descClean w then pure (putReg s1 d (Val.ofW 3))
      else
        let m : Msg := { src := s.cur, dstCluster := c, dstCore := descCore w, dstSlot := descSlot w,
                         words := (List.range k).map (fun i => (s.t.reg (r + BitVec.ofNat 6 i)).lo),
                         header := descOf s s.cur k, stat := d.toNat, bolt := s.t.bolt }
        let s2 := if d = 0 then s1 else s1.setT { s1.t with pending := s1.t.pending ++ [d.toNat] }
        pure { s2 with msgs := s2.msgs ++ [m] }) s

/-- RECV (R150). (assumption 23, DEDUCED) -/
def execRecv (q : Pre) (d t : Reg) (s : State) : Step :=
  issue q { base := baseParcel (.recv q d t), writes := [t], wgroups := [(d, 4)] }
    (fun s => do
      match s.c.inbox.find? (fun m => decide (m.dstSlot = slotOf s.cur)) with
      | none => waitR .message
      | some m =>
        writeCheck s t
        let s1 := s.setC { s.c with inbox := s.c.inbox.erase m }
        let th := (List.range 4).foldl (fun (th : Thread) i => th.setReg (d + BitVec.ofNat 6 i) (Val.ofW (m.words.getD i 0))) s1.t
        pure (putReg (s1.setT th) t (Val.ofW m.header))) s

/-- The status of a message reaches its sender. (assumption 23, DEDUCED) -/
def sendStatus (s : State) (m : Msg) (st : W64) : State :=
  let t := s.thread m.src
  if t.occ = .empty then s
  else withCur m.src (fun s => putReg (s.setT { s.t with pending := s.t.pending.erase m.stat }) (BitVec.ofNat 6 m.stat) (Val.ofW st)) s

/-- MESSAGE_DELIVERY (R149): a message arrives; it is enqueued, or refused as full or unoccupied, whole. Messages of one thread to
one slot keep their order; those of a pressed bolt stay on their way. One for a cluster that has left its sender's bolt since finds no
thread there (R344). (assumption 23, DEDUCED) -/
def messageDelivery (s : State) (n : Nat) : State :=
  match s.msgs[n]? with
  | none => s
  | some m =>
    if (s.msgs.take n).any (fun x => decide (x.src = m.src) && decide (x.dstCluster = m.dstCluster) && decide (x.dstCore = m.dstCore) && decide (x.dstSlot = m.dstSlot)) then s
    else if halted s m.bolt m.src ∨ !landRoom s m.src (BitVec.ofNat 6 m.stat) then s
    else if (s.cluster m.dstCluster).owner ≠ .bolt m.bolt ∧ m.bolt ≠ 0 then sendStatus { s with msgs := s.msgs.eraseIdx n } m 2
    else
      let s1 := { s with msgs := s.msgs.eraseIdx n }
      match (liveCores s m.dstCluster)[m.dstCore]? with
      | none => sendStatus s1 m 2
      | some k =>
        let tid := k * 4 + m.dstSlot
        let c := s.core k
        if (s.thread tid).occ = .empty then sendStatus s1 m 2
        else if c.inbox.length ≥ inboxPlaces then sendStatus s1 m 1
        else
          let s2 := s1.setCore k { c with inbox := c.inbox ++ [m] }
          wakeIdle (if (s2.thread tid).wait = .message then setWait s2 tid .none else s2) tid |> (sendStatus · m 0)

/-- MESSAGE_DELIVERY (R149). -/
def execMessageDelivery (n : Nat) (s : State) : Step := .next (messageDelivery s n)

end Sys2Proof.Machine
end

