-- ==== Sys2Proof/Machine/Integer.lean ====
section
/-!
DEFINITION. The integer instructions of page 0: arithmetic, division, selects, extensions, bit fields, compares, flag logic,
immediate forms, HOLD (R198 to R209).
-/
namespace Sys2Proof.Machine

/-! ## Shared shapes -/

/-- A two-address integer instruction of latency `l` (R199, R202); division is variable-latency (R198). -/
def intTwo (i : Instr) (q : Pre) (d x y : Reg) (l : Option Nat) (f : W64 → W64 → W64) (s : State) : Step :=
  issue q { base := baseParcel i, reads := [x, y], writes := [d], lat := l }
    (fun s => do
      let (s1, a, b) ← readTwo q s x y
      writeW s1 d (f a.lo b.lo)) s

/-- A unary integer instruction (R199). -/
def intUn (i : Instr) (q : Pre) (ok : Bool) (d x : Reg) (f : W64 → W64) (s : State) : Step :=
  issue q { base := baseParcel i, ok := ok, reads := [x], writes := [d], lat := some 1 }
    (fun s => do
      let (s1, a) ← readW s x
      writeW s1 d (f a)) s

/-- A compare: s before t, the result in a flag (R206). -/
def intCmp (i : Instr) (q : Pre) (k : Flag) (x y : Reg) (f : W64 → W64 → Bool) (s : State) : Step :=
  issue q { base := baseParcel i, reads := [x, y], wflags := [k], lat := some 1 }
    (fun s => do
      let (s1, a) ← readW s x
      let (s2, b) ← readW s1 y
      pure (s2.setT (s2.t.setFlag k (f a b)))) s

/-- An immediate form (R208). -/
def intImm (i : Instr) (q : Pre) (d : Reg) (f : W64 → W64) (s : State) : Step :=
  issue q { base := baseParcel i, reads := [d], writes := [d], lat := some 1 }
    (fun s => do
      let (s1, a) ← readW s d
      writeW s1 d (f a)) s

/-- Flag logic (R207). -/
def flagOp (i : Instr) (q : Pre) (d x y : Flag) (f : Bool → Bool → Bool) (s : State) : Step :=
  issue q { base := baseParcel i, rflags := [x, y], wflags := [d], lat := some 1 }
    (fun s => .ok (s.setT (s.t.setFlag d (f (s.t.flag x) (s.t.flag y))))) s

/-! ## Operations (R202, R203, R205) -/

/-- Shift left by y mod 64. -/
def shlW (x y : W64) : W64 := x <<< (y.toNat % 64)
/-- Shift right logically by y mod 64. -/
def shrW (x y : W64) : W64 := x >>> (y.toNat % 64)
/-- Shift right arithmetically by y mod 64. -/
def sarW (x y : W64) : W64 := x.sshiftRight (y.toNat % 64)
/-- Rotate right by y mod 64. -/
def rorW (x y : W64) : W64 := x.rotateRight (y.toNat % 64)
/-- Bits 127:64 of the signed product. -/
def mulhW (x y : W64) : W64 := w64 (x.toInt * y.toInt / ((2 ^ 64 : Nat) : Int))
/-- Bits 127:64 of the unsigned product. -/
def mulhnW (x y : W64) : W64 := BitVec.ofNat 64 (x.toNat * y.toNat / 2 ^ 64)
/-- Signed quotient toward zero, with its corners (R203). -/
def divW (x y : W64) : W64 := if y = 0 then BitVec.allOnes 64 else w64 (x.toInt.tdiv y.toInt)
/-- Unsigned quotient (R203). -/
def divnW (x y : W64) : W64 := if y = 0 then BitVec.allOnes 64 else BitVec.ofNat 64 (x.toNat / y.toNat)
/-- Signed remainder with the dividend's sign (R203). -/
def remW (x y : W64) : W64 := if y = 0 then x else w64 (x.toInt.tmod y.toInt)
/-- Unsigned remainder (R203). -/
def remnW (x y : W64) : W64 := if y = 0 then x else BitVec.ofNat 64 (x.toNat % y.toNat)
/-- Leading zero bits, counted down from bit 63. -/
def clzFrom (x : Nat) : Nat → Nat
  | 0 => 0
  | n + 1 => if x.testBit n then 0 else 1 + clzFrom x n
/-- Trailing zero bits of the `n` bits above bit `i`. -/
def ctzFrom (x i : Nat) : Nat → Nat
  | 0 => 0
  | n + 1 => if x.testBit i then 0 else 1 + ctzFrom x (i + 1) n
/-- Set bits among the low `n`. -/
def popcFrom (x : Nat) : Nat → Nat
  | 0 => 0
  | n + 1 => (x.testBit n).toNat + popcFrom x n
/-- The low `n` bits reversed. -/
def brevFrom (x : Nat) : Nat → Nat
  | 0 => 0
  | n + 1 => (x.testBit n).toNat + 2 * brevFrom x n

/-- The reversal of 64 bits: bit i at 63 − i. -/
def brevW (x : W64) : W64 := BitVec.ofNat 64 (brevFrom x.toNat 64)

/-- The field of a specification: position and length cut at bit 63 (R205). -/
def fieldOf (t : W64) : Nat × Nat := let p := t.toNat % 64; (p, min (bits t.toNat 14 8) (64 - p))
/-- BFX (R205). -/
def bfxW (x t : W64) : W64 :=
  let (p, k) := fieldOf t
  if k = 0 then 0
  else
    let v := x.toNat / 2 ^ p % 2 ^ k
    if t.getLsbD 15 then w64 (sext v k) else BitVec.ofNat 64 v
/-- BFI (R205). -/
def bfiW (d x t : W64) : W64 :=
  let (p, k) := fieldOf t
  let mask : W64 := BitVec.ofNat 64 (2 ^ k - 1) <<< p
  (d &&& ~~~mask) ||| ((x <<< p) &&& mask)

/-! ## Majors 0x00 to 0x06 -/

/-- ADD (R202). -/
def execAdd (q : Pre) (d x y : Reg) (s : State) : Step := intTwo (.add q d x y) q d x y (some 1) (· + ·) s
/-- SUB (R202). -/
def execSub (q : Pre) (d x y : Reg) (s : State) : Step := intTwo (.sub q d x y) q d x y (some 1) (· - ·) s

/-- ADC and SBC: the result and f7 (R202). -/
def carryTwo (i : Instr) (q : Pre) (d x y : Reg) (f : W64 → W64 → Bool → W64 × Bool) (s : State) : Step :=
  issue q { base := baseParcel i, reads := [x, y], writes := [d], rflags := [7], wflags := [7], lat := some 1 }
    (fun s => do
      let (s1, a, b) ← readTwo q s x y
      let (r, c) := f a.lo b.lo (s.t.flag 7)
      let s2 ← writeW s1 d r
      pure (s2.setT (s2.t.setFlag 7 c))) s

/-- ADC (R202). -/
def execAdc (q : Pre) (d x y : Reg) (s : State) : Step := carryTwo (.adc q d x y) q d x y addCarry s
/-- SBC (R202). -/
def execSbc (q : Pre) (d x y : Reg) (s : State) : Step := carryTwo (.sbc q d x y) q d x y subBorrow s
/-- AND (R202). -/
def execAnd (q : Pre) (d x y : Reg) (s : State) : Step := intTwo (.and q d x y) q d x y (some 1) (· &&& ·) s
/-- OR (R202). -/
def execOr (q : Pre) (d x y : Reg) (s : State) : Step := intTwo (.or q d x y) q d x y (some 1) (· ||| ·) s
/-- XOR (R202). -/
def execXor (q : Pre) (d x y : Reg) (s : State) : Step := intTwo (.xor q d x y) q d x y (some 1) (· ^^^ ·) s
/-- ANDN (R202). -/
def execAndn (q : Pre) (d x y : Reg) (s : State) : Step := intTwo (.andn q d x y) q d x y (some 1) (fun a b => a &&& ~~~b) s
/-- SHL (R202). -/
def execShl (q : Pre) (d x y : Reg) (s : State) : Step := intTwo (.shl q d x y) q d x y (some 1) shlW s
/-- SHR (R202). -/
def execShr (q : Pre) (d x y : Reg) (s : State) : Step := intTwo (.shr q d x y) q d x y (some 1) shrW s
/-- SAR (R202). -/
def execSar (q : Pre) (d x y : Reg) (s : State) : Step := intTwo (.sar q d x y) q d x y (some 1) sarW s
/-- ROR (R202). -/
def execRor (q : Pre) (d x y : Reg) (s : State) : Step := intTwo (.ror q d x y) q d x y (some 1) rorW s
/-- MUL (R202). -/
def execMul (q : Pre) (d x y : Reg) (s : State) : Step := intTwo (.mul q d x y) q d x y (some 3) (· * ·) s
/-- MULH (R202). -/
def execMulh (q : Pre) (d x y : Reg) (s : State) : Step := intTwo (.mulh q d x y) q d x y (some 3) mulhW s
/-- MULHN (R202). -/
def execMulhn (q : Pre) (d x y : Reg) (s : State) : Step := intTwo (.mulhn q d x y) q d x y (some 3) mulhnW s
/-- MULW: the signed 128-bit product (R202). -/
def execMulw (q : Pre) (d x y : Reg) (s : State) : Step :=
  issue q { base := baseParcel (.mulw q d x y), reads := [x, y], writes := [d], lat := some 3 }
    (fun s => do
      let (s1, a, b) ← readTwo q s x y
      writeReg s1 d { bits := BitVec.ofInt 128 (a.lo.toInt * b.lo.toInt) }) s
/-- DIV (R203). -/
def execDiv (q : Pre) (d x y : Reg) (s : State) : Step := intTwo (.div q d x y) q d x y none divW s
/-- DIVN (R203). -/
def execDivn (q : Pre) (d x y : Reg) (s : State) : Step := intTwo (.divn q d x y) q d x y none divnW s
/-- REM (R203). -/
def execRem (q : Pre) (d x y : Reg) (s : State) : Step := intTwo (.rem q d x y) q d x y none remW s
/-- REMN (R203). -/
def execRemn (q : Pre) (d x y : Reg) (s : State) : Step := intTwo (.remn q d x y) q d x y none remnW s
/-- MIN (R202). -/
def execMin (q : Pre) (d x y : Reg) (s : State) : Step :=
  intTwo (.min q d x y) q d x y (some 1) (fun a b => if a.toInt ≤ b.toInt then a else b) s
/-- MAX (R202). -/
def execMax (q : Pre) (d x y : Reg) (s : State) : Step :=
  intTwo (.max q d x y) q d x y (some 1) (fun a b => if a.toInt ≤ b.toInt then b else a) s
/-- MINN (R202). -/
def execMinn (q : Pre) (d x y : Reg) (s : State) : Step :=
  intTwo (.minn q d x y) q d x y (some 1) (fun a b => if a.toNat ≤ b.toNat then a else b) s
/-- MAXN (R202). -/
def execMaxn (q : Pre) (d x y : Reg) (s : State) : Step :=
  intTwo (.maxn q d x y) q d x y (some 1) (fun a b => if a.toNat ≤ b.toNat then b else a) s
/-- CLZ (R202). -/
def execClz (q : Pre) (d r : Reg) (s : State) : Step :=
  intUn (.clz q d r) q true d r (fun a => BitVec.ofNat 64 (clzFrom a.toNat 64)) s
/-- CTZ (R202). -/
def execCtz (q : Pre) (d r : Reg) (s : State) : Step :=
  intUn (.ctz q d r) q true d r (fun a => BitVec.ofNat 64 (ctzFrom a.toNat 0 64)) s
/-- POPC (R202). -/
def execPopc (q : Pre) (d r : Reg) (s : State) : Step :=
  intUn (.popc q d r) q true d r (fun a => BitVec.ofNat 64 (popcFrom a.toNat 64)) s
/-- BREV (R202). -/
def execBrev (q : Pre) (d r : Reg) (s : State) : Step := intUn (.brev q d r) q true d r brevW s

/-! ## Majors 0x07 to 0x09 -/

/-- SEL: x when f0 is set, else y (R204). -/
def execSel (q : Pre) (d x y : Reg) (s : State) : Step :=
  issue q { base := baseParcel (.sel q d x y), reads := [x, y], writes := [d], rflags := [0], lat := some 1 }
    (fun s => do
      let (s1, a, b) ← readTwo q s x y
      writeW s1 d (if s.t.flag 0 then a.lo else b.lo)) s
/-- EXTS (R204). -/
def execExts (q : Pre) (f : Code) (d r : Reg) (s : State) : Step :=
  let w := widthBits (codeWidth f)
  intUn (.exts q f d r) q (okExts f) d r (fun a => w64 (sext (a.toNat % 2 ^ w) w)) s
/-- EXTZ (R204). -/
def execExtz (q : Pre) (f : Code) (d r : Reg) (s : State) : Step :=
  let w := widthBits (codeWidth f)
  intUn (.extz q f d r) q (okExtz f) d r (fun a => BitVec.ofNat 64 (a.toNat % 2 ^ w)) s
/-- CMP.EQ (R206). -/
def execCmpEq (q : Pre) (k : Flag) (x y : Reg) (s : State) : Step := intCmp (.cmpEq q k x y) q k x y cmpEq s
/-- CMP.LT (R206). -/
def execCmpLt (q : Pre) (k : Flag) (x y : Reg) (s : State) : Step := intCmp (.cmpLt q k x y) q k x y cmpLt s
/-- CMP.LTN (R206). -/
def execCmpLtn (q : Pre) (k : Flag) (x y : Reg) (s : State) : Step := intCmp (.cmpLtn q k x y) q k x y cmpLtn s
/-- CMP.TST (R206). -/
def execCmpTst (q : Pre) (k : Flag) (x y : Reg) (s : State) : Step := intCmp (.cmpTst q k x y) q k x y cmpTst s
/-- BFX (R205). -/
def execBfx (q : Pre) (d r t : Reg) (s : State) : Step :=
  issue q { base := baseParcel (.bfx q d r t), reads := [r, t], writes := [d], lat := some 1 }
    (fun s => do
      let (s1, a) ← readW s r
      let (s2, b) ← readW s1 t
      writeW s2 d (bfxW a b)) s
/-- BFI: it reads G[d] after s and t (R205). -/
def execBfi (q : Pre) (d r t : Reg) (s : State) : Step :=
  issue q { base := baseParcel (.bfi q d r t), reads := [r, t, d], writes := [d], lat := some 1 }
    (fun s => do
      let (s1, a) ← readW s r
      let (s2, b) ← readW s1 t
      let (s3, c) ← readW s2 d
      writeW s3 d (bfiW c a b)) s

/-! ## Immediate forms and HOLD -/

/-- ADDI (R208). -/
def execAddi (q : Pre) (d : Reg) (i : W64) (s : State) : Step := intImm (.addi q d i) q d (· + i) s
/-- ANDI (R208). -/
def execAndi (q : Pre) (d : Reg) (i : W64) (s : State) : Step := intImm (.andi q d i) q d (· &&& i) s
/-- ORI (R208). -/
def execOri (q : Pre) (d : Reg) (i : W64) (s : State) : Step := intImm (.ori q d i) q d (· ||| i) s
/-- XORI (R208). -/
def execXori (q : Pre) (d : Reg) (i : W64) (s : State) : Step := intImm (.xori q d i) q d (· ^^^ i) s
/-- SHLI (R208). -/
def execShli (q : Pre) (d : Reg) (i : W64) (s : State) : Step := intImm (.shli q d i) q d (fun a => shlW a i) s
/-- SHRI (R208). -/
def execShri (q : Pre) (d : Reg) (i : W64) (s : State) : Step := intImm (.shri q d i) q d (fun a => shrW a i) s
/-- SARI (R208). -/
def execSari (q : Pre) (d : Reg) (i : W64) (s : State) : Step := intImm (.sari q d i) q d (fun a => sarW a i) s
/-- LI (R208). -/
def execLi (q : Pre) (d : Reg) (i : W64) (s : State) : Step :=
  issue q { base := baseParcel (.li q d i), writes := [d], lat := some 1 } (fun s => writeW s d i) s
/-- HOLD: its count delays the thread's next instruction, guarded off or not (R53, R209). -/
def execHold (q : Pre) (i : W64) (s : State) : Step :=
  issue q { base := baseParcel (.hold q i), ok := !i.msb, holdN := i.toNat } (fun s => .ok s) s

/-! ## Flag logic -/

/-- FAND (R207). -/
def execFand (q : Pre) (d x y : Flag) (s : State) : Step := flagOp (.fand q d x y) q d x y (· && ·) s
/-- FOR (R207). -/
def execFlagOr (q : Pre) (d x y : Flag) (s : State) : Step := flagOp (.flagOr q d x y) q d x y (· || ·) s
/-- FXOR (R207). -/
def execFxor (q : Pre) (d x y : Flag) (s : State) : Step := flagOp (.fxor q d x y) q d x y (· != ·) s
/-- FNOT (R207). -/
def execFnot (q : Pre) (d x : Flag) (s : State) : Step := flagOp (.fnot q d x) q d x x (fun a _ => !a) s

end Sys2Proof.Machine
end

