-- ==== Sys2Proof/Machine/Vector.lean ====
section
/-!
DEFINITION. Lane movement and selection, integer and bitwise vectors (R222, R223).
-/
namespace Sys2Proof.Machine

/-- A vector operation over groups, latency 6; its function sees the thread before the instruction. R54 gives 6 to vector floating
point and vector integer; VBCAST, VPERM, VSHUF, VSLIDE and VSEL are taken with them. (assumption 84, DESIGN CHOICE) -/
def vecForm (i : Instr) (q : Pre) (ok : Bool) (d : Reg) (groups : List Reg) (g : Thread → Nat) (s : State) : Step :=
  issue q { base := baseParcel i, ok := ok, rgroups := groups.map (fun r => (r, 4)), wgroups := [(d, 4)], lat := some 6 }
    (fun s => .ok (s.setT (setVec s.t d (g s.t)))) s

/-- A vector operation with a scalar operand. -/
def vecScalar (i : Instr) (q : Pre) (ok : Bool) (d : Reg) (groups : List Reg) (x : Reg) (g : Thread → Val → Nat) (s : State) : Step :=
  issue q { base := baseParcel i, ok := ok, reads := [x], rgroups := groups.map (fun r => (r, 4)), wgroups := [(d, 4)], lat := some 6 }
    (fun s => do
      let (s1, v) ← readReg s x
      pure (s1.setT (setVec s1.t d (g s.t v)))) s

/-- VBCAST (R222). -/
def execVbcast (q : Pre) (f : Code) (d r : Reg) (s : State) : Step :=
  let w := laneBits f
  vecScalar (.vbcast q f d r) q (okLane f) d [] r (fun _ v => ofLanes w (List.replicate (512 / w) (v.bits.toNat % 2 ^ w))) s

/-- VPERM (R222). -/
def execVperm (q : Pre) (f : Code) (d r t : Reg) (s : State) : Step :=
  let w := laneBits f
  vecForm (.vperm q f d r t) q (okLane f) d [r, t]
    (fun th => ofLanes w ((lanesOf (vecOf th t) w).map (fun p => lane (vecOf th r) w (p % (512 / w))))) s

/-- VSHUF (R222). -/
def execVshuf (q : Pre) (f : Code) (d r t : Reg) (s : State) : Step :=
  let w := laneBits f
  vecForm (.vshuf q f d r t) q (okLane f) d [r, t]
    (fun th => ofLanes w ((List.range (512 / w)).map (fun i => lane (if i % 2 = 0 then vecOf th r else vecOf th t) w (i / 2)))) s

/-- VSLIDE (R222). -/
def execVslide (q : Pre) (f : Code) (d r t : Reg) (s : State) : Step :=
  let w := laneBits f
  vecScalar (.vslide q f d r t) q (okLane f) d [r] t
    (fun th v => ofLanes w ((List.range (512 / w)).map (fun (i : Nat) =>
      let j : Int := (i : Int) + v.lo.toInt
      if 0 ≤ j ∧ j < ((512 / w : Nat) : Int) then lane (vecOf th r) w j.toNat else 0))) s

/-- VSEL: by the top bit of each lane of the mask in d, or bit by bit with `.v` (R222). -/
def execVsel (q : Pre) (f : Code) (d r t : Reg) (s : State) : Step :=
  let w := laneBits f
  vecForm (.vsel q f d r t) q (okVector f) d [r, t, d]
    (fun th => ofLanes w ((List.range (512 / w)).map (fun i =>
      if (lane (vecOf th d) w i).testBit (w - 1) then lane (vecOf th r) w i else lane (vecOf th t) w i))) s

/-- Lanes combined two by two. -/
def laneTwo (w : Nat) (g : Nat → Nat → Nat) (a b : Nat) : Nat := ofLanes w (List.zipWith g (lanesOf a w) (lanesOf b w))

/-- A two-address lane operation (R223). -/
def laneForm (i : Instr) (q : Pre) (ok : Bool) (w : Nat) (d x y : Reg) (g : Nat → Nat → Nat) (s : State) : Step :=
  vecForm i q ok d [x, y] (fun th => laneTwo w g (vecOf th x) (vecOf th y)) s

/-- VIADD (R223). -/
def execViadd (q : Pre) (f : Code) (d x y : Reg) (s : State) : Step :=
  laneForm (.viadd q f d x y) q (okIntLane f) (laneBits f) d x y (· + ·) s
/-- VISUB (R223). -/
def execVisub (q : Pre) (f : Code) (d x y : Reg) (s : State) : Step :=
  laneForm (.visub q f d x y) q (okIntLane f) (laneBits f) d x y (fun a b => a + 2 ^ laneBits f - b) s
/-- VIMUL (R223). -/
def execVimul (q : Pre) (f : Code) (d x y : Reg) (s : State) : Step :=
  laneForm (.vimul q f d x y) q (okIntLane f) (laneBits f) d x y (· * ·) s
/-- VIMAC (R223). -/
def execVimac (q : Pre) (f : Code) (d r t : Reg) (s : State) : Step :=
  let w := laneBits f
  vecForm (.vimac q f d r t) q (okIntLane f) d [r, t, d]
    (fun th => laneTwo w (· + ·) (vecOf th d) (laneTwo w (· * ·) (vecOf th r) (vecOf th t))) s

/-- A bitwise operation over all 512 bits (R223). -/
def bitForm (i : Instr) (q : Pre) (f : Code) (d x y : Reg) (g : Nat → Nat → Nat) (s : State) : Step :=
  vecForm i q (okVector f) d [x, y] (fun th => g (vecOf th x) (vecOf th y)) s

/-- VAND (R223). -/
def execVand (q : Pre) (f : Code) (d x y : Reg) (s : State) : Step := bitForm (.vand q f d x y) q f d x y (· &&& ·) s
/-- VOR (R223). -/
def execVor (q : Pre) (f : Code) (d x y : Reg) (s : State) : Step := bitForm (.vor q f d x y) q f d x y (· ||| ·) s
/-- VXOR (R223). -/
def execVxor (q : Pre) (f : Code) (d x y : Reg) (s : State) : Step := bitForm (.vxor q f d x y) q f d x y (· ^^^ ·) s

/-- A lane shifted by a signed count: left, or right with its sign for i lanes (R223). -/
def shiftLane (sg : Bool) (w x y : Nat) : Nat :=
  let c := sext y w
  if 0 ≤ c then (if c ≥ (w : Int) then 0 else x * 2 ^ c.toNat % 2 ^ w)
  else
    let v : Int := if sg then sext x w else (x : Int)
    ((v / ((2 ^ (min (-c).toNat w) : Nat) : Int)) % ((2 ^ w : Nat) : Int)).toNat

/-- VSHL (R223). -/
def execVshl (q : Pre) (f : Code) (d x y : Reg) (s : State) : Step :=
  laneForm (.vshl q f d x y) q (okIntLane f) (laneBits f) d x y (shiftLane (decide (codeType f = 0)) (laneBits f)) s

end Sys2Proof.Machine
end

