-- ==== Sys2Proof/Machine/Dispatch.lean ====
section
/-!
DEFINITION. The meaning of every instruction and every step of the machine: one direct call each.
-/
namespace Sys2Proof.Machine

/-- What an instruction, or a step of the machine, does. -/
def exec (i : Instr) (s : State) : Host.Outcome State Fault Refusal :=
  match i with
  | .add q d x y => Sys2Proof.Machine.execAdd q d x y s
  | .sub q d x y => Sys2Proof.Machine.execSub q d x y s
  | .adc q d x y => Sys2Proof.Machine.execAdc q d x y s
  | .sbc q d x y => Sys2Proof.Machine.execSbc q d x y s
  | .and q d x y => Sys2Proof.Machine.execAnd q d x y s
  | .or q d x y => Sys2Proof.Machine.execOr q d x y s
  | .xor q d x y => Sys2Proof.Machine.execXor q d x y s
  | .andn q d x y => Sys2Proof.Machine.execAndn q d x y s
  | .shl q d x y => Sys2Proof.Machine.execShl q d x y s
  | .shr q d x y => Sys2Proof.Machine.execShr q d x y s
  | .sar q d x y => Sys2Proof.Machine.execSar q d x y s
  | .ror q d x y => Sys2Proof.Machine.execRor q d x y s
  | .mul q d x y => Sys2Proof.Machine.execMul q d x y s
  | .mulh q d x y => Sys2Proof.Machine.execMulh q d x y s
  | .mulhn q d x y => Sys2Proof.Machine.execMulhn q d x y s
  | .mulw q d x y => Sys2Proof.Machine.execMulw q d x y s
  | .div q d x y => Sys2Proof.Machine.execDiv q d x y s
  | .divn q d x y => Sys2Proof.Machine.execDivn q d x y s
  | .rem q d x y => Sys2Proof.Machine.execRem q d x y s
  | .remn q d x y => Sys2Proof.Machine.execRemn q d x y s
  | .min q d x y => Sys2Proof.Machine.execMin q d x y s
  | .max q d x y => Sys2Proof.Machine.execMax q d x y s
  | .minn q d x y => Sys2Proof.Machine.execMinn q d x y s
  | .maxn q d x y => Sys2Proof.Machine.execMaxn q d x y s
  | .clz q d r => Sys2Proof.Machine.execClz q d r s
  | .ctz q d r => Sys2Proof.Machine.execCtz q d r s
  | .popc q d r => Sys2Proof.Machine.execPopc q d r s
  | .brev q d r => Sys2Proof.Machine.execBrev q d r s
  | .mov q d r => Sys2Proof.Machine.execMov q d r s
  | .sel q d x y => Sys2Proof.Machine.execSel q d x y s
  | .exts q f d r => Sys2Proof.Machine.execExts q f d r s
  | .extz q f d r => Sys2Proof.Machine.execExtz q f d r s
  | .cmpEq q k x y => Sys2Proof.Machine.execCmpEq q k x y s
  | .cmpLt q k x y => Sys2Proof.Machine.execCmpLt q k x y s
  | .cmpLtn q k x y => Sys2Proof.Machine.execCmpLtn q k x y s
  | .cmpTst q k x y => Sys2Proof.Machine.execCmpTst q k x y s
  | .bfx q d r t => Sys2Proof.Machine.execBfx q d r t s
  | .bfi q d r t => Sys2Proof.Machine.execBfi q d r t s
  | .addi q d imm => Sys2Proof.Machine.execAddi q d imm s
  | .andi q d imm => Sys2Proof.Machine.execAndi q d imm s
  | .ori q d imm => Sys2Proof.Machine.execOri q d imm s
  | .xori q d imm => Sys2Proof.Machine.execXori q d imm s
  | .shli q d imm => Sys2Proof.Machine.execShli q d imm s
  | .shri q d imm => Sys2Proof.Machine.execShri q d imm s
  | .sari q d imm => Sys2Proof.Machine.execSari q d imm s
  | .li q d imm => Sys2Proof.Machine.execLi q d imm s
  | .hold q imm => Sys2Proof.Machine.execHold q imm s
  | .jmp q imm => Sys2Proof.Machine.execJmp q imm s
  | .bf q k imm => Sys2Proof.Machine.execBf q k imm s
  | .bt q k imm => Sys2Proof.Machine.execBt q k imm s
  | .call q imm => Sys2Proof.Machine.execCall q imm s
  | .jr q r => Sys2Proof.Machine.execJr q r s
  | .callr q r => Sys2Proof.Machine.execCallr q r s
  | .ret q => Sys2Proof.Machine.execRet q s
  | .loop q d imm => Sys2Proof.Machine.execLoop q d imm s
  | .fand q d x y => Sys2Proof.Machine.execFand q d x y s
  | .flagOr q d x y => Sys2Proof.Machine.execFlagOr q d x y s
  | .fxor q d x y => Sys2Proof.Machine.execFxor q d x y s
  | .fnot q d r => Sys2Proof.Machine.execFnot q d r s
  | .rdc q d imm => Sys2Proof.Machine.execRdc q d imm s
  | .wrc q d imm => Sys2Proof.Machine.execWrc q d imm s
  | .ldl q f d r imm => Sys2Proof.Machine.execLdl q f d r imm s
  | .ldlIndex q f d r t => Sys2Proof.Machine.execLdlIndex q f d r t s
  | .stl q f d r imm => Sys2Proof.Machine.execStl q f d r imm s
  | .stlIndex q f d r t => Sys2Proof.Machine.execStlIndex q f d r t s
  | .ldg q f d r imm => Sys2Proof.Machine.execLdg q f d r imm s
  | .ldgPolicy q f d r t imm => Sys2Proof.Machine.execLdgPolicy q f d r t imm s
  | .ldgIndex q f d r t => Sys2Proof.Machine.execLdgIndex q f d r t s
  | .stg q f d r imm => Sys2Proof.Machine.execStg q f d r imm s
  | .stgPolicy q f d r t imm => Sys2Proof.Machine.execStgPolicy q f d r t imm s
  | .stgIndex q f d r t => Sys2Proof.Machine.execStgIndex q f d r t s
  | .cinc q d r imm => Sys2Proof.Machine.execCinc q d r imm s
  | .cincReg q d r t => Sys2Proof.Machine.execCincReg q d r t s
  | .csetb q d r imm => Sys2Proof.Machine.execCsetb q d r imm s
  | .csetbReg q d r t => Sys2Proof.Machine.execCsetbReg q d r t s
  | .cperm q d r imm => Sys2Proof.Machine.execCperm q d r imm s
  | .cpermReg q d r t => Sys2Proof.Machine.execCpermReg q d r t s
  | .cgetBase q d r => Sys2Proof.Machine.execCgetBase q d r s
  | .cgetTop q d r => Sys2Proof.Machine.execCgetTop q d r s
  | .cgetPerm q d r => Sys2Proof.Machine.execCgetPerm q d r s
  | .cgetTag q d r => Sys2Proof.Machine.execCgetTag q d r s
  | .fadd q f d x y => Sys2Proof.Machine.execFadd q f d x y s
  | .fsub q f d x y => Sys2Proof.Machine.execFsub q f d x y s
  | .fmul q f d x y => Sys2Proof.Machine.execFmul q f d x y s
  | .fdiv q f d x y => Sys2Proof.Machine.execFdiv q f d x y s
  | .fma q f d r t => Sys2Proof.Machine.execFma q f d r t s
  | .fms q f d r t => Sys2Proof.Machine.execFms q f d r t s
  | .fnma q f d r t => Sys2Proof.Machine.execFnma q f d r t s
  | .fnms q f d r t => Sys2Proof.Machine.execFnms q f d r t s
  | .fmin q f d x y => Sys2Proof.Machine.execFmin q f d x y s
  | .fmax q f d x y => Sys2Proof.Machine.execFmax q f d x y s
  | .fabs q f d r => Sys2Proof.Machine.execFabs q f d r s
  | .fneg q f d r => Sys2Proof.Machine.execFneg q f d r s
  | .fcmpEq q f d x y => Sys2Proof.Machine.execFcmpEq q f d x y s
  | .fcmpLt q f d x y => Sys2Proof.Machine.execFcmpLt q f d x y s
  | .fcmpLe q f d x y => Sys2Proof.Machine.execFcmpLe q f d x y s
  | .fcmpUn q f d x y => Sys2Proof.Machine.execFcmpUn q f d x y s
  | .fcvt q f vec d r src => Sys2Proof.Machine.execFcvt q f vec d r src s
  | .frcp q f d r => Sys2Proof.Machine.execFrcp q f d r s
  | .frsq q f d r => Sys2Proof.Machine.execFrsq q f d r s
  | .fexp2 q f d r => Sys2Proof.Machine.execFexp2 q f d r s
  | .flog2 q f d r => Sys2Proof.Machine.execFlog2 q f d r s
  | .fsig q f d r => Sys2Proof.Machine.execFsig q f d r s
  | .fsqrt q f d r => Sys2Proof.Machine.execFsqrt q f d r s
  | .ftanh q f d r => Sys2Proof.Machine.execFtanh q f d r s
  | .scale q f d r t => Sys2Proof.Machine.execScale q f d r t s
  | .vredAdd q f d r => Sys2Proof.Machine.execVredAdd q f d r s
  | .vredMin q f d r => Sys2Proof.Machine.execVredMin q f d r s
  | .vredMax q f d r => Sys2Proof.Machine.execVredMax q f d r s
  | .vredAddx q f d r => Sys2Proof.Machine.execVredAddx q f d r s
  | .vbcast q f d r => Sys2Proof.Machine.execVbcast q f d r s
  | .vperm q f d r t => Sys2Proof.Machine.execVperm q f d r t s
  | .vshuf q f d r t => Sys2Proof.Machine.execVshuf q f d r t s
  | .vslide q f d r t => Sys2Proof.Machine.execVslide q f d r t s
  | .vsel q f d r t => Sys2Proof.Machine.execVsel q f d r t s
  | .viadd q f d x y => Sys2Proof.Machine.execViadd q f d x y s
  | .visub q f d x y => Sys2Proof.Machine.execVisub q f d x y s
  | .vimul q f d x y => Sys2Proof.Machine.execVimul q f d x y s
  | .vimac q f d r t => Sys2Proof.Machine.execVimac q f d r t s
  | .vand q f d x y => Sys2Proof.Machine.execVand q f d x y s
  | .vor q f d x y => Sys2Proof.Machine.execVor q f d x y s
  | .vxor q f d x y => Sys2Proof.Machine.execVxor q f d x y s
  | .vshl q f d x y => Sys2Proof.Machine.execVshl q f d x y s
  | .vldl q f d r imm => Sys2Proof.Machine.execVldl q f d r imm s
  | .vstl q f d r imm => Sys2Proof.Machine.execVstl q f d r imm s
  | .vgath q f d r t => Sys2Proof.Machine.execVgath q f d r t s
  | .vscat q f d r t => Sys2Proof.Machine.execVscat q f d r t s
  | .atomAdd q m d r t => Sys2Proof.Machine.execAtomAdd q m d r t s
  | .atomMin q m d r t => Sys2Proof.Machine.execAtomMin q m d r t s
  | .atomMax q m d r t => Sys2Proof.Machine.execAtomMax q m d r t s
  | .atomMinn q m d r t => Sys2Proof.Machine.execAtomMinn q m d r t s
  | .atomMaxn q m d r t => Sys2Proof.Machine.execAtomMaxn q m d r t s
  | .atomAnd q m d r t => Sys2Proof.Machine.execAtomAnd q m d r t s
  | .atomOr q m d r t => Sys2Proof.Machine.execAtomOr q m d r t s
  | .atomXor q m d r t => Sys2Proof.Machine.execAtomXor q m d r t s
  | .atomXchg q m d r t => Sys2Proof.Machine.execAtomXchg q m d r t s
  | .atomCas q m d r t => Sys2Proof.Machine.execAtomCas q m d r t s
  | .atomMinp q d r t => Sys2Proof.Machine.execAtomMinp q d r t s
  | .atomSt4 q d r t => Sys2Proof.Machine.execAtomSt4 q d r t s
  | .redAdd q m r t => Sys2Proof.Machine.execRedAdd q m r t s
  | .redMin q m r t => Sys2Proof.Machine.execRedMin q m r t s
  | .redMax q m r t => Sys2Proof.Machine.execRedMax q m r t s
  | .redMinn q m r t => Sys2Proof.Machine.execRedMinn q m r t s
  | .redMaxn q m r t => Sys2Proof.Machine.execRedMaxn q m r t s
  | .redAnd q m r t => Sys2Proof.Machine.execRedAnd q m r t s
  | .redOr q m r t => Sys2Proof.Machine.execRedOr q m r t s
  | .redXor q m r t => Sys2Proof.Machine.execRedXor q m r t s
  | .redXchg q m r t => Sys2Proof.Machine.execRedXchg q m r t s
  | .redMinp q r t => Sys2Proof.Machine.execRedMinp q r t s
  | .redSt4 q r t => Sys2Proof.Machine.execRedSt4 q r t s
  | .gath q f d r => Sys2Proof.Machine.execGath q f d r s
  | .prefSlice q r t imm => Sys2Proof.Machine.execPrefSlice q r t imm s
  | .prefStage q r t imm => Sys2Proof.Machine.execPrefStage q r t imm s
  | .fence q sc => Sys2Proof.Machine.execFence q sc s
  | .rel q sc => Sys2Proof.Machine.execRel q sc s
  | .acq q sc => Sys2Proof.Machine.execAcq q sc s
  | .ldgv q d r imm => Sys2Proof.Machine.execLdgv q d r imm s
  | .stgv q d r imm => Sys2Proof.Machine.execStgv q d r imm s
  | .copyLin q d r => Sys2Proof.Machine.execCopyLin q d r s
  | .copy2d q d r => Sys2Proof.Machine.execCopy2d q d r s
  | .copyList q d r => Sys2Proof.Machine.execCopyList q d r s
  | .copyFill q d r => Sys2Proof.Machine.execCopyFill q d r s
  | .dload q d r => Sys2Proof.Machine.execDload q d r s
  | .dseal q r => Sys2Proof.Machine.execDseal q r s
  | .dopen q r => Sys2Proof.Machine.execDopen q r s
  | .dstat q d => Sys2Proof.Machine.execDstat q d s
  | .dwin q d r => Sys2Proof.Machine.execDwin q d r s
  | .recv q d t => Sys2Proof.Machine.execRecv q d t s
  | .sendm q d r t => Sys2Proof.Machine.execSendm q d r t s
  | .mfmt q d r => Sys2Proof.Machine.execMfmt q d r s
  | .mm q d r => Sys2Proof.Machine.execMm q d r s
  | .mmz q d r => Sys2Proof.Machine.execMmz q d r s
  | .mdrain q d r => Sys2Proof.Machine.execMdrain q d r s
  | .maccLoad q r => Sys2Proof.Machine.execMaccLoad q r s
  | .maccStore q r => Sys2Proof.Machine.execMaccStore q r s
  | .maccClear q => Sys2Proof.Machine.execMaccClear q s
  | .walk q d r => Sys2Proof.Machine.execWalk q d r s
  | .wresume q d r => Sys2Proof.Machine.execWresume q d r s
  | .wstat q d => Sys2Proof.Machine.execWstat q d s
  | .sort q d r => Sys2Proof.Machine.execSort q d r s
  | .sortc q d r => Sys2Proof.Machine.execSortc q d r s
  | .allot q d r => Sys2Proof.Machine.execAllot q d r s
  | .shrink q d r => Sys2Proof.Machine.execShrink q d r s
  | .bind q d r => Sys2Proof.Machine.execBind q d r s
  | .bindp q d port out => Sys2Proof.Machine.execBindp q d port out s
  | .unbind q d => Sys2Proof.Machine.execUnbind q d s
  | .bstat q d r => Sys2Proof.Machine.execBstat q d r s
  | .launch q d r => Sys2Proof.Machine.execLaunch q d r s
  | .fork q r => Sys2Proof.Machine.execFork q r s
  | .join q r => Sys2Proof.Machine.execJoin q r s
  | .bar q d r => Sys2Proof.Machine.execBar q d r s
  | .barx q r => Sys2Proof.Machine.execBarx q r s
  | .xsel q d r t => Sys2Proof.Machine.execXsel q d r t s
  | .xsend q r => Sys2Proof.Machine.execXsend q r s
  | .xend q => Sys2Proof.Machine.execXend q s
  | .waitv q d r t => Sys2Proof.Machine.execWaitv q d r t s
  | .yield q => Sys2Proof.Machine.execYield q s
  | .seam q d r => Sys2Proof.Machine.execSeam q d r s
  | .panel q d r => Sys2Proof.Machine.execPanel q d r s
  | .seamend q => Sys2Proof.Machine.execSeamend q s
  | .spos q d => Sys2Proof.Machine.execSpos q d s
  | .sresume q => Sys2Proof.Machine.execSresume q s
  | .trap q fn => Sys2Proof.Machine.execTrap q fn s
  | .tret q => Sys2Proof.Machine.execTret q s
  | .hcall q fn => Sys2Proof.Machine.execHcall q fn s
  | .hcallSystem q fn => Sys2Proof.Machine.execHcallSystem q fn s
  | .hcallResize q => Sys2Proof.Machine.execHcallResize q s
  | .hcallReturnSwatch q => Sys2Proof.Machine.execHcallReturnSwatch q s
  | .hcallAttest q => Sys2Proof.Machine.execHcallAttest q s
  | .hcallDamaskTemplate q => Sys2Proof.Machine.execHcallDamaskTemplate q s
  | .mark q fn => Sys2Proof.Machine.execMark q fn s
  | .xinv q d r => Sys2Proof.Machine.execXinv q d r s
  | .idle q => Sys2Proof.Machine.execIdle q s
  | .idleWake tid => Sys2Proof.Machine.execIdleWake tid s
  | .hcallReply tid g4 regs mem => Sys2Proof.Machine.execHcallReply tid g4 regs mem s
  | .trapEntry tid code tval => Sys2Proof.Machine.execTrapEntry tid code tval s
  | .lateFaultTaken tid => Sys2Proof.Machine.execLateFaultTaken tid s
  | .storeFaultArrival n => Sys2Proof.Machine.execStoreFaultArrival n s
  | .tokenCompletion n => Sys2Proof.Machine.execTokenCompletion n s
  | .loadReply n => Sys2Proof.Machine.execLoadReply n s
  | .messageDelivery n => Sys2Proof.Machine.execMessageDelivery n s
  | .portWordArrival n => Sys2Proof.Machine.execPortWordArrival n s
  | .streamElementFetch tid r => Sys2Proof.Machine.execStreamElementFetch tid r s
  | .localBankGrant bank => Sys2Proof.Machine.execLocalBankGrant bank s
  | .channelPacketSend from_ => Sys2Proof.Machine.execChannelPacketSend from_ s
  | .bridgeForward to_ => Sys2Proof.Machine.execBridgeForward to_ s
  | .homeRequest slice => Sys2Proof.Machine.execHomeRequest slice s
  | .retryReissue slice => Sys2Proof.Machine.execRetryReissue slice s
  | .phaseAnswer core dest => Sys2Proof.Machine.execPhaseAnswer core dest s
  | .phaseComplete core => Sys2Proof.Machine.execPhaseComplete core s
  | .pinRecall slice line => Sys2Proof.Machine.execPinRecall slice line s
  | .pinEnd slice line => Sys2Proof.Machine.execPinEnd slice line s
  | .localWindowAccess at_ => Sys2Proof.Machine.execLocalWindowAccess at_ s
  | .fabricExportRequest from_ off n op data => Sys2Proof.Machine.execFabricExportRequest from_ off n op data s
  | .grantRecall grant => Sys2Proof.Machine.execGrantRecall grant s
  | .recallAck bolt slot => Sys2Proof.Machine.execRecallAck bolt slot s
  | .recallTimeout grant => Sys2Proof.Machine.execRecallTimeout grant s
  | .refreshStart cluster group => Sys2Proof.Machine.execRefreshStart cluster group s
  | .refreshEnd cluster group => Sys2Proof.Machine.execRefreshEnd cluster group s
  | .damaskSealed cluster => Sys2Proof.Machine.execDamaskSealed cluster s
  | .damaskOpened cluster => Sys2Proof.Machine.execDamaskOpened cluster s
  | .copyEngineUnit cluster => Sys2Proof.Machine.execCopyEngineUnit cluster s
  | .dloadUnit cluster => Sys2Proof.Machine.execDloadUnit cluster s
  | .gathComplete cluster => Sys2Proof.Machine.execGathComplete cluster s
  | .mfmtContextChange core => Sys2Proof.Machine.execMfmtContextChange core s
  | .wstatAtHead core => Sys2Proof.Machine.execWstatAtHead core s
  | .arrayGrant cluster => Sys2Proof.Machine.execArrayGrant cluster s
  | .matrixRequestComplete core => Sys2Proof.Machine.execMatrixRequestComplete core s
  | .sorterAccept core => Sys2Proof.Machine.execSorterAccept core s
  | .sorterRun die => Sys2Proof.Machine.execSorterRun die s
  | .blockPlacement bolt => Sys2Proof.Machine.execBlockPlacement bolt s
  | .barrierDepart tid => Sys2Proof.Machine.execBarrierDepart tid s
  | .exchangeEnter bolt group => Sys2Proof.Machine.execExchangeEnter bolt group s
  | .exchangeWordHop n => Sys2Proof.Machine.execExchangeWordHop n s
  | .exchangeEnd bolt => Sys2Proof.Machine.execExchangeEnd bolt s
  | .threadEvict what => Sys2Proof.Machine.execThreadEvict what s
  | .threadRestore tid => Sys2Proof.Machine.execThreadRestore tid s
  | .waitvWake tid => Sys2Proof.Machine.execWaitvWake tid s
  | .waitvTimeout tid => Sys2Proof.Machine.execWaitvTimeout tid s
  | .seamForward tid => Sys2Proof.Machine.execSeamForward tid s
  | .seamfray tid => Sys2Proof.Machine.execSeamfray tid s
  | .seamendHeadComplete tid => Sys2Proof.Machine.execSeamendHeadComplete tid s
  | .press bolt what => Sys2Proof.Machine.execPress bolt what s
  | .boltResume bolt => Sys2Proof.Machine.execBoltResume bolt s
  | .takeIn bolt clusters slices => Sys2Proof.Machine.execTakeIn bolt clusters slices s
  | .letOut bolt clusters slices => Sys2Proof.Machine.execLetOut bolt clusters slices s
  | .blockMigrate bolt block cluster => Sys2Proof.Machine.execBlockMigrate bolt block cluster s
  | .shadowFetch slice line => Sys2Proof.Machine.execShadowFetch slice line s
  | .shadowLineArrival slice line => Sys2Proof.Machine.execShadowLineArrival slice line s
  | .sweeper slice line => Sys2Proof.Machine.execSweeper slice line s
  | .scrub cluster slice => Sys2Proof.Machine.execScrub cluster slice s
  | .rateRelease cluster cls => Sys2Proof.Machine.execRateRelease cluster cls s
  | .throttleChange cluster k => Sys2Proof.Machine.execThrottleChange cluster k s
  | .timeshareSwitch from_ to_ share => Sys2Proof.Machine.execTimeshareSwitch from_ to_ share s
  | .watchdog bolt => Sys2Proof.Machine.execWatchdog bolt s
  | .triggerMatch bolt kind value => Sys2Proof.Machine.execTriggerMatch bolt kind value s
  | .debugStop bolt => Sys2Proof.Machine.execDebugStop bolt s
  | .localEccError what a fatal => Sys2Proof.Machine.execLocalEccError what a fatal s
  | .sliceTagParityError slice set => Sys2Proof.Machine.execSliceTagParityError slice set s
  | .engineOutOfService engine unit out => Sys2Proof.Machine.execEngineOutOfService engine unit out s
  | .qclassWrite tid v => Sys2Proof.Machine.execQclassWrite tid v s
  | .permtWrite tid j v => Sys2Proof.Machine.execPermtWrite tid j v s
  | .wdogWrite tid v => Sys2Proof.Machine.execWdogWrite tid v s
  | .rateWrite tid j v => Sys2Proof.Machine.execRateWrite tid j v s
  | .trctlWrite tid v => Sys2Proof.Machine.execTrctlWrite tid v s
  | .trringWrite tid v => Sys2Proof.Machine.execTrringWrite tid v s
  | .lpregWrite tid j v => Sys2Proof.Machine.execLpregWrite tid j v s
  | .layoutTableWrite tid j v => Sys2Proof.Machine.execLayoutTableWrite tid j v s
  | .groupTableWrite tid j v => Sys2Proof.Machine.execGroupTableWrite tid j v s
  | .evcWrite tid j v => Sys2Proof.Machine.execEvcWrite tid j v s
  | .evsWrite tid j v => Sys2Proof.Machine.execEvsWrite tid j v s
  | .controlRegisterWrite tid j v => Sys2Proof.Machine.execControlRegisterWrite tid j v s
  | .moduleReset load => Sys2Proof.Machine.execModuleReset load s
  | .selfTestRelease => Sys2Proof.Machine.execSelfTestRelease s
  | .boltCreate bolt image clusters slices swatches root => Sys2Proof.Machine.execBoltCreate bolt image clusters slices swatches root s
  | .probe core side => Sys2Proof.Machine.execProbe core side s
  | .reply core side => Sys2Proof.Machine.execReply core side s
  | .imageHeader core side => Sys2Proof.Machine.execImageHeader core side s
  | .imageData core side => Sys2Proof.Machine.execImageData core side s
  | .ack core side => Sys2Proof.Machine.execAck core side s
  | .ackHolderPush core => Sys2Proof.Machine.execAckHolderPush core s
  | .memoryRequestFlit lane flit => Sys2Proof.Machine.execMemoryRequestFlit lane flit s
  | .memoryReplyFlit lane flit => Sys2Proof.Machine.execMemoryReplyFlit lane flit s
  | .grantOrRecallFlit lane flit => Sys2Proof.Machine.execGrantOrRecallFlit lane flit s
  | .checkpointDataFlit lane flit => Sys2Proof.Machine.execCheckpointDataFlit lane flit s
  | .resendRequest lane flit => Sys2Proof.Machine.execResendRequest lane flit s
  | .timeSync flit => Sys2Proof.Machine.execTimeSync flit s
  | .checkpoint act => Sys2Proof.Machine.execCheckpoint act s
  | .powerLimitSet watts => Sys2Proof.Machine.execPowerLimitSet watts s
  | .rolnisRestart tid pc => Sys2Proof.Machine.execRolnisRestart tid pc s
  | .boltEnd bolt => Sys2Proof.Machine.execBoltEnd bolt s
  | .swatchAdd bolt swatch => Sys2Proof.Machine.execSwatchAdd bolt swatch s
  | .dramResponse slice imm => Sys2Proof.Machine.execDramResponse slice imm s
  | .recoveryNewImage image => Sys2Proof.Machine.execRecoveryNewImage image s
  | .fabricJoin act => Sys2Proof.Machine.execFabricJoin act s
  | .discardedWord core side => Sys2Proof.Machine.execDiscardedWord core side s
  | .discardedFlit lane flit => Sys2Proof.Machine.execDiscardedFlit lane flit s

end Sys2Proof.Machine
end

