-- ==== Sys2Proof/Machine/Choose.lean ====
section
/-!
DEFINITION. What moves next. One step of the machine is one event row, or one issue of a core; the order of agents is free, and is
taken from the plan of the state, else from a default: an event that is due, else a core in cyclic order (R296), else time passes.
-/
namespace Sys2Proof.Machine

open Host (Outcome)

/-! ## Time -/

/-- A bolt's cycle is eligible for its watchdog (R359). -/
def eligible (s : State) (b : Nat) (bo : Bolt) : Bool :=
  !bo.pressed && bo.pressedBlocks.isEmpty && bo.departing.isEmpty &&
  bo.clusters.all (fun cl => decide ((s.cluster cl).throttle = 16)) && !s.clusters.any (fun p => p.2.rated.any (fun r => decide (r.bolt = b))) &&
  !s.threads.any (fun p => decide (p.2.bolt = b) && (match p.2.wait with | .hcall _ => true | _ => false))

/-- A token bucket after `n` ticks (R357): RATE thousandths of a byte a tick, BURST KiB at most. -/
def refill (n : Nat) (rate : W64) (b : Int) : Int :=
  if rate.getLsbD 63 then min ((bits rate.toNat 47 32 * 1024000 : Nat) : Int) (b + ((bits rate.toNat 31 0 * n : Nat) : Int)) else b

/-- A bolt after `n` ticks: its buckets refill, lost and eligible cycles count at 940 MHz (R357 to R359). -/
def boltTime (s : State) (n b : Nat) (bo : Bolt) : Bolt :=
  { bo with
    bucket := (bo.rate.filter (fun p => p.2.getLsbD 63)).foldl (fun m p => Map.set m p.1 (refill n p.2 (Map.get m p.1 0))) bo.bucket
    lost := bo.lost + n * 94 * (bo.clusters.map (fun cl => 16 - (s.cluster cl).throttle)).sum
    wcount := if bo.wdog.getLsbD 63 ∧ eligible s b bo then bo.wcount + 94 * n else bo.wcount }

/-! ## One thread -/

/-- The head's guard of an instruction, as the stream carries it (R315). -/
def streamGuard (t : Thread) : Instr → Bool
  | .seamend q => guardOn t q
  | _ => true

/-- The release before an element of a write stream whose policy asks for one (R94): as another release, in stages; once it is over, and
a store fault of the thread reported (R333), the instruction issues again. (assumption 18, DEDUCED) -/
def streamReleaseStep (tid sc : Nat) (s : State) : State :=
  let finish := fun (s : State) =>
    let s1 := releaseEnd (s.setT { s.t with stage := 0, wait := .none }) sc
    if hasStoreFault s1 tid then takeStoreFault s1 tid s1.t.pc else s1.setT { s1.t with relOk := true }
  if s.t.stage = 0 then
    match releaseBegin s sc with
    | .error _ => s
    | .ok s1 => if releaseDone s1 then finish s1 else s1.setT { s1.t with stage := 1 }
  else if releaseDone s then finish s else s

/-- What comes before the current thread's instruction (R94): the release of a write-stream element, the acquire of the last one, which the
thread's earlier reads must precede; the state that waits, or goes on. -/
def beforeIssue (tid : Nat) (s : State) : Except State State :=
  match s.t.wait with
  | .streamRelease sc => .error (streamReleaseStep tid sc s)
  | _ =>
    if !s.t.acqDue ∨ s.t.stage ≠ 0 then .ok s
    else if readsDone s tid then .ok (s.setT { s.t with acqDue := false })
    else .error (setWait s tid .release)

/-- The current thread's next instruction, executed: a late fault is taken first (R329); else the instruction is fetched, decoded and
given its meaning (R52); what the head of a seam issues is forwarded (R309). (assumption 5, DESIGN CHOICE; assumption 38, DEDUCED) -/
def threadStep (tid : Nat) (s0 : State) : Step :=
  let s := { s0 with cur := tid }
  if !(s.thread tid).late.isEmpty && atBoundary (s.thread tid) then execLateFaultTaken tid s
  else match beforeIssue tid s with
    | .error s1 => .next s1
    | .ok s1 => match fetch s1 with
      | .error x => .next (stopped s1 x)
      | .ok (s2, i) =>
        match exec i s2 with
        | .next s3 => .next (afterHead s3 (s1.thread tid) tid i (streamGuard (s1.thread tid) i))
        | .fault f => .fault f
        | .refused r => .refused r

/-- The forwarded instruction of a seam member, executed at its index (R309). -/
def memberStep (tid idx : Nat) (i : Instr) (s : State) : Step :=
  match beforeIssue tid { s with cur := tid } with
  | .error s1 => .next { s1 with forward := none }
  | .ok s1 => match exec i (atIndex s1 tid idx) with
    | .next s2 => .next (afterMember { s2 with forward := none } tid)
    | .fault f => .fault f
    | .refused r => .refused r

/-- The next index of a seam member, executed whether or not it is in step; nothing where the head has not issued it. -/
def memberTry (tid : Nat) (s : State) : Step :=
  match (s.thread tid).seam with
  | none => .next s
  | some m => match forwarded s m.head m.next with
    | none => .next s
    | some (i, g, _) => memberStep tid m.next i { s with forward := some (tid, m.next, i, g) }

/-! ## One core (R296, R307, R309) -/

/-- What a thread would do now: a follower of a seam executes its next index, another thread its next instruction. -/
def attempt (tid : Nat) (s : State) : Step := if follows (s.thread tid) then memberTry tid s else threadStep tid s

/-- The cycle of its core in which an attempt of a thread issues; none where nothing issues. -/
def issuedAt (s : State) (core : Nat) : Step → Option Nat
  | .next s' => if (s'.core core).cycle = (s.core core).cycle then none else some (s'.core core).cycle
  | _ => none

/-- Whether another thread of a seam member's core that is ready has been passed over three times: it takes the cycle (R296). -/
def overdue (s : State) (tid : Nat) : Bool :=
  (List.range 4).any (fun i =>
    let k := coreOf tid * 4 + i
    decide (k ≠ tid) && decide ((s.thread k).passed ≥ 3) && mayIssue s k && !follows (s.thread k) && (issuedAt s (coreOf tid) (threadStep k s)).isSome)

/-- Whether an attempt of a thread frays its seam, or ends in a fault that is discarded for one that has frayed it (R317). -/
def frays (s : State) (tid : Nat) : Step → Bool
  | .next s' => (match (s'.thread tid).seam, (s.thread tid).seam with
    | some m, some k => m.stopped && !k.stopped
    | _, _ => false)
  | _ => false

/-- Whether a seam member could execute its next index now, or take there the fault that it meets, or one that came late (R309, R317). -/
def couldIssue (s : State) (tid : Nat) : Bool :=
  let t := s.thread tid
  let x := memberTry tid s
  mayIssue s tid && ((!t.late.isEmpty && atBoundary t) || (!overdue s tid && ((issuedAt s (coreOf tid) x).isSome || frays s tid x)))

/-- Whether a member of a seam is held because one that executes in the same cycle stalls: a stall at any member freezes every member
(R309). -/
def frozen (s : State) (tid : Nat) : Bool :=
  let t := s.thread tid
  match t.seam with
  | some m => t.seamed && !t.handler && !inProgress t && (sameCycle s tid m).any (fun j => !couldIssue s j)
  | none => false

/-- Whether a seam lets a thread go on: the head while its members keep step, a follower that is in step with something to execute. -/
def seamLets (s : State) (tid : Nat) : Bool :=
  let t := s.thread tid
  if follows t then
    match t.seam with
    | some m => !m.stopped && (t.late.isEmpty || decide (t.stage ≠ 0)) && inStep s tid m && (forwarded s m.head m.next).isSome
    | none => false
  else headInStep s tid

/-- Whether a thread's attempt would change the state: a thread that waits issues again when it would. -/
def changes (s : State) (tid : Nat) : Bool :=
  match attempt tid s with
  | .next s' => decide ({ s' with cur := s.cur } ≠ s)
  | _ => true

/-- Whether a seam member whose cycle has come can go on with what its next instruction waits for, an element of a stream or the release
before one: it does so although the others of the cycle, which its stall holds, have not executed (R309). (assumption 51, DEDUCED) -/
def prepares (s : State) (tid : Nat) : Bool :=
  let t := s.thread tid
  match t.seam with
  | none => false
  | some m =>
    let x := attempt tid s
    t.seamed && !t.handler && !m.stopped && t.late.isEmpty && !inProgress t && cycleCome s tid m && (issuedAt s (coreOf tid) x).isNone &&
    !frays s tid x && changes s tid

/-- Whether a thread may go on: its core is out of reset, nothing holds it, and it does not wait for what is still to come. -/
def mayGo (s : State) (tid : Nat) : Bool :=
  (s.core (coreOf tid)).live && mayIssue s tid &&
  ((seamLets s tid && !frozen s tid && (decide ((s.thread tid).wait = .none) || changes s tid)) || prepares s tid)

/-- The threads of a core that may go on. -/
def candidates (s : State) (c : Nat) : List Nat := ((List.range 4).map (c * 4 + ·)).filter (mayGo s)

/-- The thread passed over most often, three times at least; the lowest slot among equals. -/
def passedMost (s : State) (l : List Nat) : Option Nat :=
  l.foldl (fun b t => if (s.thread t).passed < 3 then b else match b with
    | none => some t
    | some x => if (s.thread t).passed > (s.thread x).passed then some t else b) none

/-- The slots in cyclic order after the one that issued last. -/
def cyclic (s : State) (c : Nat) (l : List Nat) : List Nat :=
  ((List.range 4).map (fun i => c * 4 + ((s.core c).last + 1 + i) % 4)).filter l.contains

/-- The slots that go before a thread that issued YIELD, where `l` are the threads ready in cycle `n`: those ready in the cycle after the
YIELD, which is the core's next one, each until it is no longer ready (R307). -/
def yieldsTo (s : State) (l : List Nat) (n tid : Nat) : List Nat :=
  let t := s.thread tid
  let ready := (l.filter (· ≠ tid)).map slotOf
  if t.yielding then (if n ≤ max t.cyc (s.core (coreOf tid)).cycle + 1 then ready else []) else t.yields.filter ready.contains

/-- The thread a core issues from among those ready in cycle `n` (R296): passed over too often; else of those that have not yielded to
another ready thread, where there are such (R307), a member of a seam or an exchange phase, or the next in cyclic order. -/
def pick (s : State) (c : Nat) (l : List Nat) (n : Nat) : Option Nat :=
  match passedMost s l with
  | some t => some t
  | none =>
    let order := cyclic s c l
    let first := order.filter (fun t => (yieldsTo s l n t).isEmpty)
    let l1 := if first.isEmpty then order else first
    match l1.find? (fun t => (s.thread t).seamed || (s.thread t).xchg) with
    | some t => some t
    | none => l1.head?

/-- After thread `t` of a core has issued in a cycle `n` in which the threads `l` were ready, in state `s`: the others have been passed over,
and its turn is over for those that yielded to it. -/
def passOver (s : State) (c : Nat) (l : List Nat) (n t : Nat) (s1 : State) : State :=
  ((List.range 4).map (c * 4 + ·)).foldl (fun s' k =>
    let x := s'.thread k
    if x.occ = .empty then s'
    else s'.setThread k { x with
      passed := if k ≠ t ∧ l.contains k then x.passed + 1 else x.passed
      yielding := x.yielding && decide (k = t)
      yields := if k = t ∧ x.yielding then [] else (yieldsTo s l n k).filter (· ≠ slotOf t) }) s1

/-- The state after a step, changed. -/
def onNext (f : State → State) : Step → Step
  | .next s => .next (f s)
  | x => x

/-- The cycles from `a + 1` to `b` of a core in which a thread's next instruction is held by a stall-count shortfall (R56, R368). -/
def shortIn (s : State) (core tid a b : Nat) : Nat :=
  match attempt tid s with
  | .next s' =>
    let t := s.thread tid
    let at_ := (s'.core core).cycle
    if at_ ≤ (s.core core).cycle + 1 then 0
    else min at_ (b + 1) - max (t.cyc + ((s'.thread tid).cnt - t.cnt)) (a + 1)
  | _ => 0

/-- The shortfalls of the threads of a core, but for one that issues then, counted over the cycles from `a + 1` to `b`. -/
def countShort (s : State) (core a b : Nat) (but : Option Nat) : State :=
  ((candidates s core).filter (fun t => decide (some t ≠ but))).foldl (fun s' t => countEvent s' t 3 (shortIn s core t a b)) s

/-- A core issues from thread `t` in cycle `n`, in which the threads `l` were ready. -/
def issueFrom (c : Nat) (l : List Nat) (n t : Nat) (s : State) : Step :=
  onNext (fun s1 => wakeOuts (passOver s c l n t s1) c) (attempt t (countShort s c (s.core c).cycle n (some t)))

/-- An issue of a core (R296): in the first cycle in which some of its threads are ready, one of them issues. An attempt that issues
nothing, which shows what its thread waits for or completes what it has in progress, takes no cycle; where no thread may go on, only time
passes. -/
def coreStep (c : Nat) (s : State) : Step :=
  let tries := (candidates s c).map (fun t => (t, attempt t s))
  match tries.find? (fun x => (issuedAt s c x.2).isNone) with
  | some x => onNext (fun s1 => wakeOuts s1 c) x.2
  | none => match leastNat (tries.filterMap (fun x => issuedAt s c x.2)) with
    | none => .next s
    | some n =>
      let l := (tries.filter (fun x => (issuedAt s c x.2).all (· ≤ n))).map (·.1)
      match pick s c l n with
      | none => .next s
      | some t => issueFrom c l n t s

/-- A seam member named by SEAM_FORWARD issues, where its core may issue from it: no other thread of the core is ready in an earlier cycle,
or overdue (R296, R309). -/
def memberMove (tid : Nat) (s0 : State) : Step :=
  let s := { s0 with forward := none }
  let c := coreOf tid
  if !mayGo s tid then .next s
  else match issuedAt s c (attempt tid s) with
    | none => onNext (fun s1 => wakeOuts s1 c) (attempt tid s)
    | some n =>
      let at_ := fun (t : Nat) => issuedAt s c (attempt t s)
      let l := (candidates s c).filter (fun t => (at_ t).any (· ≤ n))
      if l.any (fun t => (at_ t).any (· < n)) ∨ (passedMost s l).any (· ≠ tid) then .next s else issueFrom c l n tid s

/-! ## Time -/

/-- Time gone by on a core counted in cycles: 0.94 a tick at the full clock (R358, R368, R369). -/
def coreTime (n : Nat) (s : State) (c : Nat) : State :=
  let x := s.core c
  if !x.live ∨ !hasCore c then s
  else
    let owed := x.frac + ((n * 94 * (s.cluster (clusterOf c)).throttle : Nat) : Int)
    let m := owed.toNat / 1600
    let s1 := countCycles (if m = 0 then s else countShort s c x.cycle (x.cycle + m) none) c m none
    s1.setCore c { s1.core c with cycle := x.cycle + m, frac := owed - 1600 * ((m : Nat) : Int) }

/-- Time passes before a step: a tick, and what the state's list of delays adds. (assumption 7, DESIGN CHOICE) -/
def passTime (s : State) : State :=
  let n := 1 + s.delays.headD 0
  (s.cores.map (·.1)).foldl (coreTime n)
    { s with gtime := s.gtime + n, delays := s.delays.tail, bolts := s.bolts.map (fun p => (p.1, boltTime s n p.1 p.2)) }

/-! ## Events that are due -/

/-- Events of a thread. -/
def threadEvents (p : Nat × Thread) : List (State → Step) :=
  match p.2.occ with
  | .empty => []
  | .evicted => [execThreadRestore p.1]
  | _ =>
    if !hasThread p.1 then []
    else
      (match p.2.wait with
        | .barrier _ _ _ => [execBarrierDepart p.1]
        | .exchange b j _ => [execExchangeEnter b j]
        | .xend => [execExchangeEnd p.2.bolt]
        | .watch _ _ => [execWaitvWake p.1, execWaitvTimeout p.1]
        | .idle => [execIdleWake p.1]
        | .seamEnd => [execSeamendHeadComplete p.1]
        | _ => []) ++
      (if p.2.late.isEmpty then [] else [execLateFaultTaken p.1]) ++
      (if p.2.seamed then [execSeamfray p.1] else []) ++ [execThreadEvict ⟨p.1, false⟩]

/-- Events of a core. (assumption 11, DESIGN CHOICE) -/
def coreEvents (s : State) (p : Nat × Core) : List (State → Step) :=
  (match answerDue s p.1 with | some d => [execPhaseAnswer p.1 d] | none => []) ++
  [execPhaseComplete p.1, execMfmtContextChange p.1, execWstatAtHead p.1, execMatrixRequestComplete p.1, execSorterAccept p.1] ++
  (if bootRouter s p.1 then
    execAckHolderPush p.1 :: (List.range 4).flatMap (fun i =>
      let d := BitVec.ofNat 2 i
      [execProbe p.1 d, execReply p.1 d, execImageHeader p.1 d, execImageData p.1 d, execAck p.1 d, execDiscardedWord p.1 d])
  else [])

/-- The banks of a cluster at which a request waits. -/
def waitingBanks (c : Cluster) : List Nat := (c.lq.flatMap (fun r => r.left.map bankOf)).eraseDups

/-- Events of a cluster, or of what stands for a system-core port. -/
def clusterEvents (p : Nat × Cluster) : List (State → Step) :=
  (waitingBanks p.2).map (fun b => execLocalBankGrant ⟨p.1, b⟩) ++
  [execChannelPacketSend ⟨p.1, true⟩, execChannelPacketSend ⟨p.1, false⟩, execLocalWindowAccess ⟨p.1, true⟩, execLocalWindowAccess ⟨p.1, false⟩,
   execCopyEngineUnit p.1, execDloadUnit p.1, execGathComplete p.1, execDamaskSealed p.1, execDamaskOpened p.1, execArrayGrant p.1,
   execRateRelease p.1 0, execRateRelease p.1 1, execRateRelease p.1 2, execRateRelease p.1 3] ++
  (if p.2.refreshing = 0 then [] else (List.range 8).map (fun g => execRefreshEnd p.1 (BitVec.ofNat 3 g)))

/-- Events of a slice. -/
def sliceEvents (p : Nat × Slice) : List (State → Step) :=
  [execHomeRequest p.1, execRetryReissue p.1] ++ (p.2.ways.filter (fun w => w.2.pin.isSome)).flatMap (fun w => [execPinRecall p.1 w.2.line, execPinEnd p.1 w.2.line]) ++
  p.2.heldReqs.map (fun r => execShadowFetch p.1 (r.va / 64)) ++ p.2.fetching.map (fun l => execShadowLineArrival p.1 l) ++
  p.2.ways.map (fun w => execSweeper p.1 w.2.line) ++ p.2.staging.map (fun e => execSweeper p.1 e.line) ++ [execSweeper p.1 0] ++
  (List.range p.2.staging.length).map (execDramResponse p.1)

/-- Events of a bolt, with the restores of the seams that wait in its reserved memory (R349). (assumption 11, DESIGN CHOICE) -/
def boltEvents (s : State) (p : Nat × Bolt) : List (State → Step) :=
  (s.blocks.filter (fun b => decide (b.2.bolt = p.1) && inReserve b.2.cluster)).flatMap (fun b => p.2.clusters.map (execBlockMigrate p.1 b.2.window)) ++
  [execBlockPlacement p.1, execWatchdog p.1]

/-- The events that may be due. (assumption 5, DESIGN CHOICE; assumption 11, DESIGN CHOICE) -/
def dueEvents (s : State) : List (State → Step) :=
  (List.range s.storeFaults.length).map execStoreFaultArrival ++ (List.range s.completions.length).map execTokenCompletion ++
  (List.range s.replies.length).map execLoadReply ++ (List.range s.pwords.length).map execPortWordArrival ++
  (List.range s.msgs.length).map execMessageDelivery ++ (List.range s.xwords.length).map execExchangeWordHop ++
  s.threads.flatMap threadEvents ++ (s.cores.filter (fun p => hasCore p.1)).flatMap (coreEvents s) ++
  (s.clusters.filter (fun p => hasPort p.1)).flatMap clusterEvents ++ s.slices.flatMap sliceEvents ++
  s.dies.flatMap (fun p => [execBridgeForward ⟨p.1, true⟩, execBridgeForward ⟨p.1, false⟩, execSorterRun p.1]) ++ s.bolts.flatMap (boltEvents s)

/-- The state after the first due event that changes it. (assumption 5, DESIGN CHOICE) -/
def eventStep (s : State) : Option State :=
  (dueEvents s).findSome? (fun e => match e s with
    | .next s' => if s' ≠ s then some s' else none
    | _ => none)

/-- The next core, in cyclic order after that of the thread that moved last, with a thread that may go on. (assumption 5, DESIGN CHOICE) -/
def nextCore (s : State) : Option Nat :=
  let cs := (s.cores.map (·.1)).filter hasCore
  (cs.filter (fun c => decide (c > s.curCore)) ++ cs.filter (fun c => decide (c ≤ s.curCore))).find? (fun c => !(candidates s c).isEmpty)

/-! ## The move -/

/-- Whether an entry is an event row: an instruction has parcels, an event none. -/
def isEvent (i : Instr) : Bool := (encode i).isEmpty

/-- A move made. (assumption 1, DESIGN CHOICE) -/
def moveStep (m : Move) (s : State) : Step :=
  match m with
  | .event i => if isEvent i then exec i s else .next s
  | .core c => coreStep c s

/-- A bolt whose debug stop is due (R364): one whose boundary came while it could not be pressed. -/
def stopDueBolt (s : State) : Option Nat := (s.bolts.find? (fun p => p.2.stopDue && p.2.trctl.getLsbD 61 && !p.2.pressed)).map (·.1)

/-- The move of a step: a forwarded instruction of a seam member, a debug stop at its boundary, the plan, the default. (assumption 5, DESIGN CHOICE) -/
def chooseMove (s : State) : Step :=
  match s.forward with
  | some (tid, _, _, _) => memberMove tid s
  | none => match stopDueBolt s with
    | some b => execDebugStop b s
    | none => match s.sched with
      | m :: rest => moveStep m { s with sched := rest }
      | [] => match eventStep s with
        | some s' => .next s'
        | none => match nextCore s with
          | some c => coreStep c s
          | none => .next s

/-- A thread that was stalled on an operand and could now issue is running again (R367). -/
def unstall (s : State) : State :=
  (s.threads.filter (fun p => decide (p.2.wait = .operand) && mayIssue s p.1)).foldl (fun s' p =>
    if (issuedAt s (coreOf p.1) (attempt p.1 s)).isSome then setWait s' p.1 .none else s') s

/-- One step: time passes, a move is made, the wakes of saved threads are noted (R300) and the trace records of the tick written (R365).
(assumption 1, DESIGN CHOICE) -/
def advance (s : State) : Step := onNext (fun s1 => traceTick (noteWakes (unstall s1))) (chooseMove (passTime s))

end Sys2Proof.Machine
end

