-- ==== Sys2Proof/Machine/Step.lean ====
section
/-!
DEFINITION. One step of the machine, and a word placed where it fetches.
-/
namespace Sys2Proof.Machine

/-- One step. -/
def step (s : State) : Host.Outcome State Fault Refusal := advance s

/-- `s` with the instruction whose parcels are `l` at VA 0x1_0000 of bolt 1 (assumption 4): page tables at PA 0 to 0x1_7FFF, the page
itself at PA 0x3_0000; slice 0 the home; thread slot 0 of core 0 resident at its pc, in supervisor mode, and next to issue.
(assumption 4, DESIGN CHOICE) -/
def State.withParcels (s : State) (l : List Parcel) : State :=
  let m := Memory.writeN (Memory.writeN (Memory.writeN s.dram.cells 0 (natToBytes 8 0x8001)) 0x8000 (natToBytes 8 0x10001)) 0x10008 (natToBytes 8 0x300F3)
  let code := l.flatMap (fun p => natToBytes 2 p.toNat) ++ natToBytes 12 0
  { s with
    dram := { s.dram with cells := Memory.writeN m 0x30000 code }
    claims := []
    forward := none
    sched := [.core 0]
    bolts := Map.set s.bolts 1 { live := true, clusters := [0], slices := [0], swatches := [0], root := 0 }
    slices := Map.set s.slices 0 { owner := .bolt 1, swmask := [0] }
    clusters := Map.set s.clusters 0 { s.cluster 0 with owner := .bolt 1 }
    cores := Map.set s.cores 0 { s.core 0 with live := true }
    threads := [(0, { s.thread 0 with
      occ := .resident, bolt := 1, allot := 64, mode := true, pc := 0x10000, ecap := capOf 0x10000 0x9F 0 0x10000 0x20000
      wait := .none, stage := 0, late := [], handler := false, seamed := false, seam := none, xchg := false })] }

/-- `s` with an instruction word of the opcode table stored where the machine fetches next. (assumption 4, DESIGN CHOICE) -/
def State.withFetchWord (s : State) (nbits w : Nat) : State := s.withParcels (tableParcels nbits w)

end Sys2Proof.Machine
end

