-- ==== Sys2Proof/Safety.lean ====
section
/-!
DEFINITION. What counts as a safe run, and the terms in which the statements speak of one instruction: when it executes
(R52), what its issue may change besides its effect (R53, R54, R296), what a result state is.
-/
namespace Sys2Proof

/-- `k` steps from `s` end in a state. -/
def SafeFor (k : Nat) (s : Machine.State) : Prop := ∃ t, core.run k s = .next t

/-- Every number of steps from `s` ends in a state. -/
def Safe (s : Machine.State) : Prop := ∀ k, SafeFor k s

namespace Machine

/-- The current thread stands at the start of an instruction: resident, in no wait. -/
def Ready (s : State) : Prop := s.t.occ = .resident ∧ s.t.wait = .none ∧ s.t.stage = 0

/-- The counted cycle at which an instruction with prefixes `q` issues (R53). -/
def countAt (q : Pre) (s : State) : Nat := s.t.cnt + 1 + q.h.toNat + s.t.hold

/-- Registers and flags that an instruction names are ready: none is pending (R57), and with CHECK set the stall counts have reached
every fixed-latency result among them and the guard's flag (R55, R56). -/
def ReadyRegs (q : Pre) (regs : List Reg) (flags : List Flag) (s : State) : Prop :=
  (∀ r ∈ regs, r.toNat < s.t.allot ∧ r.toNat ∉ s.t.pending) ∧
  (s.t.check = true → ∀ e ∈ s.t.due, countAt q s < e.cnt →
    (∀ r ∈ regs, r.toNat ≠ e.what) ∧ (∀ f ∈ flags, 64 + f.toNat ≠ e.what) ∧ (q.gen = true → 64 + q.flag.toNat ≠ e.what))

/-- The guard lets the instruction execute (R50). -/
def Guarded (q : Pre) (s : State) : Prop := q.gen = true → s.t.flag q.flag ≠ q.inv

/-- None of the registers is bound to a stream or a port (R167). -/
def Unbound (regs : List Reg) (s : State) : Prop := ∀ r ∈ regs, Map.find s.t.binds r.toNat = none

/-- An instruction with prefixes `q` that names these registers and flags executes now, outside an exchange phase (R52, R302). -/
def Runs (q : Pre) (regs : List Reg) (flags : List Flag) (s : State) : Prop :=
  Ready s ∧ s.t.xchg = false ∧ Guarded q s ∧ ReadyRegs q regs flags s

/-- It executes, and its operands are not bound. -/
def Executes (q : Pre) (regs : List Reg) (flags : List Flag) (s : State) : Prop := Runs q regs flags s ∧ Unbound regs s

/-- The precise fault of the current thread's instruction, taken in the state before it, what the thread was still reading of its streams
given up (R8, R327). -/
def Traps (i : Instr) (s : State) (c : Cause) (tval : W64) : Prop :=
  exec i s = .next (takeTrap (dropPulls s s.cur) s.cur c tval s.t.pc false false false 0)

/-- `b` is the thread `a` but for what issuing an instruction keeps of time: its counts, its scoreboard of fixed-latency results, its
share of the issue order (R53, R54, R296). -/
def SameThread (a b : Thread) : Prop :=
  b = { a with cnt := b.cnt, cyc := b.cyc, hold := b.hold, due := b.due, passed := 0 }

/-- `b` is the core `a` but for its issue cycle and the time that counts towards it, the slot that issued last and its event counters
(R53, R296, R358, R368). -/
def SameCore (a b : Core) : Prop := b = { a with cycle := b.cycle, frac := b.frac, last := b.last, evc := b.evc }

/-- `t` is the state `e` but for what an issue of the current thread keeps of time: every other component, so every byte of every
memory, every other thread, every other core and every bolt, is as in `e`. -/
def Starts (e t : State) : Prop :=
  t = { e with threads := t.threads, cores := t.cores } ∧
  (∀ j, j ≠ e.cur → t.thread j = e.thread j) ∧ SameThread e.t t.t ∧
  (∀ c, c ≠ e.curCore → t.core c = e.core c) ∧ SameCore e.c t.c

/-- `t` is the state `e` but for what an issue of the current thread keeps of time. Where the instruction is over, the thread waiting for
nothing more of it, its bolt has committed an instruction: its watchdog's count restarts (R359). -/
def Matches (e t : State) : Prop := Starts (if e.t.wait = .none then commit e e.t.bolt else e) t

/-- The instruction executes, and the state after it is `e` but for the time it took. -/
def Gives (i : Instr) (s e : State) : Prop := ∃ t, exec i s = .next t ∧ Matches e t

/-- The pc past the instruction's parcels (R41). -/
def past (q : Pre) (s : State) : W64 := s.t.pc + BitVec.ofNat 64 (2 * q.parcels)

/-- `s` with the current thread as `u`, but its pc past the instruction. -/
def afterT (q : Pre) (s : State) (u : Thread) : State := s.setT { u with pc := past q s }

/-- `s` with `v` in register `d` and the pc past the instruction: a write to g0 is discarded (R152). -/
def writes (q : Pre) (s : State) (d : Reg) (v : Val) : State := afterT q s (s.t.setReg d v)

/-- The 64-bit value of a register (R198). -/
def valOf (s : State) (r : Reg) : W64 := (s.t.reg r).lo

end Machine

end Sys2Proof
end

