-- ==== Sys2Proof/Certificates/Slice0/Obligations.lean ====
section
/-!
DEFINITION. The statements for the provers. `Gives i s e` (Safety): the instruction answers a next state, and that state is `e` but
for what an issue keeps of time; so each result statement is also the frame of its instructions: whatever `e` does not change, every
register, flag, special register and byte of memory, is as it was.
-/
open Sys2Proof Sys2Proof.Machine

namespace Sys2Proof.Claims

/-! ## Integer instructions -/

/-- The two-address rows of R202, each with its result from the 64-bit values x and y; arithmetic on integers, then reduced. -/
def arithmetic : List ((Pre → Reg → Reg → Reg → Instr) × (W64 → W64 → W64)) := [
  (.add, fun x y => BitVec.ofNat 64 (x.toNat + y.toNat)),
  (.sub, fun x y => BitVec.ofInt 64 ((x.toNat : Int) - (y.toNat : Int))),
  (.and, fun x y => x &&& y), (.or, fun x y => x ||| y), (.xor, fun x y => x ^^^ y), (.andn, fun x y => x &&& ~~~y),
  (.shl, fun x y => BitVec.ofNat 64 (x.toNat * 2 ^ (y.toNat % 64))),
  (.shr, fun x y => BitVec.ofNat 64 (x.toNat / 2 ^ (y.toNat % 64))),
  (.sar, fun x y => BitVec.ofInt 64 (x.toInt / ((2 ^ (y.toNat % 64) : Nat) : Int))),
  (.ror, fun x y => (x >>> (y.toNat % 64)) ||| (x <<< (64 - y.toNat % 64))),
  (.mul, fun x y => BitVec.ofNat 64 (x.toNat * y.toNat)),
  (.mulh, fun x y => ((x.signExtend 128 * y.signExtend 128).extractLsb' 64 64)),
  (.mulhn, fun x y => ((x.setWidth 128 * y.setWidth 128).extractLsb' 64 64)),
  (.min, fun x y => if x.slt y then x else y), (.max, fun x y => if x.slt y then y else x),
  (.minn, fun x y => if x.ult y then x else y), (.maxn, fun x y => if x.ult y then y else x)]

/-- The division rows of R203. -/
def division : List ((Pre → Reg → Reg → Reg → Instr) × (W64 → W64 → W64)) := [
  (.div, fun x y => if y = 0 then 0xFFFFFFFFFFFFFFFF#64 else x.sdiv y),
  (.divn, fun x y => if y = 0 then 0xFFFFFFFFFFFFFFFF#64 else x / y),
  (.rem, fun x y => if y = 0 then x else x.srem y),
  (.remn, fun x y => if y = 0 then x else x % y)]

/-- The unary rows of R202: leading zeros, trailing zeros, set bits, the reversal. -/
def unary : List ((Pre → Reg → Reg → Instr) × (W64 → W64)) := [
  (.clz, fun x => if x = 0 then 64 else BitVec.ofNat 64 (63 - Nat.log2 x.toNat)),
  (.ctz, fun x => BitVec.ofNat 64 (((List.range 64).find? (fun i => x.getLsbD i)).getD 64)),
  (.popc, fun x => BitVec.ofNat 64 ((List.range 64).filter (fun i => x.getLsbD i)).length),
  (.brev, fun x => x.reverse)]

/-- The compares of R206. -/
def compares : List ((Pre → Flag → Reg → Reg → Instr) × (W64 → W64 → Bool)) := [
  (.cmpEq, fun x y => decide (x = y)), (.cmpLt, fun x y => decide (x.toInt < y.toInt)),
  (.cmpLtn, fun x y => decide (x.toNat < y.toNat)), (.cmpTst, fun x y => decide (x &&& y ≠ 0))]

/-- The two-operand flag logic of R207. -/
def flagLogic : List ((Pre → Flag → Flag → Flag → Instr) × (Bool → Bool → Bool)) := [
  (.fand, fun a b => a && b), (.flagOr, fun a b => a || b), (.fxor, fun a b => a ^^ b)]

/-- The immediate forms of R208 that read G[d]. -/
def immediates : List ((Pre → Reg → W64 → Instr) × (W64 → W64 → W64)) := [
  (.addi, fun x i => BitVec.ofNat 64 (x.toNat + i.toNat)), (.andi, fun x i => x &&& i), (.ori, fun x i => x ||| i), (.xori, fun x i => x ^^^ i),
  (.shli, fun x i => BitVec.ofNat 64 (x.toNat * 2 ^ (i.toNat % 64))), (.shri, fun x i => BitVec.ofNat 64 (x.toNat / 2 ^ (i.toNat % 64))),
  (.sari, fun x i => BitVec.ofInt 64 (x.toInt / ((2 ^ (i.toNat % 64) : Nat) : Int)))]

end Sys2Proof.Claims

open Sys2Proof.Claims

/-- R202: ADD to MAXN, MULW, ADC, SBC and CLZ to BREV write the results of the table, and change no flag but f7 for ADC and SBC. -/
def Sys2Proof.Claims.IntegerArithmetic : Prop :=
  (∀ e ∈ arithmetic, ∀ q d x y s, Executes q [x, y, d] [] s → Gives (e.1 q d x y) s (writes q s d (Val.ofW (e.2 (valOf s x) (valOf s y))))) ∧
  (∀ q d x y s, Executes q [x, y, d] [] s →
    Gives (.mulw q d x y) s (writes q s d { bits := (valOf s x).signExtend 128 * (valOf s y).signExtend 128 })) ∧
  (∀ q d x y s, Executes q [x, y, d] [7] s →
    let n := (valOf s x).toNat + (valOf s y).toNat + (s.t.flag 7).toNat
    Gives (.adc q d x y) s (afterT q s ((s.t.setReg d (Val.ofW (BitVec.ofNat 64 n))).setFlag 7 (decide (2 ^ 64 ≤ n))))) ∧
  (∀ q d x y s, Executes q [x, y, d] [7] s →
    let b := (valOf s y).toNat + (s.t.flag 7).toNat
    Gives (.sbc q d x y) s (afterT q s
      ((s.t.setReg d (Val.ofW (BitVec.ofInt 64 (((valOf s x).toNat : Int) - (b : Int))))).setFlag 7 (decide ((valOf s x).toNat < b))))) ∧
  (∀ e ∈ unary, ∀ q d r s, Executes q [r, d] [] s → Gives (e.1 q d r) s (writes q s d (Val.ofW (e.2 (valOf s r)))))

/-- R203: the quotient toward zero, the remainder with the dividend's sign, the corner cases; no fault, no event. -/
def Sys2Proof.Claims.IntegerDivision : Prop :=
  (∀ e ∈ division, ∀ q d x y s, Executes q [x, y, d] [] s → Gives (e.1 q d x y) s (writes q s d (Val.ofW (e.2 (valOf s x) (valOf s y))))) ∧
  (∀ x y : W64, y ≠ 0 → (x.sdiv y).toInt = if x = BitVec.intMin 64 ∧ y = BitVec.allOnes 64 then -2 ^ 63 else x.toInt.tdiv y.toInt) ∧
  (∀ x y : W64, (x.srem y).toInt = x.toInt.tmod y.toInt) ∧
  (∀ e ∈ division, ∀ q d x y s, Executes q [x, y, d] [] s → ∃ t, exec (e.1 q d x y) s = .next t ∧ t.t.handler = s.t.handler ∧ t.t.late = s.t.late ∧
    ∀ k, k < 16 → bits (Map.get s.c.evs k 0).toNat 7 0 ∉ [1, 2, 3, 13, 14] → Map.get t.c.evc k 0 = Map.get s.c.evc k 0)

/-- R202: ADD to MAXN, MULW, ADC, SBC and CLZ to BREV write the results of the table, and change no flag but f7 for ADC and SBC. R203: the quotient toward
zero, the remainder with the dividend's sign, the corner cases; a division raises no fault and counts no event of its own. -/
def Obligations.IntegerResults : Prop := Sys2Proof.Claims.IntegerArithmetic ∧ Sys2Proof.Claims.IntegerDivision

/-- R204, R205: SEL, EXTS, EXTZ, BFX and BFI; a format code that EXTS or EXTZ does not accept is ILLEGAL (R62). -/
def Sys2Proof.Claims.SelectsAndFields : Prop :=
  (∀ q d x y s, Executes q [x, y, d] [0] s →
    Gives (.sel q d x y) s (writes q s d (Val.ofW (if s.t.flag 0 then valOf s x else valOf s y)))) ∧
  (∀ q d r s, Executes q [r, d] [] s → ∀ c ∈ [0, 1, 2, 3],
    Gives (.exts q (BitVec.ofNat 6 c) d r) s (writes q s d (Val.ofW (((valOf s r).setWidth (4 * 2 ^ c)).signExtend 64))) ∧
    Gives (.extz q (BitVec.ofNat 6 (8 + c)) d r) s (writes q s d (Val.ofW (((valOf s r).setWidth (4 * 2 ^ c)).setWidth 64)))) ∧
  (∀ q (f : Code) d r s,
    (3 < f.toNat → Traps (.exts q f d r) s .illegal (illTval q (baseParcel (.exts q f d r)))) ∧
    (f.toNat < 8 ∨ 11 < f.toNat →
      Traps (.extz q f d r) s .illegal (illTval q (baseParcel (.extz q f d r))))) ∧
  (∀ q d r t s, Executes q [r, t, d] [] s →
    let p := bits (valOf s t).toNat 5 0
    let k := min (bits (valOf s t).toNat 14 8) (64 - p)
    let v := bits (valOf s r).toNat (p + k - 1) p
    Gives (.bfx q d r t) s (writes q s d (Val.ofW
      (if k = 0 then 0 else if (valOf s t).getLsbD 15 then BitVec.ofInt 64 (sext v k) else BitVec.ofNat 64 v))) ∧
    ∃ w : W64, Gives (.bfi q d r t) s (writes q s d (Val.ofW w)) ∧
      ∀ i, i < 64 → w.getLsbD i = if p ≤ i ∧ i < p + k then (valOf s r).getLsbD (i - p) else (valOf s d).getLsbD i)

/-- R206, R207: a compare writes one flag, flag logic one flag, and neither changes a register. -/
def Sys2Proof.Claims.ComparesAndFlags : Prop :=
  (∀ e ∈ compares, ∀ q k x y s, Executes q [x, y] [] s → Gives (e.1 q k x y) s (afterT q s (s.t.setFlag k (e.2 (valOf s x) (valOf s y))))) ∧
  (∀ e ∈ flagLogic, ∀ q d x y s, Executes q [] [x, y] s → Gives (e.1 q d x y) s (afterT q s (s.t.setFlag d (e.2 (s.t.flag x) (s.t.flag y))))) ∧
  (∀ q d x s, Executes q [] [x] s → Gives (.fnot q d x) s (afterT q s (s.t.setFlag d (!s.t.flag x)))) ∧
  (∀ (t : Thread) (k j : Flag) (b : Bool), (t.setFlag k b).flag j = if j = k then b else t.flag j)

/-- R204, R205: SEL, EXTS, EXTZ, BFX and BFI; a format code that EXTS or EXTZ does not accept is ILLEGAL (R62). R206, R207: a compare writes one flag,
flag logic one flag, and neither changes a register. -/
def Obligations.FieldsAndCompares : Prop := Sys2Proof.Claims.SelectsAndFields ∧ Sys2Proof.Claims.ComparesAndFlags

/-- R208, R209: the immediate forms; HOLD changes nothing but the earliest count of the thread's next instruction, and a negative
count is ILLEGAL whatever the guard. -/
def Obligations.ImmediatesAndHold : Prop :=
  (∀ e ∈ immediates, ∀ q d i s, Executes q [d] [] s → Gives (e.1 q d i) s (writes q s d (Val.ofW (e.2 (valOf s d) i)))) ∧
  (∀ q d i s, Executes q [d] [] s → Gives (.li q d i) s (writes q s d (Val.ofW i))) ∧
  (∀ q (i : W64) s, Ready s → s.t.xchg = false → ReadyRegs q [] [] s → i.toNat < 2 ^ 63 →
    ∃ t, exec (.hold q i) s = .next t ∧ Matches (afterT q s s.t) t ∧ t.t.hold = i.toNat) ∧
  (∀ q (i : W64) s, 2 ^ 63 ≤ i.toNat →
    Traps (.hold q i) s .illegal (illTval q (baseParcel (.hold q i))))

/-! ## Control transfers -/

namespace Sys2Proof.Claims

/-- `s` with the current thread as `u` and its pc at a target; a seam member other than the head changes no pc by a transfer (R310). -/
def jumps (q : Pre) (s : State) (u : Thread) (target : W64) : State :=
  s.setT { u with pc := if follows s.t then past q s else target }

end Sys2Proof.Claims

/-- R210 to R212: the relative forms, the register forms with an even target, the links, and LOOP; an odd register target is ILLEGAL
at the transferring instruction with the target as TVAL (R63); a LOOP of body length below 1 is ILLEGAL whatever the guard. -/
def Obligations.ControlTransfers : Prop :=
  (∀ q o s, Executes q [] [] s → Gives (.jmp q o) s (jumps q s s.t (s.t.pc + 2 * o))) ∧
  (∀ q k o s, Executes q [] [k] s →
    Gives (.bt q k o) s (if s.t.flag k then jumps q s s.t (s.t.pc + 2 * o) else afterT q s s.t) ∧
    Gives (.bf q k o) s (if s.t.flag k then afterT q s s.t else jumps q s s.t (s.t.pc + 2 * o))) ∧
  (∀ q o s, Executes q [1] [] s → Gives (.call q o) s (jumps q s (s.t.setReg 1 (Val.ofW (past q s))) (s.t.pc + 2 * o))) ∧
  (∀ q r s, Executes q [r, 1] [] s →
    (follows s.t = true ∨ (valOf s r).getLsbD 0 = false →
      Gives (.jr q r) s (jumps q s s.t (valOf s r)) ∧
      Gives (.callr q r) s (jumps q s (s.t.setReg 1 (Val.ofW (past q s))) (valOf s r))) ∧
    (follows s.t = false → (valOf s r).getLsbD 0 = true →
      Traps (.jr q r) s .illegal (valOf s r) ∧
      Traps (.callr q r) s .illegal (valOf s r))) ∧
  (∀ q s, Executes q [1] [] s →
    (follows s.t = true ∨ (valOf s 1).getLsbD 0 = false → Gives (.ret q) s (jumps q s s.t (valOf s 1))) ∧
    (follows s.t = false → (valOf s 1).getLsbD 0 = true →
      Traps (.ret q) s .illegal (valOf s 1))) ∧
  (∀ q d (i : W64) s, Executes q [d] [] s → 1 ≤ i.toInt →
    Gives (.loop q d i) s (if (valOf s d).toNat ≤ 1 then writes q s d {} else jumps q s (s.t.setReg d (Val.ofW (valOf s d - 1))) (s.t.pc - 2 * i))) ∧
  (∀ q d (i : W64) s, i.toInt < 1 →
    Traps (.loop q d i) s .illegal (illTval q (baseParcel (.loop q d i))))

/-! ## Capabilities -/

namespace Sys2Proof.Claims

/-- The representable region of R156; a malformed capability has none. -/
def inRegion (v : Val) (c : W64) : Bool :=
  decide (capE v ≤ 44) && decide ((capBounds v).centre - ((2 ^ (capE v + 20) : Nat) : Int) ≤ (c.toNat : Int)) &&
  decide ((c.toNat : Int) < (capBounds v).centre + ((2 ^ (capE v + 20) : Nat) : Int))

/-- CINC's result: bits 127:64 kept, the sum in bits 63:0, the tag kept inside the region (R164). -/
def moved (v : Val) (op : W64) : Val :=
  { bits := (v.bits.extractLsb' 64 64) ++ (v.lo + op), tag := v.tag && inRegion v (v.lo + op) }

/-- The units that `[c, c+n)` spans at exponent `e` (R164). -/
def unitsAt (c n e : Nat) : Nat := (c + n + 2 ^ e - 1) / 2 ^ e - c / 2 ^ e

/-- CPERM's permissions (R164): those of the source that the operand keeps, the kind bits of the source, reserved bits 0. -/
def keptPerm (p op : Nat) : Nat :=
  ((List.range 9).map (fun i => if p.testBit i && (op.testBit i || i == 5 || i == 8) then 2 ^ i else 0)).sum

/-- The CGET rows (R164): base, top, permissions of a tagged register, the tag. -/
def queries : List ((Pre → Reg → Reg → Instr) × (Val → Int)) := [
  (.cgetBase, fun v => if v.tag ∧ capE v ≤ 44 then (capBounds v).base else 0),
  (.cgetTop, fun v => if v.tag ∧ capE v ≤ 44 then (capBounds v).top else 0),
  (.cgetPerm, fun v => if v.tag then (bits v.bits.toNat 79 64 : Nat) else 0),
  (.cgetTag, fun v => if v.tag then 1 else 0)]

end Sys2Proof.Claims

/-- R155: the bounds of a capability with E ≤ 44 are placed round the copy of the centre whose window of one span contains the
cursor. -/
def Sys2Proof.Claims.BoundsRoundCentre : Prop :=
  ∀ v : Val, capE v ≤ 44 →
    let u : Nat := 2 ^ capE v
    let span : Nat := 2 ^ (capE v + 21)
    let bm : Nat := bits v.bits.toNat 106 86
    let tm : Nat := bits v.bits.toNat 127 107
    let len : Nat := (tm + 2 ^ 21 - bm) % 2 ^ 21
    let half : Nat := len / 2 * u
    let c := (capBounds v).centre
    c % (span : Int) = (((bm * u + half) % span : Nat) : Int) ∧
    c - ((span / 2 : Nat) : Int) ≤ (v.nat : Int) ∧ (v.nat : Int) < c + ((span / 2 : Nat) : Int) ∧
    (capBounds v).base = max (c - (half : Int)) 0 ∧ (capBounds v).top = min (c - (half : Int) + ((len * u : Nat) : Int)) ((2 ^ 64 : Nat) : Int)

/-- R164: CINC, CGET and MOV; CSETB and CPERM on a tagged, well-formed source, with the operand from the immediate or from G[t]. CINC of an
untagged register is a 64-bit add. -/
def Sys2Proof.Claims.CapabilityResults : Prop :=
  (∀ q d r i s, Executes q [r, d] [] s → Gives (.cinc q d r i) s (writes q s d (moved (s.t.reg r) i))) ∧
  (∀ q d r t s, Executes q [r, t, d] [] s → Gives (.cincReg q d r t) s (writes q s d (moved (s.t.reg r) (valOf s t)))) ∧
  (∀ e ∈ queries, ∀ q d r s, Executes q [r, d] [] s → Gives (e.1 q d r) s (writes q s d { bits := BitVec.ofInt 128 (e.2 (s.t.reg r)) })) ∧
  (∀ q d r s, Executes q [r, d] [] s → Gives (.mov q d r) s (writes q s d (s.t.reg r))) ∧
  (∀ q d r i s, Executes q [r, d] [] s → (s.t.reg r).tag = true → capE (s.t.reg r) ≤ 44 →
    ∃ v, Gives (.cperm q d r i) s (writes q s d v) ∧ v.tag = true ∧ capPerm v = keptPerm (capPerm (s.t.reg r)) i.toNat ∧
      v.lo = valOf s r ∧ bits v.bits.toNat 127 80 = bits (s.t.reg r).bits.toNat 127 80) ∧
  (∀ q d r t s, Executes q [r, t, d] [] s → (s.t.reg r).tag = true → capE (s.t.reg r) ≤ 44 →
    ∃ v, Gives (.cpermReg q d r t) s (writes q s d v) ∧ v.tag = true ∧ capPerm v = keptPerm (capPerm (s.t.reg r)) (valOf s t).toNat ∧
      v.lo = valOf s r ∧ bits v.bits.toNat 127 80 = bits (s.t.reg r).bits.toNat 127 80) ∧
  (∀ (i : Instr) (op : W64) q d r s,
    (i = .csetb q d r op ∧ Executes q [r, d] [] s) ∨ (∃ t, i = .csetbReg q d r t ∧ Executes q [r, t, d] [] s ∧ op = valOf s t) →
    (s.t.reg r).tag = true → capE (s.t.reg r) ≤ 44 → (valOf s r).toNat + op.toNat ≤ 2 ^ 64 →
    ∃ e, e ≤ 44 ∧ unitsAt (valOf s r).toNat op.toNat e ≤ 2 ^ 20 ∧ (∀ f, f < e → 2 ^ 20 < unitsAt (valOf s r).toNat op.toNat f) ∧
      let b := (valOf s r).toNat / 2 ^ e
      let n := unitsAt (valOf s r).toNat op.toNat e
      ((capBounds (s.t.reg r)).base ≤ ((b * 2 ^ e : Nat) : Int) → (((b + n) * 2 ^ e : Nat) : Int) ≤ (capBounds (s.t.reg r)).top →
        Gives i s (writes q s d (capOf (valOf s r) (capPerm (s.t.reg r)) e b (b + n)))) ∧
      (((b * 2 ^ e : Nat) : Int) < (capBounds (s.t.reg r)).base → Traps i s .capbound (capTval r.toNat false 0 (b * 2 ^ e))) ∧
      ((capBounds (s.t.reg r)).base ≤ ((b * 2 ^ e : Nat) : Int) → (capBounds (s.t.reg r)).top < (((b + n) * 2 ^ e : Nat) : Int) →
        Traps i s .capbound (capTval r.toNat false 1 ((b + n) * 2 ^ e))))

/-- R164, R157: CSETB and CPERM of an untagged register raise CAPTAG, of a malformed capability CAPBOUND with DETAIL 2; a CSETB whose
range passes 2^64 raises CAPBOUND with DETAIL 1; so with the operand from the immediate or from G[t]. -/
def Sys2Proof.Claims.CapabilityFaults : Prop :=
  ∀ (setb perm : Instr) (op : W64) q d r s,
    (setb = .csetb q d r op ∧ perm = .cperm q d r op ∧ Executes q [r, d] [] s) ∨
      (∃ t, setb = .csetbReg q d r t ∧ perm = .cpermReg q d r t ∧ op = valOf s t ∧ Executes q [r, t, d] [] s) →
    ((s.t.reg r).tag = false →
      Traps setb s .captag (capTval r.toNat false 0 (valOf s r).toNat) ∧ Traps perm s .captag (capTval r.toNat false 0 (valOf s r).toNat)) ∧
    ((s.t.reg r).tag = true → 45 ≤ capE (s.t.reg r) →
      Traps setb s .capbound (capTval r.toNat false 2 (valOf s r).toNat) ∧ Traps perm s .capbound (capTval r.toNat false 2 (valOf s r).toNat)) ∧
    ((s.t.reg r).tag = true → capE (s.t.reg r) ≤ 44 → 2 ^ 64 < (valOf s r).toNat + op.toNat →
      Traps setb s .capbound (capTval r.toNat false 1 (valOf s r).toNat))

/-- R164: CINC, CGET and MOV; CSETB and CPERM on a tagged, well-formed source, with the operand from the immediate or from G[t]. CINC of an
untagged register is a 64-bit add. R164, R157: CSETB and CPERM of an untagged register raise CAPTAG, of a malformed capability CAPBOUND with DETAIL 2; a CSETB whose
range passes 2^64 raises CAPBOUND with DETAIL 1. -/
def Obligations.CapabilityInstructions : Prop := Sys2Proof.Claims.CapabilityResults ∧ Sys2Proof.Claims.CapabilityFaults

/-- R160: what CSETB and CPERM derive lies within its source: bounds, permissions, kind. -/
def Sys2Proof.Claims.DerivationMonotonic : Prop :=
  (∀ (r : Reg) (v w : Val) (op : W64), csetbVal r v op = .ok w →
    w.tag = true ∧ capE w ≤ 44 ∧ capPerm w = capPerm v ∧ w.lo = v.lo ∧ (capBounds v).base ≤ (capBounds w).base ∧ (capBounds w).top ≤ (capBounds v).top) ∧
  (∀ (r : Reg) (v w : Val) (op : W64), cpermVal r v op = .ok w →
    (∀ i, (capPerm w).testBit i = true → (capPerm v).testBit i = true) ∧ capLoc w = capLoc v ∧ capDam w = capDam v ∧
    capBounds w = capBounds v ∧ w.lo = v.lo) ∧
  (∀ (v : Val) (op : W64), (cincVal v op).tag = true → v.tag = true ∧ capPerm (cincVal v op) = capPerm v ∧
    (capBounds (cincVal v op)).base = (capBounds v).base ∧ (capBounds (cincVal v op)).top = (capBounds v).top)

/-- R155: the bounds of a capability with E ≤ 44 are placed round the copy of the centre whose window of one span contains the
cursor. R160: what CSETB and CPERM derive lies within its source: bounds, permissions, kind. -/
def Obligations.CapabilityBounds : Prop := Sys2Proof.Claims.BoundsRoundCentre ∧ Sys2Proof.Claims.DerivationMonotonic

/-! ## Control registers, allotments, bindings -/

/-- The words of a ring entry are those of the latest command of its number (R331). -/
def Sys2Proof.Claims.ringOf (c : Machine.Core) (n : Nat) : Option Ring := c.ring.find? (fun r => decide (r.seq.num.toNat = n))

/-- R178, R132, R260, R289, R331, R358, R361: what CPRD reads of the targets that CPRI names; a number that names none reads 0. -/
def Sys2Proof.Claims.RingTargetReads : Prop :=
  (∀ (s : State) j, j < 256 →
    (ringOf s.c j = none → readTarget s (0x100 + j) = 0 ∧ readTarget s (0x200 + j) = 0) ∧
    ∀ r, ringOf s.c j = some r → readTarget s (0x100 + j) = r.pc ∧ (r.slot < 4 → r.page < 16 → r.major < 64 → r.m < 4 → let w := (readTarget s (0x200 + j)).toNat
      bits w 63 63 = 1 ∧ bits w 62 62 = r.fault.toNat ∧ bits w 61 32 = 0 ∧ bits w 31 24 = j ∧ bits w 23 16 = r.slot ∧ bits w 15 10 = r.page ∧ bits w 9 4 = r.major ∧
      bits w 3 0 = r.m)) ∧
  (∀ (s : State) j, j < 16 → readTarget s (0x800 + j) = if s.t.mode then Map.get s.cl.lpreg j 0 else 0) ∧
  (∀ (s : State) k, k < 256 → let tab := (s.die (dieOf s.curCore)).sorter.layout; let w3 := Map.get tab (k / 4 * 4 + 3) 0#64
    readTarget s (0x1000 + k) = if s.t.mode = true ∨ (w3.getLsbD 8 = true ∧ w3.toNat % 256 = s.t.bolt % 256) then Map.get tab k 0#64 else 0) ∧
  (∀ (s : State) k, k < 1024 → readTarget s (0x2000 + k) = if k = 3 then Map.get s.b.groups 3 0#64 ||| (1#64 <<< 32) else Map.get s.b.groups k 0#64) ∧
  (∀ s : State, readTarget s 0x3000 = s.b.evict.setWidth 64 ∧ readTarget s 0x3001 = BitVec.ofNat 64 (s.b.lost / 1600) ∧ readTarget s 0x3002 = s.b.ltvec ∧
    readTarget s 0x5000 = s.b.trctl ∧ ∀ j, j < 4 → readTarget s (0x5001 + j) = Map.get s.b.trig j 0) ∧
  (∀ (s : State) n, n < 0x100 ∨ (0x2FF < n ∧ n < 0x800) ∨ (0x80F < n ∧ n < 0x1000) ∨ (0x10FF < n ∧ n < 0x2000) ∨ (0x23FF < n ∧ n < 0x3000) ∨
    (0x3002 < n ∧ n < 0x4000) ∨ (0x4002 < n ∧ n < 0x5000) ∨ 0x5005 < n → readTarget s n = 0)

/-- R178, R132, R289, R361: what a WRC of CPRD does to the target that CPRI names: one with a rule of its own is written in supervisor mode, and raises PERM
with its number in user mode; a write of a ring entry, of the fray record or of a number that names no target is ignored. -/
def Sys2Proof.Claims.RingTargetWrites : Prop :=
  ∀ q d (i : W64) s, Executes q [d] [] s → i.toNat = 0x103 →
    let v := valOf s d
    let n := s.c.cpri.toNat
    let rest := afterT q s s.t
    (s.t.mode = false → (0x800 ≤ n ∧ n ≤ 0x80F) ∨ (0x2000 ≤ n ∧ n ≤ 0x23FF) ∨ (0x3000 ≤ n ∧ n ≤ 0x3002) ∨ (0x5000 ≤ n ∧ n ≤ 0x5005) →
      Traps (.wrc q d i) s .perm (BitVec.ofNat 64 n)) ∧
    (n < 0x800 ∨ (0x80F < n ∧ n < 0x1000) ∨ (0x10FF < n ∧ n < 0x2000) ∨ (0x23FF < n ∧ n < 0x3000) ∨ (0x3002 < n ∧ n < 0x5000) ∨ 0x5005 < n →
      Gives (.wrc q d i) s rest) ∧
    (s.t.mode = true →
      (n = 0x3000 → Gives (.wrc q d i) s (rest.setB { s.b with evict := v.setWidth 32 })) ∧ (n = 0x3001 → Gives (.wrc q d i) s rest) ∧
      (n = 0x3002 → Gives (.wrc q d i) s (rest.setB { s.b with ltvec := v &&& ~~~1#64 })) ∧
      (∀ j, j < 4 → n = 0x5001 + j → Gives (.wrc q d i) s (rest.setB { s.b with trig := Map.set s.b.trig j (v &&& 0xFC000000FFFFFFFF#64) })) ∧
      (∀ j, j < 16 → n = 0x800 + j → s.cl.lq = [] → s.cl.gq = [] → (∀ c ∈ liveCores s s.curCluster, ∀ r ∈ (s.core c).mq, r.windowed = false) →
        Gives (.wrc q d i) s (rest.setCl { s.cl with lpreg := Map.set s.cl.lpreg j (v &&& 0x8F0001FF000001FF#64) })))

/-- R177 to R181: RDC writes the register named, untagged; z0 to z3 only in a handler; a number above 0xFFF is ILLEGAL. CYCLE and the
event counters are read after the instruction's own issue. -/
def Sys2Proof.Claims.ControlRegisterReads : Prop :=
  (∀ q d (i : W64) s, Executes q [d] [] s → i.toNat ≤ 0xFFF → isZ i.toNat = false → i.toNat ≠ 0x101 → ¬ (0x110 ≤ i.toNat ∧ i.toNat ≤ 0x11F) →
    Gives (.rdc q d i) s (writes q s d (Val.ofW (readCr s i.toNat)))) ∧
  (∀ q d (i : W64) s, Executes q [d] [] s → (i.toNat = 0x101 ∨ (0x110 ≤ i.toNat ∧ i.toNat ≤ 0x11F)) →
    ∃ t, exec (.rdc q d i) s = .next t ∧ Matches (writes q s d (Val.ofW (readCr t i.toNat))) t) ∧
  (∀ q d (i : W64) s, Executes q [d] [] s → isZ i.toNat = true →
    Gives (.rdc q d i) s (writes q s d (if s.t.handler then Map.get s.t.z (i.toNat - 0x010) {} else {}))) ∧
  (∀ q d (i : W64) s, 0xFFF < i.toNat → Traps (.rdc q d i) s .illegal (illTval q (baseParcel (.rdc q d i)))) ∧
  (∀ s : State,
    bits (readCr s 0x000).toNat 0 0 = s.t.mode.toNat ∧ bits (readCr s 0x000).toNat 1 1 = s.t.check.toNat ∧
    bits (readCr s 0x000).toNat 3 2 = s.c.phase.toNat ∧ bits (readCr s 0x000).toNat 4 4 = s.t.xchg.toNat ∧
    bits (readCr s 0x000).toNat 5 5 = s.t.seamed.toNat ∧ bits (readCr s 0x000).toNat 6 6 = s.t.handler.toNat ∧ bits (readCr s 0x000).toNat 63 7 = 0 ∧
    (∀ j, j < 4 → readCr s (0x008 + j) = (Map.get s.t.gslot j 0).setWidth 64) ∧
    readCr s 0x001 = s.t.cause ∧ readCr s 0x002 = s.t.tval ∧ readCr s 0x003 = s.t.tpc ∧ readCr s 0x004 = s.t.tvec ∧
    readCr s 0x005 = s.t.frm.setWidth 64 ∧ readCr s 0x006 = s.t.pol.setWidth 64 ∧ readCr s 0x100 = BitVec.ofNat 64 s.gtime ∧
    readCr s 0x102 = s.c.cpri.setWidth 64 ∧ readCr s 0x103 = readTarget s s.c.cpri.toNat ∧ readCr s 0x30B = s.t.qclass.setWidth 64)

/-- R177, R181, R326: what WRC writes in each mode, reserved bits ignored; z0 to z3 only in a handler; 0x300 to 0x3FF raise PERM in user
mode; QCLASS is stored once the thread has no access out (R355). -/
def Sys2Proof.Claims.ControlRegisterWrites : Prop :=
  ∀ q d (i : W64) s, Executes q [d] [] s →
    let v := valOf s d
    let rest := afterT q s s.t
    (i.toNat = 0x000 → Gives (.wrc q d i) s (afterT q s { s.t with check := v.getLsbD 1, mode := if s.t.mode then v.getLsbD 0 else false })) ∧
    (i.toNat = 0x001 → Gives (.wrc q d i) s
      (if s.t.mode then afterT q s { s.t with cause := (s.t.cause &&& ~~~0x300#64) ||| (v &&& 0x300#64) } else rest)) ∧
    (i.toNat = 0x002 → Gives (.wrc q d i) s (if s.t.mode then afterT q s { s.t with tval := v } else rest)) ∧
    (i.toNat = 0x003 → Gives (.wrc q d i) s (if s.t.mode then afterT q s { s.t with tpc := v } else rest)) ∧
    (i.toNat = 0x004 → Gives (.wrc q d i) s (if s.t.mode then afterT q s { s.t with tvec := v &&& ~~~1#64 } else rest)) ∧
    (i.toNat = 0x005 → Gives (.wrc q d i) s (afterT q s { s.t with frm := v.setWidth 2 })) ∧
    (i.toNat = 0x006 → Gives (.wrc q d i) s (afterT q s { s.t with pol := v.setWidth 32 })) ∧
    (i.toNat = 0x102 → Gives (.wrc q d i) s (rest.setC { s.c with cpri := v.setWidth 16 })) ∧
    (isZ i.toNat = true → Gives (.wrc q d i) s
      (if s.t.handler then afterT q s { s.t with z := Map.set s.t.z (i.toNat - 0x010) (s.t.reg d) } else rest)) ∧
    (∀ j, j < 16 → i.toNat = 0x110 + j → ∃ t, exec (.wrc q d i) s = .next t ∧ Matches rest t ∧ Map.get t.c.evc j 0 = v.setWidth 32) ∧
    (∀ j, j < 16 → i.toNat = 0x120 + j → Gives (.wrc q d i) s (rest.setC { s.c with evs := Map.set s.c.evs j (v.setWidth 11) })) ∧
    (0x300 ≤ i.toNat → i.toNat ≤ 0x3FF → s.t.mode = false → Traps (.wrc q d i) s .perm ((baseParcel (.wrc q d i)).setWidth 64)) ∧
    (s.t.mode = true → 0x300 ≤ i.toNat → i.toNat ≤ 0x3FF → i.toNat ≠ 0x30B → Gives (.wrc q d i) s (writeSup rest i.toNat v)) ∧
    (i.toNat = 0x30B → s.t.mode = true → (v.toNat % 4 ≠ 0 ∨ s.b.class0 = true) → accessesDone s = true →
      Gives (.wrc q d i) s (afterT q s { s.t with qclass := v.setWidth 2 })) ∧
    (i.toNat ∈ [0x007, 0x008, 0x009, 0x00A, 0x00B, 0x00C, 0x00D, 0x00E, 0x00F, 0x100, 0x101, 0x104, 0x200, 0x201, 0x202] → Gives (.wrc q d i) s rest)

/-- R177 to R181: RDC writes the register named, untagged; z0 to z3 only in a handler; a number above 0xFFF is ILLEGAL. CYCLE and the event counters are
read after the instruction's own issue. R177, R181, R326: what WRC writes in each mode, reserved bits ignored; z0 to z3 only in a handler; 0x300 to
0x3FF raise PERM in user mode; QCLASS is stored once the thread has no access out (R355). R178, R132: CPRD reads and writes the target that CPRI names
under its own rule; a number that names none reads 0 and ignores a write.
What the rules leave open is the model's choice here: assumptions 28, 29, 52, 60, 76. -/
def Obligations.ControlRegisters : Prop :=
  Sys2Proof.Claims.ControlRegisterReads ∧ Sys2Proof.Claims.ControlRegisterWrites ∧ Sys2Proof.Claims.RingTargetReads ∧ Sys2Proof.Claims.RingTargetWrites

/-- R166: ALLOT and SHRINK, their status in gd: 2 for an invalid request, 1 for no room, 0 with the allotment changed; SHRINK waits while
a released register is pending. -/
def Sys2Proof.Claims.AllotAndShrink : Prop :=
  ∀ q d r s, Executes q [r, d] [] s →
    let n := (valOf s r).toNat
    let bad := n % 8 ≠ 0 ∨ n < 16 ∨ 64 < n
    (bad ∨ n < s.t.allot → Gives (.allot q d r) s (writes q s d (Val.ofW 2))) ∧
    (¬ bad → s.t.allot ≤ n → freeEntries s s.curCore < n - s.t.allot → Gives (.allot q d r) s (writes q s d (Val.ofW 1))) ∧
    (¬ bad → s.t.allot ≤ n → n - s.t.allot ≤ freeEntries s s.curCore →
      Gives (.allot q d r) s (writes q (s.setT { zeroFrom s.t s.t.allot n with allot := n }) d (Val.ofW 0))) ∧
    (bad ∨ s.t.allot < n ∨ n ≤ d.toNat → Gives (.shrink q d r) s (writes q s d (Val.ofW 2))) ∧
    (¬ bad → n ≤ s.t.allot → d.toNat < n → (∀ x ∈ s.t.pending, x < n) →
      Gives (.shrink q d r) s (writes q (s.setT { zeroFrom s.t n s.t.allot with allot := n }) d (Val.ofW 0))) ∧
    (¬ bad → n ≤ s.t.allot → d.toNat < n → (∃ x ∈ s.t.pending, n ≤ x) → exec (.shrink q d r) s = .next (setWait s s.cur .operand)) ∧
    (∀ (t : Thread) (a b : Nat) (x : Reg), (zeroFrom t a b).reg x = if a ≤ x.toNat ∧ x.toNat < b then {} else t.reg x)

/-- R168, R169, R172, R174, R175: BIND binds a stream whose every element passes its check, BINDP a port whose neighbour the cluster may
reach and no register of a thread resident on the core holds; what a failing element, a kind or width that BIND refuses, a neighbour out of reach and a side
that is held raise; UNBIND leaves untagged zero, BSTAT reads the state of a bindable name. -/
def Sys2Proof.Claims.Bindings : Prop :=
  (∀ q d r s, bindable d = true → r.toNat % 4 = 0 → Runs q [r, r + 1, r + 2, r + 3, d] [] s → Unbound [r, r + 1, r + 2, r + 3] s →
    let cap := s.t.reg r
    let stride := (valOf s (r + 1)).toInt
    let c := (valOf s (r + 2)).toNat % 2 ^ 32
    let g := (valOf s (r + 3)).toNat
    capDam cap = false → (g % 8 = 0 → capLoc cap = true) → g % 8 < 6 →
    (∀ k, k < c → elementCheck s r cap stride (g % 8) (g.testBit 8) k = .ok ()) →
      Gives (.bind q d r) s (afterT q s { unbound s.t d with
        binds := Map.set (Map.erase s.t.binds d.toNat) d.toNat (.stream (g.testBit 8) cap stride c (g % 8) (g.testBit 3) (BitVec.ofNat 32 (g / 2 ^ 32)) 0 []) })) ∧
  (∀ q d r s, bindable d = true → r.toNat % 4 = 0 → Runs q [r, r + 1, r + 2, r + 3, d] [] s → Unbound [r, r + 1, r + 2, r + 3] s →
    let cap := s.t.reg r
    let stride := (valOf s (r + 1)).toInt
    let g := (valOf s (r + 3)).toNat
    (6 ≤ g % 8 → Traps (.bind q d r) s .illegal (illTval q (baseParcel (.bind q d r)))) ∧
    (g % 8 < 6 → capDam cap = true ∨ (g % 8 = 0 ∧ capLoc cap = false) → cap.tag = true → Traps (.bind q d r) s .capperm (capTval r.toNat false 15 cap.nat)) ∧
    (∀ k x, g % 8 < 6 → capDam cap = false → (g % 8 = 0 → capLoc cap = true) → k < (valOf s (r + 2)).toNat % 2 ^ 32 →
      (∀ j, j < k → elementCheck s r cap stride (g % 8) (g.testBit 8) j = .ok ()) → elementCheck s r cap stride (g % 8) (g.testBit 8) k = .error x →
      exec (.bind q d r) s = .next (stopped s x))) ∧
  (∀ q d p out s, bindable d = true → Runs q [d] [] s → ∀ n, neighbour s.curCore p = some n → n ∉ s.fused →
    (clusterOf n = s.curCluster ∨ clusterOf n ∈ s.cl.permt) →
    (∀ j ∈ residents s s.curCore, holdsPort (s.thread j) (if j = s.cur then some d.toNat else none) out p = false) →
      Gives (.bindp q d p out) s (afterT q s { unbound s.t d with binds := Map.set (Map.erase s.t.binds d.toNat) d.toNat (.port out p) })) ∧
  (∀ q d p out s, bindable d = true → Runs q [d] [] s →
    (neighbour s.curCore p = none ∨ (∃ n, neighbour s.curCore p = some n ∧ (n ∈ s.fused ∨ (clusterOf n ≠ s.curCluster ∧ clusterOf n ∉ s.cl.permt))) →
      Traps (.bindp q d p out) s .perm (p.setWidth 64)) ∧
    ∀ n, neighbour s.curCore p = some n → n ∉ s.fused → (clusterOf n = s.curCluster ∨ clusterOf n ∈ s.cl.permt) →
      (∃ j ∈ residents s s.curCore, holdsPort (s.thread j) (if j = s.cur then some d.toNat else none) out p = true) →
      Traps (.bindp q d p out) s .stream (BitVec.ofNat 64 (d.toNat + 3 * 256))) ∧
  (∀ q d s, bindable d = true → Runs q [d] [] s → Gives (.unbind q d) s (afterT q s { s.t.setReg d {} with binds := Map.erase s.t.binds d.toNat })) ∧
  (∀ q d r s, bindable r = true → Executes q [d] [] s → Gives (.bstat q d r) s (writes q s d (Val.ofW (bstatWord s r)))) ∧
  (∀ q d r p out s, bindable d = false →
    Traps (.bind q d r) s .illegal (illTval q (baseParcel (.bind q d r))) ∧ Traps (.bindp q d p out) s .illegal (illTval q (baseParcel (.bindp q d p out))) ∧
    Traps (.unbind q d) s .illegal (illTval q (baseParcel (.unbind q d))) ∧ Traps (.bstat q r d) s .illegal (illTval q (baseParcel (.bstat q r d))))

/-- R166: ALLOT and SHRINK, their status in gd: 2 for an invalid request, 1 for no room, 0 with the allotment changed; SHRINK waits while
a released register is pending. R168, R169, R172, R174, R175: BIND binds a stream whose every element passes its check, BINDP a port whose neighbour the cluster may
reach and no register of a thread resident on the core holds; what a failing element, a kind or width that BIND refuses, a neighbour out of reach and a side
that is held raise; UNBIND leaves untagged zero, BSTAT reads the state of a bindable name. That a side which an evicted thread holds does not count is the
model's choice: assumption 70. What else the rules leave open is the model's choice here: assumptions 18, 53. -/
def Obligations.AllotmentAndBindings : Prop := Sys2Proof.Claims.AllotAndShrink ∧ Sys2Proof.Claims.Bindings

/-- R152, R170, R171, R173: what reading and writing a register does, bound or not. Unbound: its value; g0 reads 0 and discards a write. A read
stream pops its next fetched element, past its count STREAM with reason 0; an element not fetched yet is read as a local load or asked for at its home, and
a fault it meets is the popping instruction's; a write stream appends the low bits of the value as a local store or a posted one; an in port pops the oldest word or waits; an out port pushes
into the neighbour's queue of the opposite side or waits while it is full, where the cluster may reach it, else PERM (R345); the wrong
direction is STREAM with reason 1.
What the rules leave open is the model's choice here: assumptions 18, 67, 69. -/
def Obligations.OperandForms : Prop :=
  (∀ (s : State) (r : Reg), Map.find s.t.binds r.toNat = none → readReg s r = .ok (s, s.t.reg r) ∧ ∀ v, writeReg s r v = .ok (s.setT (s.t.setReg r v))) ∧
  (∀ (t : Thread) (d r : Reg) (v : Val), (t.setReg d v).reg r = if r = d ∧ d ≠ 0 then v else t.reg r) ∧ (∀ t : Thread, t.reg 0 = {}) ∧
  (∀ (s : State) (r : Reg) cap st n w sx pol pos v rest, Map.find s.t.binds r.toNat = some (.stream false cap st n w sx pol pos (v :: rest)) →
    readReg s r = if n ≤ pos then .error (.trap .stream (BitVec.ofNat 64 r.toNat))
      else .ok (s.setT { s.t with binds := Map.set s.t.binds r.toNat (.stream false cap st n w sx pol (pos + 1) rest) }, v)) ∧
  (∀ (s : State) (r : Reg) cap st n w sx pol pos, Map.find s.t.binds r.toNat = some (.stream false cap st n w sx pol pos []) → pos < n →
    let a := (elementAt cap st w pos).1
    let m := elementBytes w
    let popped := fun (u : State) (v : Nat) (tag : Bool) =>
      (u.setT { u.t with binds := Map.set u.t.binds r.toNat (.stream false cap st n w sx pol (pos + 1) []) }, elementVal cap st w sx pos v tag)
    (capLoc cap = true → (∀ x, checkWindow s s.cur a m true false = .error x → readReg s r = .error x) ∧
      (checkWindow s s.cur a m true false = .ok () → (∀ x ∈ s.cl.lq, x.tid = s.cur → x.store = false) → windowOut s s.cur = false →
        let o := (windowOf s s.cur).1 + a
        readReg s r = .ok (popped s (bytesToNat (Memory.readN s.cl.mem.cells o m)) (decide (m = 16) && decide (o % 16 = 0) && s.cl.mem.tagAt o)))) ∧
    (capLoc cap = false → let got := pull s (threadKey s.cur r.toNat) pos (threadWho s s.cur pol) s.cur a m none false
      (∀ x, got = .error x → readReg s r = .error (.pull x)) ∧
      ∀ s1 p, got = .ok (s1, p) → (∀ o c tv, p.fault = some (o, c, tv) → readReg s r = .error (.trap c tv)) ∧
        (p.fault = none → readReg s r = .ok (popped s1 (bytesToNat p.data_) p.tag)))) ∧
  (∀ cap st w sx k v tag, 1 ≤ w → w ≤ 4 → v < 2 ^ widthBits w → let x := elementVal cap st w sx k v tag
    x.tag = false ∧ bits x.bits.toNat 127 64 = 0 ∧ x.lo = if sx then BitVec.ofInt 64 (sext v (widthBits w)) else BitVec.ofNat 64 v) ∧
  (∀ cap st sx k v tag, v < 2 ^ 128 → let x := elementVal cap st 5 sx k v tag
    x.bits.toNat = v ∧ x.tag = (tag && bitAt (capPerm cap) permLC)) ∧
  (∀ (s : State) (r : Reg) cap st n w sx pol pos l v, Map.find s.t.binds r.toNat = some (.stream true cap st n w sx pol pos l) →
    let a := elementAt cap st w pos
    let m := elementBytes w
    let next := s.setT { s.t with binds := Map.set s.t.binds r.toNat (.stream true cap st n w sx pol (pos + 1) l) }
    let tag := v.tag && decide (w = 5) && bitAt (capPerm cap) permSC
    (n ≤ pos → writeReg s r v = .error (.trap .stream (BitVec.ofNat 64 r.toNat))) ∧
    (pos < n → capLoc cap = true → (∀ x, checkWindow s s.cur a.1 m false true = .error x → writeReg s r v = .error x) ∧
      (checkWindow s s.cur a.1 m false true = .ok () → windowOut s s.cur = false → writeReg s r v = .ok (queueLocal next
        { tid := s.cur, store := true, nib := if w = 0 then some a.2 else none, pieces := [((windowOf s s.cur).1 + a.1, m, 0)], data := v.bits.setWidth 512, tag := tag }))) ∧
    (pos < n → capLoc cap = false → afterLocal s a.1 m = .ok () → sendRoom s 2 true = .ok () →
      (polReleases pol = true → s.t.relOk = false → writeReg s r v = .error (.wait (.streamRelease (polScope pol)))) ∧
      (polReleases pol = false ∨ s.t.relOk = true → writeReg s r v = .ok (postStore
        (next.setT { next.t with relOk := false, acqDue := s.t.acqDue || (polAcquires pol && decide (polScope pol ≠ 0)) })
        a.1 m (v.bits.toNat % 2 ^ widthBits w) tag (pol &&& 0x01FFFFFF#32))))) ∧
  (∀ (s : State) (r : Reg) cap st n w sx pol pos l, Map.find s.t.binds r.toNat = some (.stream true cap st n w sx pol pos l) →
    readReg s r = .error (.trap .stream (BitVec.ofNat 64 (r.toNat + 256)))) ∧
  (∀ (s : State) (r : Reg) cap st n w sx pol pos l v, Map.find s.t.binds r.toNat = some (.stream false cap st n w sx pol pos l) →
    writeReg s r v = .error (.trap .stream (BitVec.ofNat 64 (r.toNat + 256)))) ∧
  (∀ (s : State) (r : Reg) side, Map.find s.t.binds r.toNat = some (.port false side) →
    readReg s r = (match Map.get s.c.ports side.toNat [] with
      | [] => .error (.wait (.portIn side))
      | w :: rest => .ok (s.setC { s.c with
          ports := Map.set s.c.ports side.toNat rest
          popAt := match exchangeNow s.t with | some x => Map.set s.c.popAt side.toNat x.2 | none => s.c.popAt }, Val.ofW w)) ∧
    ∀ v, writeReg s r v = .error (.trap .stream (BitVec.ofNat 64 (r.toNat + 256)))) ∧
  (∀ (s : State) (r : Reg) side n v, Map.find s.t.binds r.toNat = some (.port true side) → neighbour s.curCore side = some n →
    readReg s r = .error (.trap .stream (BitVec.ofNat 64 (r.toNat + 256))) ∧
    writeReg s r v = if clusterOf n ≠ s.curCluster ∧ clusterOf n ∉ s.cl.permt then .error (.trap .perm (side.setWidth 64))
      else if portFree s n (opposite side) = 0 then .error (.wait (.portOut side))
      else .ok { s with pwords := s.pwords ++ [{ core := n, side := opposite side, word := v.lo, bolt := some s.t.bolt, xat := exchangeNow s.t }] }) ∧
  (∀ e ∈ arithmetic, ∀ q d x y s, Runs q [x, y, d] [] s → ∃ s0, Starts (afterT q s s.t) s0 ∧
    ∀ s1 a b s2, readTwo q s0 x y = .ok (s1, a, b) → writeReg s1 d (Val.ofW (e.2 a.lo b.lo)) = .ok s2 →
      ∃ t, exec (e.1 q d x y) s = .next t ∧ (t.thread s.cur).regs = (s2.thread s.cur).regs ∧ (t.thread s.cur).binds = (s2.thread s.cur).binds ∧
        t.pwords = s2.pwords ∧ t.cores = s2.cores ∧ t.dram = s2.dram)

/-! ## Local memory -/

namespace Sys2Proof.Claims

/-- A local load on its way: `d`'s register, or its group, pending and the request last in the queue of the cluster's banks. -/
def loadsLocal (q : Pre) (s : State) (ds : List Reg) (r : LReq) : State :=
  queueLocal (afterT q s { s.t with pending := s.t.pending ++ (ds.filter (· ≠ 0)).map (·.toNat) }) r

/-- The group of four registers from `d`. -/
def four (d : Reg) : List Reg := [d, d + 1, d + 2, d + 3]

/-- The exact offsets of the lanes of a gather or scatter (R7, R136). -/
def laneAt (s : State) (f : Code) (r t : Reg) : List Nat :=
  (List.range (512 / laneBits f)).map (fun i => (valOf s r).toNat + lane (vecOf s.t t) (laneBits f) i * (laneBits f / 8))

end Sys2Proof.Claims

/-- R135 to R137: LDL, STL, VLDL, VSTL, VGATH and VSCAT whose checks pass send one request to the banks of the cluster: a load leaves its
destination pending, a store carries its data. -/
def Obligations.LocalAccesses : Prop :=
  (∀ (i : Instr) q (f : Code) d r (ix : Bool) (w disp : W64) s, okLocal f = true →
    (i = .ldl q f d r disp ∧ ix = false ∧ Executes q [r, d] [] s) ∨ (∃ t, i = .ldlIndex q f d r t ∧ ix = true ∧ w = valOf s t ∧ disp = 0 ∧ Executes q [r, t, d] [] s) →
    let x := (localOffset f (s.t.reg r) ix w disp).1
    let o := x.toNat
    checkWindowed s r (s.t.reg r) x (accessBytes f) true false = .ok () → windowOut s s.cur = false →
    Gives i s (loadsLocal q s [d]
      { tid := s.cur, store := false, nib := if codeWidth f = 0 then some (localOffset f (s.t.reg r) ix w disp).2 else none,
        pieces := [(localBase s + o, accessBytes f, 0)], dst := d.toNat, ext := extOf f,
        tag := decide (codeWidth f = 5) && decide (o % 16 = 0) && bitAt (capPerm (s.t.reg r)) permLC })) ∧
  (∀ (i : Instr) q (f : Code) d r (ix : Bool) (w disp : W64) s, okLocal f = true →
    (i = .stl q f d r disp ∧ ix = false ∧ Executes q [d, r] [] s) ∨ (∃ t, i = .stlIndex q f d r t ∧ ix = true ∧ w = valOf s t ∧ disp = 0 ∧ Executes q [d, r, t] [] s) →
    let x := (localOffset f (s.t.reg r) ix w disp).1
    let o := x.toNat
    checkWindowed s r (s.t.reg r) x (accessBytes f) false true = .ok () → windowOut s s.cur = false →
    Gives i s (queueLocal (afterT q s s.t)
      { tid := s.cur, store := true, nib := if codeWidth f = 0 then some (localOffset f (s.t.reg r) ix w disp).2 else none,
        pieces := [(localBase s + o, accessBytes f, 0)], data := (s.t.reg d).bits.setWidth 512,
        tag := (s.t.reg d).tag && decide (codeWidth f = 5) && decide (o % 16 = 0) && bitAt (capPerm (s.t.reg r)) permSC })) ∧
  (∀ q f d r disp s, okVector f = true → d.toNat % 4 = 0 → Executes q (r :: four d) [] s → windowOut s s.cur = false →
    let x := ((valOf s r).toNat : Int) + disp.toInt
    let o := x.toNat
    (checkWindowed s r (s.t.reg r) x 64 true false = .ok () →
      Gives (.vldl q f d r disp) s (loadsLocal q s (four d) { tid := s.cur, store := false, pieces := [(localBase s + o, 64, 0)], dst := d.toNat, ext := .group })) ∧
    (checkWindowed s r (s.t.reg r) x 64 false true = .ok () →
      Gives (.vstl q f d r disp) s (queueLocal (afterT q s s.t)
        { tid := s.cur, store := true, pieces := [(localBase s + o, 64, 0)], data := BitVec.ofNat 512 (vecOf s.t d) }))) ∧
  (∀ q f d r t s, okLane f = true → d.toNat % 4 = 0 → t.toNat % 4 = 0 → Executes q (r :: four d ++ four t) [] s → windowOut s s.cur = false →
    let wb := laneBits f / 8
    let ps := (List.range (512 / laneBits f)).map (fun i => (localBase s + (laneAt s f r t).getD i 0, wb, i * wb))
    ((∀ o ∈ laneAt s f r t, checkLocal s s.cur r.toNat (s.t.reg r) o wb true false = .ok ()) →
      Gives (.vgath q f d r t) s (loadsLocal q s (four d) { tid := s.cur, store := false, pieces := ps, dst := d.toNat, ext := .group })) ∧
    ((∀ o ∈ laneAt s f r t, checkLocal s s.cur r.toNat (s.t.reg r) o wb false true = .ok ()) →
      Gives (.vscat q f d r t) s (queueLocal (afterT q s s.t)
        { tid := s.cur, store := true, pieces := ps, data := BitVec.ofNat 512 (vecOf s.t d) })))

/-- R131, R133: a local access refused: the first check that fails, in the order tag, kind, permission, bounds (DETAIL 0 below the base, 1 at or above the
top, 2 malformed), window and protection unit (LOCALPROT with the window address of the failing byte), is the precise fault, and nothing is queued; an
offset is exact, and one below 0 is under every base (R7). -/
def Sys2Proof.Claims.LocalAccessFaults : Prop :=
  (∀ q (f : Code) d r disp s x, okLocal f = true → Executes q [r, d] [] s →
    let o := ((valOf s r).toNat : Int) + disp.toInt
    (checkWindowed s r (s.t.reg r) o (accessBytes f) true false = .error x → exec (.ldl q f d r disp) s = .next (stopped s x)) ∧
    (checkWindowed s r (s.t.reg r) o (accessBytes f) false true = .error x → exec (.stl q f d r disp) s = .next (stopped s x))) ∧
  (∀ (s : State) (r : Reg) (v : Val) (o : Int) n rd wr, 0 < n → (o < 0 →
      checkWindowed s r v o n rd wr ≠ .ok () ∧
      (v.tag = true → capLoc v = true → capDam v = false → (rd = true → bitAt (capPerm v) 0 = true) → (wr = true → bitAt (capPerm v) 1 = true) →
        capE v ≤ 44 → ∃ c, checkWindowed s r v o n rd wr = .error (.trap .capbound (capTval r.toNat false 0 c)))) ∧
    (0 ≤ o → checkWindowed s r v o n rd wr = checkLocal s s.cur r.toNat v o.toNat n rd wr)) ∧
  (∀ (s : State) tid reg (v : Val) o n rd wr, 0 < n →
    (v.tag = false → checkLocal s tid reg v o n rd wr = .error (.trap .captag (capTval reg false 0 o))) ∧
    (v.tag = true → (capLoc v = false ∨ capDam v = true) → checkLocal s tid reg v o n rd wr = .error (.trap .capperm (capTval reg false 15 o))) ∧
    (v.tag = true → capLoc v = true → capDam v = false → rd = true → bitAt (capPerm v) 0 = false →
      checkLocal s tid reg v o n rd wr = .error (.trap .capperm (capTval reg false 0 o))) ∧
    (v.tag = true → capLoc v = true → capDam v = false → rd = false → wr = true → bitAt (capPerm v) 1 = false →
      checkLocal s tid reg v o n rd wr = .error (.trap .capperm (capTval reg false 1 o))) ∧
    (v.tag = true → capLoc v = true → capDam v = false → (rd = true → bitAt (capPerm v) 0 = true) → (wr = true → bitAt (capPerm v) 1 = true) → 45 ≤ capE v →
      checkLocal s tid reg v o n rd wr = .error (.trap .capbound (capTval reg false 2 o))) ∧
    (v.tag = true → capLoc v = true → capDam v = false → (rd = true → bitAt (capPerm v) 0 = true) → (wr = true → bitAt (capPerm v) 1 = true) → capE v ≤ 44 →
      let b := capBounds v
      ((o : Int) < b.base → checkLocal s tid reg v o n rd wr = .error (.trap .capbound (capTval reg false 0 o))) ∧
      (b.base ≤ (o : Int) → b.top < ((o + n : Nat) : Int) → checkLocal s tid reg v o n rd wr = .error (.trap .capbound (capTval reg false 1 (max o b.top.toNat)))) ∧
      (b.base ≤ (o : Int) → ((o + n : Nat) : Int) ≤ b.top → let w := windowOf s tid; let place := 0xF000000000000 + w.2.2 * 0x200000
        let refused := fun (a : Nat) => puRefuses (s.cluster (clusterOf (coreOf tid))) (s.thread tid).mode rd wr (a / 4096)
        (w.2.1 < o + n → checkLocal s tid reg v o n rd wr = .error (.trap .localprot (pageTval 0 0 (place + max o w.2.1)))) ∧
        ∀ x, o + n ≤ w.2.1 → o ≤ x → x < o + n → refused (w.1 + x) = true → (∀ y, o ≤ y → y < x → refused (w.1 + y) = false) →
          checkLocal s tid reg v o n rd wr = .error (.trap .localprot (pageTval 0 0 (place + x))))) ∧
    (checkLocal s tid reg v o n rd wr = .ok () → v.tag = true ∧ capLoc v = true ∧ capDam v = false ∧ capE v ≤ 44 ∧
      (capBounds v).base ≤ (o : Int) ∧ (((o + n : Nat) : Int) ≤ (capBounds v).top) ∧ o + n ≤ (windowOf s tid).2.1 ∧
      ∀ a, (windowOf s tid).1 + o ≤ a → a < (windowOf s tid).1 + o + n → puRefuses (s.cluster (clusterOf (coreOf tid))) (s.thread tid).mode rd wr (a / 4096) = false))

/-- R128, R129, R133, R135: LOCAL_BANK_GRANT performs the part of a request that lies in the unit of 16 bytes granted, and the request ends
with its last unit. A store of one piece writes its bytes of the unit and no other byte of the memory; a 4-bit store changes its nibble
alone; the granule's tag is set by a tagged 16-byte store that fills it, and cleared by any other (R107, R127); a load gathers its bytes of the unit, and
with the last writes its register, extended, which is no longer pending, and no byte.
What the rules leave open is the model's choice here: assumption 24. -/
def Obligations.LocalGrants : Prop :=
  (∀ (s : State) cl b u (r : LReq), cl < 256 → b < 64 → (s.cluster cl).lq = [r] → r.left.find? (fun x => decide (x % 64 = b)) = some u →
    clusterOf (coreOf r.tid) = cl → r.store = true → Memory.wf (s.cluster cl).mem.cells = true →
    ∀ a n k, r.pieces = [(a, n, k)] → ∃ t, exec (.localBankGrant ⟨cl, b⟩) s = .next t ∧ Memory.wf (t.cluster cl).mem.cells = true ∧
      (t.cluster cl).lq = (if r.left.erase u = [] then [] else [{ r with left := r.left.erase u, waited := Map.erase r.waited b }]) ∧
      (r.nib = none → ∀ x, Memory.read (t.cluster cl).mem.cells x =
        if a ≤ x ∧ x < a + n ∧ x / 16 = u then r.data.extractLsb' (8 * (k + (x - a))) 8 else Memory.read (s.cluster cl).mem.cells x) ∧
      (∀ hi, r.nib = some hi → ∀ x, Memory.read (t.cluster cl).mem.cells x =
        if x = a then (if hi then (r.data.setWidth 4) ++ (Memory.read (s.cluster cl).mem.cells a).setWidth 4
          else ((Memory.read (s.cluster cl).mem.cells a).extractLsb' 4 4) ++ (r.data.setWidth 4))
        else Memory.read (s.cluster cl).mem.cells x) ∧
      (Map.canon false none (s.cluster cl).mem.tags = true → ∀ x, (t.cluster cl).mem.tagAt x =
        if r.nib.isSome = true then (if x / 16 = a / 16 then false else (s.cluster cl).mem.tagAt x)
        else if x / 16 = u ∧ max a (16 * u) < min (a + n) (16 * u + 16) then r.tag && decide (a ≤ 16 * u ∧ 16 * u + 16 ≤ a + n)
        else (s.cluster cl).mem.tagAt x) ∧
      (∀ c, c ≠ cl → t.cluster c = s.cluster c) ∧ t.dram = s.dram ∧ ∀ j x, (t.thread j).reg x = (s.thread j).reg x) ∧
  (∀ (s : State) cl b u (r : LReq), cl < 256 → b < 64 → (s.cluster cl).lq = [r] → r.left.find? (fun x => decide (x % 64 = b)) = some u →
    clusterOf (coreOf r.tid) = cl → r.store = false → r.nib = none → ∀ a n, r.pieces = [(a, n, 0)] →
    let lo := max a (16 * u)
    let hi := min (a + n) (16 * u + 16)
    let got := r.data ||| BitVec.ofNat 512 (bytesToNat (Memory.readN (s.cluster cl).mem.cells lo (hi - lo)) * 2 ^ (8 * (lo - a)))
    let tag := r.tag && (s.cluster cl).mem.tagAt (16 * u)
    lo < hi →
    (r.left.erase u ≠ [] → ∃ t, exec (.localBankGrant ⟨cl, b⟩) s = .next t ∧ t.threads = s.threads ∧ t.dram = s.dram ∧
      (t.cluster cl).lq = [{ r with left := r.left.erase u, waited := Map.erase r.waited b, data := got, tag := tag }] ∧
      (t.cluster cl).mem = (s.cluster cl).mem ∧ ∀ c, c ≠ cl → t.cluster c = s.cluster c) ∧
    (r.left.erase u = [] → ∀ m, r.ext = .sx m ∨ r.ext = .zx → Map.find (s.thread r.tid).binds r.dst = none → r.dst < 64 → r.dst ≠ 0 →
      ∃ t, exec (.localBankGrant ⟨cl, b⟩) s = .next t ∧ (t.cluster cl).lq = [] ∧
        (∀ x, Memory.read (t.cluster cl).mem.cells x = Memory.read (s.cluster cl).mem.cells x) ∧
        (t.thread r.tid).reg (BitVec.ofNat 6 r.dst) = { bits := extend r.ext (8 * n) got.toNat, tag := tag } ∧
        (t.thread r.tid).pending = (s.thread r.tid).pending.erase r.dst ∧
        (∀ x : Reg, x.toNat ≠ r.dst → (t.thread r.tid).reg x = (s.thread r.tid).reg x) ∧ ∀ j, j ≠ r.tid → t.thread j = s.thread j))

/-! ## Global memory -/

namespace Sys2Proof.Claims

/-- Under a policy an access needs no release before it, and with an acquire no earlier read of the thread is out (R94, R279). -/
def unordered (s : State) (pol : BitVec 32) : Prop := polReleases pol = false ∧ (polAcquires pol = true → readsDone s s.cur = true)

/-- The access may go: its checks pass (R106), it keeps its place behind the thread's local accesses (R272), and the network interface
takes its parts (R357) and the phase's counts its writes (R103). -/
def reaches (s : State) (r : Reg) (need : List Nat) (ea n parts : Nat) (wr : Bool) : Prop :=
  checkGlobal r.toNat (s.t.reg r) need ea n = .ok () ∧ afterLocal s ea n = .ok () ∧ sendRoom s parts wr = .ok ()

/-- A load of `n` bytes at `ea` sent part by part, its thread waiting for the answer (R72, R108). -/
def loadsGlobal (q : Pre) (s : State) (d r : Reg) (ea n : Nat) (ext : Ext) (pol : BitVec 32) : State :=
  awaitAnswer (sendLoad (afterT q s s.t) ea n (decide (n = 16) && bitAt (capPerm (s.t.reg r)) permLC) pol)
    { dst := d.toNat, ext := ext, size := n, parts := (lineParts ea n).length, pc := s.t.pc, binds := s.t.binds }

/-- The ATOM rows with their operation codes (R49); the width is m's. -/
def atomics : List ((Pre → BitVec 2 → Reg → Reg → Reg → Instr) × Nat) := [
  (.atomAdd, 0), (.atomMin, 1), (.atomMax, 2), (.atomMinn, 3), (.atomMaxn, 4), (.atomAnd, 5), (.atomOr, 6), (.atomXor, 7), (.atomXchg, 8),
  (.atomCas, 9), (fun q _ d r t => .atomMinp q d r t, 10), (fun q _ d r t => .atomSt4 q d r t, 11)]

/-- The RED rows with their operation codes (R49). -/
def reductions : List ((Pre → BitVec 2 → Reg → Reg → Instr) × Nat) := [
  (.redAdd, 0), (.redMin, 1), (.redMax, 2), (.redMinn, 3), (.redMaxn, 4), (.redAnd, 5), (.redOr, 6), (.redXor, 7), (.redXchg, 8),
  (fun q _ r t => .redMinp q r t, 10), (fun q _ r t => .redSt4 q r t, 11)]

end Sys2Proof.Claims

/-- R109 to R111: LDG in its three forms and LDGV send their parts and wait for the answer; STG and STGV post their parts, and the thread
goes on. The policy is POL, or the register t of the policy form.
What the rules leave open is the model's choice here: assumptions 9, 61. -/
def Obligations.GlobalAccesses : Prop :=
  (∀ (i : Instr) q (f : Code) d r (off : W64) (pol : BitVec 32) s, okGlobal f = true →
    (i = .ldg q f d r off ∧ pol = s.t.pol ∧ Executes q [r, d] [] s) ∨
    (∃ t, i = .ldgPolicy q f d r t off ∧ pol = (valOf s t).setWidth 32 ∧ Executes q [r, t, d] [] s) ∨
    (∃ t, i = .ldgIndex q f d r t ∧ off = valOf s t * BitVec.ofNat 64 (accessBytes f) ∧ pol = s.t.pol ∧ Executes q [r, t, d] [] s) →
    let ea := (valOf s r + off).toNat
    unordered s pol → reaches s r [permR] ea (accessBytes f) (lineParts ea (accessBytes f)).length false → Gives i s (loadsGlobal q s d r ea (accessBytes f) (extOf f) pol)) ∧
  (∀ (i : Instr) q (f : Code) d r (off : W64) (pol : BitVec 32) s, okGlobal f = true →
    (i = .stg q f d r off ∧ pol = s.t.pol ∧ Executes q [d, r] [] s) ∨
    (∃ t, i = .stgPolicy q f d r t off ∧ pol = (valOf s t).setWidth 32 ∧ Executes q [d, r, t] [] s) ∨
    (∃ t, i = .stgIndex q f d r t ∧ off = valOf s t * BitVec.ofNat 64 (accessBytes f) ∧ pol = s.t.pol ∧ Executes q [d, r, t] [] s) →
    let ea := (valOf s r + off).toNat
    let n := accessBytes f
    unordered s pol → reaches s r [permW] ea n (lineParts ea n).length true →
    Gives i s (postStore (afterT q s s.t) ea n ((s.t.reg d).bits.toNat % 2 ^ (8 * n))
      ((s.t.reg d).tag && decide (n = 16) && decide (ea % 16 = 0) && bitAt (capPerm (s.t.reg r)) permSC) pol)) ∧
  (∀ q d r off s, d.toNat % 4 = 0 → Executes q (r :: four d) [] s → unordered s s.t.pol →
    let ea := (valOf s r + off).toNat
    (reaches s r [permR] ea 64 (lineParts ea 64).length false → Gives (.ldgv q d r off) s (loadsGlobal q s d r ea 64 .group s.t.pol)) ∧
    (reaches s r [permW] ea 64 (lineParts ea 64).length true → Gives (.stgv q d r off) s (postStore (afterT q s s.t) ea 64 (vecOf s.t d) false s.t.pol)))

/-- R113, R116: ATOM sends one counted request and waits for the old value, RED sends one and goes on, PREF sends a hint for each line it
may name and goes on.
What the rules leave open is the model's choice here: assumptions 22, 61. -/
def Obligations.AtomicsAndHints : Prop :=
  (∀ e ∈ atomics, ∀ q (m : BitVec 2) d r t s, okWidth e.2 m = true → Executes q [r, t, d] [] s → unordered s s.t.pol →
    let w := if e.2 = 11 then 8 else 32 * 2 ^ m.toNat
    let a := (valOf s r).toNat / (w / 8) * (w / 8)
    reaches s r [permR, permW, permAT] a (w / 8) 1 true →
    Gives (e.1 q m d r t) s (awaitAnswer
      (sendPart (afterT q s s.t) a (w / 8) 0 s.t.pol (.atom e.2 w (s.t.reg t).bits (if e.2 = 9 then (s.t.reg d).bits else 0) true) true)
      { dst := d.toNat, ext := .zx, size := w / 8, parts := 1, atom := true, pc := s.t.pc, binds := s.t.binds })) ∧
  (∀ e ∈ reductions, ∀ q (m : BitVec 2) r t s, okWidth e.2 m = true → Executes q [r, t] [] s → unordered s s.t.pol →
    let w := if e.2 = 11 then 8 else 32 * 2 ^ m.toNat
    let a := (valOf s r).toNat / (w / 8) * (w / 8)
    reaches s r [permW, permAT] a (w / 8) 1 true →
    Gives (e.1 q m r t) s (sendPart (afterT q s s.t) a (w / 8) 0 s.t.pol (.atom e.2 w (s.t.reg t).bits 0 false) true)) ∧
  (∀ q r t off s, Executes q [r, t] [] s →
    let v := s.t.reg r
    let may := (prefLines (valOf s r + off).toNat (valOf s t).toNat).filter (fun p =>
      v.tag && bitAt (capPerm v) permR && (boundFault v p.1 p.2).isNone && decide (regionOf p.1 = .ordinary))
    sendRoom s may.length false = .ok () →
    let send := fun (stage : Bool) => may.foldl (fun s p => sendPart s p.1 p.2 0 (s.t.pol &&& 0x01FFFFFF#32) (.pref stage) false) (afterT q s s.t)
    Gives (.prefSlice q r t off) s (send false) ∧ Gives (.prefStage q r t off) s (send true))

/-- R106: a global access refused raises the first check that fails, precisely, and nothing is sent: tag, kind and permission, bounds,
then the address. -/
def Sys2Proof.Claims.GlobalAccessFaults : Prop :=
  (∀ q (f : Code) d r off s x, okGlobal f = true → unordered s s.t.pol → Executes q [r, d] [] s →
    let ea := (valOf s r + off).toNat
    (checkGlobal r.toNat (s.t.reg r) [permR] ea (accessBytes f) = .error x → exec (.ldg q f d r off) s = .next (stopped s x)) ∧
    (checkGlobal r.toNat (s.t.reg r) [permW] ea (accessBytes f) = .error x → exec (.stg q f d r off) s = .next (stopped s x))) ∧
  (∀ reg (v : Val) (need : List Nat) ea n, 0 < n →
    (v.tag = false → checkGlobal reg v need ea n = .error (.trap .captag (capTval reg false 0 ea))) ∧
    (v.tag = true → (capLoc v = true ∨ capDam v = true) → checkGlobal reg v need ea n = .error (.trap .capperm (capTval reg false 15 ea))) ∧
    (v.tag = true → capLoc v = false → capDam v = false → ∀ p ∈ need, bitAt (capPerm v) p = false → (∀ k ∈ need, k < p → bitAt (capPerm v) k = true) →
      checkGlobal reg v need ea n = .error (.trap .capperm (capTval reg false p ea))) ∧
    (v.tag = true → capLoc v = false → capDam v = false → (∀ k ∈ need, bitAt (capPerm v) k = true) →
      (45 ≤ capE v → checkGlobal reg v need ea n = .error (.trap .capbound (capTval reg false 2 ea))) ∧
      (capE v ≤ 44 → let b := capBounds v
        ((ea : Int) < b.base → checkGlobal reg v need ea n = .error (.trap .capbound (capTval reg false 0 ea))) ∧
        (b.base ≤ (ea : Int) → b.top < ((ea + n : Nat) : Int) → checkGlobal reg v need ea n = .error (.trap .capbound (capTval reg false 1 (max ea b.top.toNat)))) ∧
        (b.base ≤ (ea : Int) → ((ea + n : Nat) : Int) ≤ b.top → 2 ^ 52 ≤ ea ∨ (0xF000400000000 ≤ ea ∧ ea < 2 ^ 52) →
          checkGlobal reg v need ea n = .error (.trap .page (pageTval 0 5 ea))))) ∧
    (checkGlobal reg v need ea n = .ok () → v.tag = true ∧ (∀ p ∈ need, bitAt (capPerm v) p = true) ∧ capE v ≤ 44 ∧
      (capBounds v).base ≤ (ea : Int) ∧ ((ea + n : Nat) : Int) ≤ (capBounds v).top ∧ ea < 2 ^ 52))

/-- R131, R133: a local access refused: the first check that fails, in the order tag, kind, permission, bounds, window and protection unit, is the precise
fault, and nothing is queued. R106: a global access refused raises the first check that fails, precisely, and nothing is sent: tag, kind and
permission, bounds, then the address. That a capability of another kind fails with DETAIL 15 before its permissions are looked at is the model's reading:
assumption 57. -/
def Obligations.AccessFaults : Prop := Sys2Proof.Claims.LocalAccessFaults ∧ Sys2Proof.Claims.GlobalAccessFaults

/-- R104, R113: the home ALU: the new memory value of each operation on `w` bits, and whether memory is written at all. -/
def Sys2Proof.Claims.HomeAlu : Prop :=
  ∀ (w opnd cmp old : Nat), w ∈ [32, 64, 128] → old < 2 ^ w →
    let o := opnd % 2 ^ w
    let wrote := fun (v : Nat) => if v = old then none else some v
    atomWrite 0 w opnd cmp old = wrote ((old + o) % 2 ^ w) ∧
    atomWrite 1 w opnd cmp old = wrote (if sext old w ≤ sext o w then old else o) ∧
    atomWrite 2 w opnd cmp old = wrote (if sext o w ≤ sext old w then old else o) ∧
    atomWrite 3 w opnd cmp old = wrote (min old o) ∧ atomWrite 4 w opnd cmp old = wrote (max old o) ∧
    atomWrite 5 w opnd cmp old = wrote (old &&& o) ∧ atomWrite 6 w opnd cmp old = wrote (old ||| o) ∧ atomWrite 7 w opnd cmp old = wrote (old ^^^ o) ∧
    atomWrite 8 w opnd cmp old = some o ∧
    atomWrite 9 w opnd cmp old = (if old = cmp % 2 ^ w ∧ o ≠ old then some o else none) ∧
    atomWrite 10 w opnd cmp old = wrote (min old o) ∧
    (w = 64 → ∃ v, atomWrite 11 w opnd cmp (old % 256) = some v ∧ v < 256 ∧
      (if bits opnd 4 4 = 0 then v % 16 = opnd % 16 ∧ v / 16 = old % 256 / 16 else v / 16 = opnd % 16 ∧ v % 16 = old % 16))

/-! ## Requests on their way, homes, phases -/

namespace Sys2Proof.Claims

/-- Keys of a map rise strictly. -/
def rising {α : Type} : Map α → Prop
  | [] => True
  | (k, _) :: r => (∀ p ∈ r, k < p.1) ∧ rising r

/-- The requests that wait at a slice and that no press holds. -/
def waitingAt (s : State) (h : Nat) : List Req :=
  ((s.slice h).chan0 ++ (s.slice h).chan).filter (fun r => !heldHome s r)

/-- The slice once it has taken request `r` while serving class `k` (R88, R355). -/
def tookNext (s : State) (h : Nat) (r : Req) (k : Nat) : Slice :=
  passClasses { s.slice h with chan0 := (s.slice h).chan0.erase r, chan := (s.slice h).chan.erase r } k
    (fun j => ((s.slice h).chan.erase r).any (fun x => decide (x.cls.toNat = j)))

end Sys2Proof.Claims

/-- R86 to R89: the oldest packet of a cluster's interface on its wavelengths goes to its home's channel, class 0 to a queue of its own, to
the cluster of a local window, or across the bridge; the bridge writes its oldest packet to the channel it is for. -/
def Obligations.PacketsTravel : Prop :=
  (∀ (s : State) cl r rest, cl < 256 → (s.cluster cl).ni = r :: rest → r.held s = false → windowHeld r = false →
    let s1 := s.setCluster cl { s.cluster cl with ni := rest }
    let i := Instr.channelPacketSend ⟨cl, decide (r.cls = 0)⟩
    let arrived := { r with at_ := s.pkts }
    (dieOfDest r.dest ≠ dieOfCluster cl →
      exec i s = .next (s1.setDie (dieOfDest r.dest) { s1.die (dieOfDest r.dest) with bridge := (s.die (dieOfDest r.dest)).bridge ++ [.request r] })) ∧
    (dieOfDest r.dest = dieOfCluster cl → r.dest < 128 → r.cls ≠ 0 →
      exec i s = .next ({ s1 with pkts := s.pkts + 1 }.setSlice r.dest { s.slice r.dest with chan := (s.slice r.dest).chan ++ [arrived] })) ∧
    (dieOfDest r.dest = dieOfCluster cl → r.dest < 128 → r.cls = 0 →
      exec i s = .next ({ s1 with pkts := s.pkts + 1 }.setSlice r.dest { s.slice r.dest with chan0 := (s.slice r.dest).chan0 ++ [arrived] })) ∧
    (dieOfDest r.dest = dieOfCluster cl → 128 ≤ r.dest →
      exec i s = .next ({ s1 with pkts := s.pkts + 1 }.setCluster (r.dest - 128) { s1.cluster (r.dest - 128) with
        win := (s1.cluster (r.dest - 128)).win ++ [{ arrived with src := 128 + cl }] }))) ∧
  (∀ (s : State) d p rest, d < 2 → (s.die d).bridge = p :: rest → p.held s = false →
    let s1 := s.setDie d { s.die d with bridge := rest }
    exec (.bridgeForward ⟨d, decide (p.cls = 0)⟩) s = .next (match p with
      | .request r => deliver s1 bridgeWriter r
      | .reply y => { s1 with replies := s.replies ++ [{ y with src := bridgeWriter, no := s.pkts }], pkts := s.pkts + 1 }
      | .fault f => { s1 with storeFaults := s.storeFaults ++ [{ f with src := bridgeWriter, no := s.pkts }], pkts := s.pkts + 1 })) ∧
  (∀ (s : State) cl cls, cl < 256 →
    let limited := fun (r : Req) => (Map.get (s.bolt r.bolt).rate cls.toNat 0#64).getLsbD 63
    let left := fun (r : Req) => Map.get (s.bolt r.bolt).bucket cls.toNat 0
    (∀ r, (s.cluster cl).rated.find? (fun x => decide (x.cls = cls) && (decide (0 < left x) || !limited x)) = some r →
      exec (.rateRelease cl cls) s = .next
        ((if limited r then s.setBolt r.bolt { s.bolt r.bolt with bucket := Map.set (s.bolt r.bolt).bucket cls.toNat (left r - reqCharge r * 1000) }
          else s.setBolt r.bolt (s.bolt r.bolt)).setCluster cl
          { s.cluster cl with rated := (s.cluster cl).rated.erase r, ni := (s.cluster cl).ni ++ [r] })) ∧
    ((∀ x ∈ (s.cluster cl).rated, x.cls = cls → left x ≤ 0 ∧ limited x = true) → exec (.rateRelease cl cls) s = .next s))

/-- R88, R92, R355: what a slice takes next: a request no press holds, before which no request of the same line arrived; class 0 before
the others, and of the others a higher one first, unless a lower one has been passed over 63 times. -/
def Sys2Proof.Claims.NextRequests : Prop :=
  ∀ (s : State) h r k, nextRequest s h = some (r, k) →
    let all := waitingAt s h
    let some_ := fun (j : Nat) => ∃ x ∈ all, x.cls.toNat = j
    r ∈ all ∧ (∀ x ∈ all, sameLine s x r = true → r.at_ ≤ x.at_) ∧ (∃ x ∈ all, x.cls.toNat = k ∧ sameLine s x r = true) ∧
    (some_ 0 → k = 0) ∧ (k = 1 → ∀ j, j = 2 ∨ j = 3 → some_ j → skips (s.slice h) j < 63) ∧
    (k = 2 → ¬ some_ 1 ∨ 63 ≤ skips (s.slice h) 2) ∧ (k = 3 → (¬ some_ 1 ∧ ¬ some_ 2) ∨ 63 ≤ skips (s.slice h) 3)

/-- R92, R281, R282, R351: a slice performs the request it takes, or records one that it may not serve yet (RETRY); a recorded one of the
line that may be served goes first, and is performed in its turn; a cluster performs its oldest window access. -/
def Sys2Proof.Claims.HomesTake : Prop :=
  (∀ (s : State) h r k, h < 128 → nextRequest s h = some (r, k) →
    let x := tookNext s h r k
    let s1 := s.setSlice h x
    (placeOf s1 h r = .here →
      (∀ y, recordedFirst s h r = some y →
        exec (.homeRequest h) s = .next (performReq (s.setSlice h { s.slice h with refused := (s.slice h).refused.erase y }) h y)) ∧
      (recordedFirst s h r = none → mayServe s1 h (s.slice h).refused r = true → exec (.homeRequest h) s = .next (performReq s1 h r)) ∧
      (recordedFirst s h r = none → mayServe s1 h (s.slice h).refused r = false →
        let s2 := s.setSlice h { x with refused := x.refused ++ [r] }
        exec (.homeRequest h) s = .next (if r.peer then s2 else countEvent s2 r.tid 15 1))) ∧
    (∀ n, placeOf s1 h r = .moved n → exec (.homeRequest h) s = .next (arriveAt s1 n r)) ∧
    (placeOf s1 h r = .shadowed → exec (.homeRequest h) s = .next (s.setSlice h { x with heldReqs := x.heldReqs ++ [r] }))) ∧
  (∀ (s : State) h r rest, h < 128 → (s.slice h).refused = r :: rest → heldHome s r = false → mayServe s h [] r = true →
    exec (.retryReissue h) s = .next (performReq (s.setSlice h { s.slice h with refused := rest }) h r)) ∧
  (∀ (s : State) cl r rest, cl < 256 → (s.cluster cl).win = r :: rest → r.held s = false → behind s cl r.src r.at_ r.cls = false →
    exec (.localWindowAccess ⟨cl, decide (r.cls = 0)⟩) s = .next (performReq (s.setCluster cl { s.cluster cl with win := rest }) 0 r))

/-- R89, R92, R100, R102: a load of ordinary memory is answered with the newest bytes of its line, on the channel of its cluster or across
the bridge; a store that faults is counted as arrived and its fault goes to the core. -/
def Sys2Proof.Claims.HomesAnswer : Prop :=
  (∀ (s : State) h r lc s1 pa leaf, r.op = .load lc → regionOf r.va = .ordinary → byRolnis r.bolt r.core = false → r.peer = false →
    translate s r.bolt h r.va .rd = .ok (s1, pa, leaf) →
    let line := newest s1 h r.bolt (r.va / 64) pa
    let got := natToBytes r.n (line.1 / 2 ^ (8 * (r.va % 64)) % 2 ^ (8 * r.n))
    let tg := lc && (decide (r.n = 16) && decide (r.va % 64 % 16 = 0) && line.2.getLsbD (r.va % 64 / 16))
    let y : Reply := { tid := r.tid, acc := r.acc, off := r.off, bytes := got, tag := tg, cls := r.cls, agent := r.agent, core := r.core }
    let die := dieOfCluster (if r.agent.isSome then clusterOf r.core else clusterOf (coreOf r.tid))
    (die = dieOfDest r.dest → (performReq s h r).replies = s.replies ++ [{ y with src := r.dest, no := s.pkts }]) ∧
    (die ≠ dieOfDest r.dest → ((performReq s h r).die die).bridge = (s.die die).bridge ++ [.reply y])) ∧
  (∀ (s : State) h r data tag e, r.op = .store data tag → globalPartAt s h (reqWho r) r.va r.n .wr (fun _ => some (data.toNat, tag)) = .error e → r.dest < 128 →
    r.answered = false → dieOfCluster (clusterOf (coreOf r.tid)) = dieOfDest r.dest →
    performReq s h r = (let s1 : State := { s with
        storeFaults := s.storeFaults ++ [{ tid := r.tid, cause := e.1, tval := e.2, cls := r.cls, src := r.dest, no := s.pkts }], pkts := s.pkts + 1 }
      s1.setSlice r.dest { s.slice r.dest with
        arrived := Map.set (s.slice r.dest).arrived (r.core * 4 + r.phase.toNat) (Map.get (s.slice r.dest).arrived (r.core * 4 + r.phase.toNat) 0 + 1) }))

/-- R88, R92, R355: what a slice takes next: a request no press holds, before which no request of the same line arrived; class 0 before
the others, and of the others a higher one first, unless a lower one has been passed over 63 times. R92, R281, R282, R351: a slice
performs the request it takes, or records one that it may not serve yet (RETRY); a recorded one of the line that may be served goes
first, and is performed in its turn; a cluster performs its oldest window access. R89, R92, R100, R102: a load of ordinary memory is
answered with the newest bytes of its line, on the channel of its cluster or across the bridge; a store that faults is counted as
arrived and its fault goes to the core.
What the rules leave open is the model's choice here: assumptions 55, 65, 66, 67. -/
def Obligations.HomesServe : Prop := Sys2Proof.Claims.NextRequests ∧ Sys2Proof.Claims.HomesTake ∧ Sys2Proof.Claims.HomesAnswer

/-- R92, R107: a store of `n` bytes within a line that its home performs leaves the newest value of the line with those bytes, and no
others, replaced; the tag of each granule it touches is clear, but for one that a tagged 16-byte store fills; the answer is the bytes before it. -/
def Sys2Proof.Claims.HomeWriteRead : Prop :=
  ∀ (s s0 s1 : State) (h : Nat) (w : Who) (va n v old : Nat) (tag told : Bool) (pa leaf : Nat),
    regionOf va = .ordinary → byRolnis w.bolt w.core = false → 0 < n → va % 64 + n ≤ 64 → rising (s0.slice h).ways → (newest s0 h w.bolt (va / 64) pa).1 < 2 ^ 512 →
    translate s w.bolt h va .wr = .ok (s0, pa, leaf) → globalPartAt s h w va n .wr (fun _ => some (v, tag)) = .ok (s1, old, told) →
    let before := (newest s0 h w.bolt (va / 64) pa).1
    let after := (newest s1 h w.bolt (va / 64) pa).1
    old = before / 2 ^ (8 * (va % 64)) % 2 ^ (8 * n) ∧ after < 2 ^ 512 ∧
    (∀ i, i < 512 → after.testBit i = if 8 * (va % 64) ≤ i ∧ i < 8 * (va % 64 + n) then v.testBit (i - 8 * (va % 64)) else before.testBit i) ∧
    ∀ i, i < 4 → (newest s1 h w.bolt (va / 64) pa).2.getLsbD i =
      if i * 16 < va % 64 + n ∧ va % 64 < i * 16 + 16 then tag && decide (va % 16 = 0) && decide (n = 16) else (newest s0 h w.bolt (va / 64) pa).2.getLsbD i

/-- R73 to R75, R77, R78, R70, R71: the translation of an ordinary address at its home: a leaf that the cache holds serves, or refuses the access; else the
walk, whose first entry that is not valid, is malformed or names what the bolt does not own gives its REASON and LEVEL, then the permissions, then the claim,
which fails with MAP; a leaf that serves is claimed and cached. LEVEL is 0 where no walk is made. -/
def Sys2Proof.Claims.Translations : Prop :=
  (∀ (s : State) mask va lvl r a, let e := readEntry s (a + 8 * bits va (63 - 12 * lvl) (52 - 12 * lvl)); let p := bits e 47 15 * 2 ^ 15
    let said := fun (n : Nat) => walkLevels s mask va (lvl :: r) a = .error (pageTval lvl n va)
    (e.testBit 0 = false → said 0) ∧ (e.testBit 0 = true → malformed e lvl = true → said 2) ∧
    (e.testBit 0 = true → malformed e lvl = false → noMemory p = true → said 3) ∧
    (e.testBit 0 = true → malformed e lvl = false → noMemory p = false → bits p 38 30 ∉ mask → said 4) ∧
    (e.testBit 0 = true → malformed e lvl = false → noMemory p = false → bits p 38 30 ∈ mask →
      walkLevels s mask va (lvl :: r) a = if e.testBit 1 then .ok (e, lvl) else walkLevels s mask va r p)) ∧
  (∀ e lvl, e < 2 ^ 64 → 1 ≤ lvl → lvl ≤ 3 → e.testBit 0 = true → let sz := bits e 3 2; let leaf := e.testBit 1
    (malformed e lvl = true ↔ bits e 63 48 ≠ 0 ∨ bits e 14 9 ≠ 0 ∨ (leaf = false ∧ (bits e 8 2 ≠ 0 ∨ lvl = 3)) ∨
      (leaf = true ∧ (e.testBit 15 = true ∨ lvl = 1 ∨ sz = 3 ∨ (lvl = 2 ∧ sz ≤ 1) ∨ (lvl = 3 ∧ sz = 2) ∨ (sz = 1 ∧ bits e 20 16 ≠ 0) ∨ (sz = 2 ∧ bits e 29 16 ≠ 0))))) ∧
  (∀ e, (permits e .rd = e.testBit 4) ∧ (permits e .wr = e.testBit 5) ∧ (permits e .atom = (e.testBit 7 && e.testBit 5)) ∧ (permits e .fetch = e.testBit 6)) ∧
  (∀ (s : State) bolt h va acc, let held := (s.slice h).xlat.find? (fun x => decide (x.bolt = bolt) && decide (x.page ≤ va / 2 ^ 16) && decide (va / 2 ^ 16 < x.page + x.pages))
    let walked := walkLevels s (s.slice h).swmask va [1, 2, 3] (s.bolt bolt).root
    (∀ x, held = some x → let e := x.leaf.toNat
      translate s bolt h va acc = if permits e acc then .ok (s, bits e 47 16 * 2 ^ 16 + va % pageBytes e, e) else .error (.page, pageTval 0 1 va)) ∧
    (∀ tv, held = none → walked = .error tv → translate s bolt h va acc = .error (.page, tv)) ∧
    (∀ e lvl, held = none → walked = .ok (e, lvl) → permits e acc = false → translate s bolt h va acc = .error (.page, pageTval lvl 1 va)) ∧
    (∀ e lvl, held = none → walked = .ok (e, lvl) → permits e acc = true → claim s bolt e va = none → translate s bolt h va acc = .error (.map, pageTval lvl 0 va)) ∧
    ∀ e lvl cs, held = none → walked = .ok (e, lvl) → permits e acc = true → claim s bolt e va = some cs →
      ∃ s1 x, translate s bolt h va acc = .ok (s1, bits e 47 16 * 2 ^ 16 + va % pageBytes e, e) ∧ s1.claims = cs ∧ s1.dram = s.dram ∧
        (s1.slice h).xlat = (x :: (s.slice h).xlat).take 2048 ∧ x.bolt = bolt ∧ x.leaf = BitVec.ofNat 64 e ∧ x.page = va / pageBytes e * pageBytes e / 2 ^ 16 ∧
        x.pages = pageBytes e / 2 ^ 16) ∧
  (∀ (s : State) bolt e va, bits e 3 2 ≤ 2 → let k := bits e 3 2; let f := bits e 47 16
    let size := fun (c : Nat) => if c = 0 then 1 else if c = 1 then 2 ^ 5 else 2 ^ 14
    let word := k * 2 ^ 40 + f / size k
    let owner := (va / 2 ^ 16 / size k * size k, bolt)
    let clash := (∃ c, k < c ∧ c ≤ 2 ∧ (Map.find s.claims (c * 2 ^ 40 + f / size c)).isSome = true) ∨
      ∃ p ∈ s.claims, ∃ c, c < k ∧ p.1 / 2 ^ 40 = c ∧ p.1 % 2 ^ 40 * size c / size k = f / size k
    (clash → claim s bolt e va = none) ∧
    (∀ o, ¬ clash → Map.find s.claims word = some o → claim s bolt e va = if o = owner then some s.claims else none) ∧
    (¬ clash → Map.find s.claims word = none → claim s bolt e va = some (Map.set s.claims word owner)))

/-- R80, R70, R71: a part of an access to a local window at its cluster: REASON 7 where no placed block holds the window, the cluster may not be reached or the
part lies beyond the end; LOCALPROT with the window address of the first byte that the protection unit refuses; else the bytes are read, and written. -/
def Sys2Proof.Claims.WindowParts : Prop :=
  ∀ (s : State) w va n acc g, 0 < n → let win := bits va 33 21; let o := bits va 20 0
    let held := s.blocks.find? (fun p => decide (p.2.bolt = w.bolt) && decide (p.2.window = win) && decide (p.2.live > 0))
    (held = none → windowPart s w va n acc g = .error (.page, pageTval 0 7 va)) ∧
    ∀ k b, held = some (k, b) → let c := s.cluster b.cluster
      (b.cluster ≠ w.cluster ∧ b.cluster ∉ (s.cluster w.cluster).permt → windowPart s w va n acc g = .error (.page, pageTval 0 7 va)) ∧
      (b.ws < o + n → windowPart s w va n acc g = .error (.page, pageTval 0 7 va)) ∧
      (b.cluster = w.cluster ∨ b.cluster ∈ (s.cluster w.cluster).permt → o + n ≤ b.ws →
        let refused := fun (a : Nat) => puRefuses c w.mode (decide (acc ≠ .wr)) (decide (acc ≠ .rd)) (a / 4096)
        let old := bytesToNat (Memory.readN c.mem.cells (b.lb + o) n)
        (∀ x, x < n → refused (b.lb + o + x) = true → (∀ y, y < x → refused (b.lb + o + y) = false) →
          windowPart s w va n acc g = .error (.localprot, pageTval 0 0 (0xF000000000000 + win * 0x200000 + (o + x)))) ∧
        ((∀ x, x < n → refused (b.lb + o + x) = false) →
          (g old = none → ∃ tag, windowPart s w va n acc g = .ok (s, old, tag)) ∧
          ∀ v tag, g old = some (v, tag) → Memory.wf c.mem.cells = true → ∃ t told, windowPart s w va n acc g = .ok (t, old, told) ∧ t.dram = s.dram ∧
            (∀ j, j ≠ b.cluster → t.cluster j = s.cluster j) ∧ ∀ a, Memory.read (t.cluster b.cluster).mem.cells a =
              if b.lb + o ≤ a ∧ a < b.lb + o + n then BitVec.ofNat 8 (v / 2 ^ (8 * (a - (b.lb + o)))) else Memory.read c.mem.cells a))

/-- R104, R113: the home ALU: the new memory value of each operation on `w` bits, and whether memory is written at all. R92, R107: a store of `n` bytes
within a line that its home performs leaves the newest value of the line with those bytes, and no others, replaced, and the tags of its granules clear, but for
one that a tagged 16-byte store fills; the answer is the bytes before it. R73 to R75, R77, R78: the translation of an ordinary address at its home, the walk
with its REASON and LEVEL, the permissions, the claim, the cache. R80: a part of an access to a local window: REASON 7, LOCALPROT, or performed.
What the rules leave open is the model's choice here: assumption 20. -/
def Obligations.HomePerforms : Prop :=
  Sys2Proof.Claims.HomeAlu ∧ Sys2Proof.Claims.HomeWriteRead ∧ Sys2Proof.Claims.Translations ∧ Sys2Proof.Claims.WindowParts

/-- R100 to R103, R276: a destination answers a closing phase once all the core sent it has arrived and no fault of the core is on its
way, and its counts are cleared; a phase with every answer in is over. -/
def Obligations.PhasesComplete : Prop :=
  (∀ (s : State) core dest k rest, core < 2048 → dest < 128 → (s.core core).closing = k :: rest → dest ∈ k.dests → (∀ j ∈ rest, dest ∉ j.dests) →
    Map.get (s.core core).sent (sentKey k.phase dest) 0 ≤ Map.get (s.slice dest).arrived (core * 4 + k.phase) 0 →
    faultsOut s core = false → ∃ t, exec (.phaseAnswer core dest) s = .next t ∧
      (t.core core).closing = { k with dests := k.dests.filter (· ≠ dest) } :: rest ∧
      (t.core core).sent = Map.erase (s.core core).sent (sentKey k.phase dest) ∧
      (t.slice dest).arrived = Map.erase (s.slice dest).arrived (core * 4 + k.phase) ∧ t.threads = s.threads ∧ t.dram = s.dram) ∧
  (∀ (s : State) core k rest, core < 2048 → (s.core core).closing = k :: rest → k.dests = [] →
    exec (.phaseComplete core) s = .next (s.setCore core { s.core core with closing := rest })) ∧
  (∀ (s : State) n f, s.storeFaults[n]? = some f → behind s (clusterOf (coreOf f.tid)) f.src f.no f.cls = false →
    let s1 := { s with storeFaults := s.storeFaults.eraseIdx n }
    let t := s.thread f.tid
    (t.occ = .evicted ∨ t.occ = .pressed → t.savedFaults.length < 16 →
      exec (.storeFaultArrival n) s = .next (s1.setThread f.tid { t with savedFaults := t.savedFaults ++ [f] })) ∧
    (t.occ = .evicted ∨ t.occ = .pressed → 16 ≤ t.savedFaults.length → exec (.storeFaultArrival n) s = .next (s1.setThread f.tid { t with lost := true })) ∧
    (t.occ = .resident ∨ t.occ = .stopped → (s.core (coreOf f.tid)).sfq.length < 16 →
      exec (.storeFaultArrival n) s = .next (s1.setCore (coreOf f.tid) { s.core (coreOf f.tid) with sfq := (s.core (coreOf f.tid)).sfq ++ [f] })) ∧
    (t.occ = .resident ∨ t.occ = .stopped → 16 ≤ (s.core (coreOf f.tid)).sfq.length → exec (.storeFaultArrival n) s = .next (s1.setThread f.tid { s.thread f.tid with lost := true }))) ∧
  (∀ (s : State) h k l p, h < 128 → (s.slice h).ways = [(k, l)] → l.pin = some p →
    (p.recalled = false → p.tick + 4358 ≤ s.gtime → corePressed s l.bolt p.core = false → (s.core p.core).closing.length < 2 →
      ∃ t, exec (.pinRecall h l.line) s = .next t ∧ (t.slice h).ways = [(k, { l with pin := some { p with recalled := true } })] ∧
        (t.core p.core).phase = (s.core p.core).phase + 1) ∧
    (p.recalled = true → (∀ x ∈ (coreOfBolt s l.bolt p.core).closing, (l.bolt, l.line) ∉ x.pins) →
      exec (.pinEnd h l.line) s = .next (s.setSlice h { s.slice h with ways := [(k, { l with pin := none })] }))) ∧
  (∀ (s : State) h e rest, h < 128 → (s.slice h).staging = e :: rest → dramTurn (s.slice h) e = true →
    (e.kind = 0 → ∃ t, exec (.dramResponse h 0) s = .next t ∧ t = s.setSlice h { s.slice h with staging := rest, dramSkipped := (t.slice h).dramSkipped }) ∧
    (e.kind = 1 → ∃ t, exec (.dramResponse h 0) s = .next t ∧ (t.slice h).staging = rest ∧
      (Memory.wf s.dram.cells = true → Memory.wf t.dram.cells = true ∧ ∀ a, Memory.read t.dram.cells a =
        if e.pa / 64 * 64 ≤ a ∧ a < e.pa / 64 * 64 + 64 then e.data.extractLsb' (8 * (a - e.pa / 64 * 64)) 8 else Memory.read s.dram.cells a)))

/-! ## Commands of the copy engine, the Damask slice, messages -/

namespace Sys2Proof.Claims

/-- The sequence number that the next command dispatched takes (R331), told apart from others of its number. -/
def nextSeq (s : State) : SeqNo := { num := s.c.seq, id := s.accs }

/-- A command dispatched (R138, R331): it takes the core's next sequence number and a ring entry, and its token register is marked not
ready; `cls` says who waits for it. -/
def dispatched (q : Pre) (s : State) (i : Instr) (page : Nat) (d : Reg) (cls : Nat) : State :=
  let c := s.c
  let entry : Ring := { seq := nextSeq s, tid := s.cur, slot := slotOf s.cur, pc := s.t.pc, page := page, major := (baseParcel i).toNat / 1024, m := (baseParcel i).toNat % 4 }
  { afterT q s { s.t with pending := if d = 0 then s.t.pending else s.t.pending ++ [d.toNat], cmds := s.t.cmds ++ [(nextSeq s, d.toNat, cls)] } with
    accs := s.accs + 1 }.setC { c with ring := entry :: c.ring, seq := c.seq + 1 }

/-- The status word of R140. -/
def status (kind code progress : Nat) (seq : BitVec 8) : W64 := BitVec.ofNat 64 (progress % 2 ^ 32 * 2 ^ 32 + seq.toNat * 2 ^ 16 + kind * 2 ^ 8 + code)

/-- A command that ends at once with a status code and no fault. -/
def ends (s0 s : State) (d : Reg) (kind code : Nat) : State :=
  { s with completions := s.completions ++ [{ tid := s0.cur, reg := d.toNat, word := status kind code 0 s0.c.seq, seq := nextSeq s0 }] }

/-- The COPY rows with their variants (R144). -/
def copies : List ((Pre → Reg → Reg → Instr) × Nat) := [(.copyLin, 0), (.copy2d, 1), (.copyList, 2), (.copyFill, 3)]

/-- A request of the copy engine, as it stands at issue. -/
def copyRequest (s : State) (kind : Nat) (d r : Reg) (pol : BitVec 32) : CReq :=
  { kind := kind, tid := s.cur, bolt := s.t.bolt, tok := d.toNat, seq := nextSeq s, mode := s.t.mode, lb := (windowOf s s.cur).1,
    ws := (windowOf s s.cur).2.1, regs := [s.t.reg r, s.t.reg (r + 1), s.t.reg (r + 2), s.t.reg (r + 3)], pol := pol, cls := s.t.qclass, core := s.curCore }

/-- A gather as it stands at issue. -/
def gathRequest (s : State) (d r : Reg) (addrs : List Nat) (wb : Nat) : GReq :=
  { tid := s.cur, bolt := s.t.bolt, lb := (windowOf s s.cur).1, tok := d.toNat, seq := nextSeq s, addrs := addrs, wb := wb, dst := (s.t.reg (r + 2)).nat,
    pol := BitVec.ofNat 32 ((s.t.reg (r + 3)).nat / 2 ^ 32), mode := s.t.mode, cls := s.t.qclass, core := s.curCore }

/-- A command at the head of its engine's queue stopped by a fault: it leaves the queue, its token completes with the code, and its late fault is on the
way (R146). -/
def stoppedBy (s t : State) (cl : Nat) (r : CReq) (rest : List CReq) (code progress : Nat) (c : Cause) : Prop :=
  (t.cluster cl).cq = rest ∧ t.dram = s.dram ∧ (t.cluster cl).mem = (s.cluster cl).mem ∧
  t.completions = s.completions ++ [{ tid := r.tid, reg := r.tok, word := status 1 code progress r.seq.num, seq := r.seq, late := some c }]

/-- A command after a unit of `n` bytes written: it goes on, or its token completes with code 0 (R146). -/
def unitDone (s t : State) (cl : Nat) (r : CReq) (rest : List CReq) (n : Nat) : Prop :=
  let p := unitPast r n
  p.1.done = r.done + n ∧ (if p.2 then (t.cluster cl).cq = rest ∧
      t.completions = s.completions ++ [{ tid := r.tid, reg := r.tok, word := status 1 0 (r.done + n) r.seq.num, seq := r.seq }]
    else (t.cluster cl).cq = p.1 :: rest ∧ t.completions = s.completions)

/-- The translation of a page of the thread's bolt stands in the cache of its home, and permits a read (R77). -/
def cachedRead (s : State) (a : Nat) : Prop :=
  regionOf a = .ordinary ∧ byRolnis s.t.bolt s.curCore = false ∧ ∃ x, (s.slice (recordHome s s.t.bolt a)).xlat.find? (fun x => decide (x.bolt = s.t.bolt) && decide (x.page ≤ a / 2 ^ 16) &&
    decide (a / 2 ^ 16 < x.page + x.pages)) = some x ∧ permits x.leaf.toNat .rd = true

end Sys2Proof.Claims

/-- R138, R143, R146, R124, R115: COPY, DLOAD and GATH whose checks pass dispatch and join the engine's queue; a length of 0 completes at once with code
0, a size code of 7 in a LIST with code 1, a misaligned DLOAD with code 1, a GATH across pages with code 1, one of more than 8 words with code 2; a
word of a GATH whose translation fails at issue is its precise fault (R72). A command to an engine out of service raises COPROC. That the DAMASK word keeps
25 bits of a cursor past the slice is the model's choice: assumption 54.
What else the rules leave open is the model's choice here: assumptions 19, 57, 60, 71. -/
def Obligations.CopyCommands : Prop :=
  (∀ e ∈ copies, ∀ q d r s, r.toNat % 4 = 0 → Executes q (four r ++ [d]) [] s → s.c.ring.length < 32 →
    let i := e.1 q d r
    let sh := s.t.reg (r + 2)
    (s.cl.copyOut = true → Traps i s .coproc (BitVec.ofNat 64 (65536 + (baseParcel i).toNat))) ∧
    (s.cl.copyOut = false → e.2 = 2 → listCode sh = 7 → Gives i s (ends s (dispatched q s i 3 d 2) d 1 1)) ∧
    (s.cl.copyOut = false → ¬ (e.2 = 2 ∧ listCode sh = 7) → copyChecks s e.2 r = .ok () → copyBytes e.2 sh = 0 →
      Gives i s (ends s (dispatched q s i 3 d 2) d 1 0)) ∧
    (s.cl.copyOut = false → ¬ (e.2 = 2 ∧ listCode sh = 7) → copyChecks s e.2 r = .ok () → copyBytes e.2 sh ≠ 0 → s.cl.cq.length < 32 →
      Gives i s ((dispatched q s i 3 d 2).setCl { s.cl with
        cq := s.cl.cq ++ [copyRequest s e.2 d r (if e.2 = 2 then s.t.pol else (s.t.reg (r + 3)).bits.setWidth 32)] }))) ∧
  (∀ q d r s, r.toNat % 4 = 0 → Executes q (four r ++ [d]) [] s → s.c.ring.length < 32 → s.cl.copyOut = false →
    let i := Instr.dload q d r
    let o := (valOf s (r + 1)).toNat
    let n := (valOf s (r + 2)).toNat
    sideCheck s r (s.t.reg r) false (valOf s r).toNat n = .ok () → checkDamask (r + 1).toNat (s.t.reg (r + 1)) [permW] o n = .ok () →
    (n ≠ 0 → s.cl.dstate ≠ 0 → Traps i s .damask (BitVec.ofNat 64 (s.cl.dstate.toNat * 2 ^ 25 + o % 2 ^ 25))) ∧
    (n = 0 → Gives i s (ends s (dispatched q s i 3 d 2) d 2 0)) ∧
    (s.cl.dstate = 0 → n ≠ 0 → (o % 64 ≠ 0 ∨ n % 64 ≠ 0) → Gives i s (ends s (dispatched q s i 3 d 2) d 2 1)) ∧
    (s.cl.dstate = 0 → n ≠ 0 → o % 64 = 0 → n % 64 = 0 → s.cl.cq.length < 32 →
      Gives i s ((dispatched q s i 3 d 2).setCl { s.cl with
        cq := s.cl.cq ++ [copyRequest s 4 d r ((s.t.reg (r + 3)).bits.setWidth 32)], loads := s.cl.loads + 1 }))) ∧
  (∀ f q d r s, okGath f = true → r.toNat % 4 = 0 → Executes q (four r ++ [d]) [] s → s.c.ring.length < 32 →
    let i := Instr.gath q f d r
    let src := s.t.reg r
    let dst := s.t.reg (r + 2)
    let g3 := (s.t.reg (r + 3)).nat
    let n := g3 % 16
    let wb := widthBytes (codeWidth f)
    let addrs := (List.range n).map (fun j => (valOf s r + BitVec.ofNat 64 (bits (s.t.reg (r + 1)).bits.toNat (16 * j + 15) (16 * j) * wb)).toNat)
    let allowed := (∀ a ∈ addrs, checkGlobal r.toNat src [permR] a wb = .ok ()) ∧ checkLocal s s.cur (r + 2).toNat dst dst.nat (n * wb) false true = .ok ()
    (s.cl.copyOut = true → Traps i s .coproc (BitVec.ofNat 64 (65536 + (baseParcel i).toNat))) ∧
    (s.cl.copyOut = false → n = 0 → Gives i s (ends s (dispatched q s i 2 d 2) d 3 0)) ∧
    (s.cl.copyOut = false → 8 < n → Gives i s (ends s (dispatched q s i 2 d 2) d 3 2)) ∧
    (s.cl.copyOut = false → 1 ≤ n → n ≤ 8 → allowed → (∃ a ∈ addrs, a / 2 ^ 16 ≠ addrs.headD 0 / 2 ^ 16) → Gives i s (ends s (dispatched q s i 2 d 2) d 3 1)) ∧
    (s.cl.copyOut = false → 1 ≤ n → n ≤ 8 → allowed → (∀ a ∈ addrs, a / 2 ^ 16 = addrs.headD 0 / 2 ^ 16) →
      ((∀ a ∈ addrs, ∀ p ∈ lineParts a wb, cachedRead s p.1) →
        Gives i s ((dispatched q s i 2 d 2).setCl { s.cl with gq := s.cl.gq ++ [gathRequest s d r addrs wb] })) ∧
      ∃ s0, Starts (dispatched q s i 2 d 2) s0 ∧
        (∀ c tv, gathTranslate s0 addrs wb = .error (.trap c tv) → Traps i s c tv) ∧
        ∀ s1, gathTranslate s0 addrs wb = .ok s1 → ∃ t, exec i s = .next t ∧ t.t.pc = past q s ∧ t.t.regs = s.t.regs ∧
          t.t.cmds = s.t.cmds ++ [(nextSeq s, d.toNat, 2)] ∧ t.cl.mem = s1.cl.mem ∧ t.completions = s.completions ∧
          t.cl.gq = s1.cl.gq ++ [gathRequest s d r addrs wb]))

/-- R144 to R146: the units of COPY: of LIN and FILL in order, of 2D row by row, of LIST by its index list, whose element out of bounds stops the command with
code 4, or past the window or refused by the protection unit with code 5. -/
def Sys2Proof.Claims.UnitsOfShapes : Prop :=
  ∀ (s : State) cl (r : CReq), let src := r.regs.getD 0 {}; let dst := r.regs.getD 1 {}; let sh := (r.regs.getD 2 {}).bits.toNat
    let at_ := fun (v : Val) (i : Int) => (((v.nat : Nat) : Int) + i).toNat
    (r.kind = 0 ∨ r.kind = 3 → nextUnit s cl r = .ok (src.nat + 64 * r.u, dst.nat + 64 * r.u, min 64 (bits sh 63 0 - 64 * r.u)) ∧
      ∀ n, unitPast r n = ({ r with done := r.done + n, u := r.u + 1 }, decide (bits sh 63 0 ≤ r.done + n))) ∧
    (r.kind = 1 → let off := ((64 * r.u : Nat) : Int)
      nextUnit s cl r = .ok (at_ src (sext (bits sh 95 64) 32 * (r.row : Int) + off), at_ dst (sext (bits sh 127 96) 32 * (r.row : Int) + off),
        min 64 (bits sh 31 0 - 64 * r.u)) ∧
      ∀ n, unitPast r n = (if bits sh 31 0 ≤ 64 * (r.u + 1) then { r with done := r.done + n, u := 0, row := r.row + 1 }
        else { r with done := r.done + n, u := r.u + 1 }, decide (bits sh 31 0 * bits sh 63 32 ≤ r.done + n))) ∧
    (r.kind = 2 → let n := 2 ^ bits sh 34 32; let idx := r.lb + (r.regs.getD 3 {}).nat + 4 * r.row
      let x := bytesToNat (Memory.readN (s.cluster cl).mem.cells idx 4) * n
      let a := src.nat + (if sh.testBit 40 then r.row * n else x)
      let b := dst.nat + (if sh.testBit 40 then x else r.row * n)
      let out := (boundFault src a n).isSome = true ∨ (boundFault dst b n).isSome = true ∨ (sideOf dst = .bstage ∧ Config.bstageBytes < b + n)
      let bad := (sideOf src = .window ∧ (r.ws < a + n ∨ (puFault (s.cluster cl) r.mode true false (r.lb + a) n).isSome = true)) ∨
        (sideOf dst = .window ∧ (r.ws < b + n ∨ (puFault (s.cluster cl) r.mode false true (r.lb + b) n).isSome = true))
      (out → nextUnit s cl r = .error (4, .capbound)) ∧ (¬ out → bad → nextUnit s cl r = .error (5, .localprot)) ∧
      (¬ out → ¬ bad → nextUnit s cl r = .ok (a, b, n)) ∧
      ∀ k, unitPast r k = ({ r with done := r.done + k, row := r.row + 1 }, decide (bits sh 31 0 * n ≤ r.done + k)))

/-- R143, R146, R140, R142: one unit of a COPY, whatever its shape: a LIST element that fails stops it; the bytes of the source, in the window, or of global
memory, asked for at their homes and written when they have come; the destination in the window, in global memory or in the B-stage buffer; a part that
fails stops the command with code 3, a LOCALPROT with code 5, PROGRESS counting the bytes written. -/
def Sys2Proof.Claims.UnitsOfSides : Prop :=
  ∀ (s : State) cl r rest, cl < 256 → (s.cluster cl).cq = r :: rest → halted s r.bolt r.tid = false → r.kind < 4 → indexOwed s cl r = false →
    let src := r.regs.getD 0 {}
    let dst := r.regs.getD 1 {}
    let mem := (s.cluster cl).mem.cells
    let i := Instr.copyEngineUnit cl
    let stop := fun (code progress : Nat) (c : Cause) => ∃ t, exec i s = .next t ∧ stoppedBy s t cl r rest code progress c
    let code := fun (c : Cause) => if c = .localprot then 5 else 3
    let banks := fun (a n : Nat) => banksOwed (s.cluster cl) (r.lb + a) n = false
    (∀ k c, nextUnit s cl r = .error (k, c) → stop k r.done c) ∧
    ∀ a b n, nextUnit s cl r = .ok (a, b, n) →
      let lands := fun (bs : List (BitVec 8)) => ∃ t, exec i s = .next t ∧ t.dram = s.dram ∧ unitDone s t cl r rest n ∧ ∀ x, Memory.read (t.cluster cl).mem.cells x =
        if r.lb + b ≤ x ∧ x < r.lb + b + n then bs.getD (x - (r.lb + b)) 0 else Memory.read mem x
      let free := fun (wr : Bool) (p : Nat) => puFault (s.cluster cl) r.mode (!wr) wr (r.lb + p) n
      (r.kind ≠ 3 → sideOf src = .window → banks a n → (free false a).isSome = true → stop 5 r.done .localprot) ∧
      (r.kind = 3 → sideOf dst = .window → banks b n →
        (free true b = none → Memory.wf mem = true → lands ((List.range n).map (fun j =>
          BitVec.ofNat 8 ((r.regs.getD 0 {}).lo.toNat / 2 ^ (8 * ((64 * r.u + j) % 8)))))) ∧
        ((free true b).isSome = true → stop 5 r.done .localprot)) ∧
      (r.kind ≠ 3 → sideOf src = .global → let got := pullRead s (commandKey r.seq) 0 (copyWho r) r.tid a n
        (∀ x, got = .error (.wait x) → exec i s = .next (askFor s x)) ∧
        (∀ k c tv, got = .error (.fault k c tv) → stop (code c) r.done c) ∧
        ∀ s1 bs, got = .ok (s1, bs) → sideOf dst = .window → banks b n →
          (r.kind ≠ 2 → free true b = none → Memory.wf mem = true → lands bs) ∧ ((free true b).isSome = true → stop 5 r.done .localprot)) ∧
      (r.kind < 2 → sideOf src = .window → banks a n → free false a = none → let bs := Memory.readN mem (r.lb + a) n
        (sideOf dst = .global → let put := pullWrite (takeBanks s cl (r.lb + a) n) (commandKey r.seq) (copyWho r) r.tid b bs
          (∀ x, put = .error (.wait x) → exec i s = .next (askFor s x)) ∧ (∀ k c tv, put = .error (.fault k c tv) → stop (code c) (r.done + k) c) ∧
          ∀ s1, put = .ok s1 → ∃ t, exec i s = .next t ∧ unitDone s t cl r rest n ∧ (t.cluster cl).mem = (s.cluster cl).mem) ∧
        (sideOf dst = .bstage → rising (s.cluster cl).bstage → ∃ t, exec i s = .next t ∧ unitDone s t cl r rest n ∧ (t.cluster cl).mem = (s.cluster cl).mem ∧
          ∀ x, Map.get (t.cluster cl).bstage x 0 = if b ≤ x ∧ x < b + n then bs.getD (x - b) 0 else Map.get (s.cluster cl).bstage x 0))

/-- R146, R124: COPY_ENGINE_UNIT moves one unit of at most 64 bytes of the command at the head, all read before any is written, and
completes the token with the last, when no core is owed a bank it takes (R128), for every shape and side (R142 to R146); DLOAD_UNIT moves 64 bytes into the Damask slice, and no other
byte of it. GATH_COMPLETE reads the words that are left, in order, writes them all and completes the token (R115).
What the rules leave open is the model's choice here: assumptions 19, 21, 54, 57, 67. -/
def Obligations.CopyUnits : Prop := Sys2Proof.Claims.UnitsOfShapes ∧ Sys2Proof.Claims.UnitsOfSides ∧
  (∀ (s : State) cl r rest, cl < 256 → (s.cluster cl).cq = r :: rest → halted s r.bolt r.tid = false → r.kind = 0 →
    sideOf (r.regs.getD 0 {}) = .window → sideOf (r.regs.getD 1 {}) = .window → Memory.wf (s.cluster cl).mem.cells = true →
    let len := (r.regs.getD 2 {}).nat
    let a := (r.regs.getD 0 {}).nat + 64 * r.u
    let b := (r.regs.getD 1 {}).nat + 64 * r.u
    let n := min 64 (len - 64 * r.u)
    puFault (s.cluster cl) r.mode true false (r.lb + a) n = none → puFault (s.cluster cl) r.mode false true (r.lb + b) n = none →
    banksOwed (s.cluster cl) (r.lb + a) n = false → banksOwed ((takeBanks s cl (r.lb + a) n).cluster cl) (r.lb + b) n = false →
    ∃ t, exec (.copyEngineUnit cl) s = .next t ∧ (∀ x, Memory.read (t.cluster cl).mem.cells x =
        if r.lb + b ≤ x ∧ x < r.lb + b + n then Memory.read (s.cluster cl).mem.cells (r.lb + a + (x - (r.lb + b))) else Memory.read (s.cluster cl).mem.cells x) ∧
      (if len ≤ r.done + n then (t.cluster cl).cq = rest ∧
          t.completions = s.completions ++ [{ tid := r.tid, reg := r.tok, word := status 1 0 (r.done + n) r.seq.num, seq := r.seq }]
        else (t.cluster cl).cq = { r with u := r.u + 1, done := r.done + n } :: rest ∧ t.completions = s.completions)) ∧
  (∀ (s : State) cl r rest, cl < 256 → (s.cluster cl).cq = r :: rest → halted s r.bolt r.tid = false → r.kind = 4 →
    sideOf (r.regs.getD 0 {}) = .window → Memory.wf (s.cluster cl).damask = true →
    let a := (r.regs.getD 0 {}).nat + 64 * r.u
    let o := (r.regs.getD 1 {}).nat + 64 * r.u
    let len := (r.regs.getD 2 {}).nat
    inRefresh s cl (bankGroup o) = false → puFault (s.cluster cl) r.mode true false (r.lb + a) 64 = none → banksOwed (s.cluster cl) (r.lb + a) 64 = false →
    ∃ t, exec (.dloadUnit cl) s = .next t ∧ (∀ x, Memory.read (t.cluster cl).damask x =
        if o ≤ x ∧ x < o + 64 ∧ x < Config.damaskBytes then Memory.read (s.cluster cl).mem.cells (r.lb + a + (x - o)) else Memory.read (s.cluster cl).damask x) ∧
      (t.cluster cl).mem = (s.cluster cl).mem ∧
      (if len ≤ r.done + 64 then (t.cluster cl).cq = rest ∧ (t.cluster cl).loads = (s.cluster cl).loads - 1 ∧
          t.completions = s.completions ++ [{ tid := r.tid, reg := r.tok, word := status 2 0 (r.done + 64) r.seq.num, seq := r.seq }]
        else (t.cluster cl).cq = { r with u := r.u + 1, done := r.done + 64 } :: rest ∧ t.completions = s.completions)) ∧
  (∀ (s : State) cl (g : BitVec 3), cl < 256 →
    let due := (s.gtime + 8 * 65536 - g.toNat * 8192) % 65536 < 1024
    (due → ∃ t, exec (.refreshStart cl g) s = .next t ∧ (t.cluster cl).refreshing.getLsbD g.toNat = true ∧ t.threads = s.threads) ∧
    (¬ due → ∃ t, exec (.refreshEnd cl g) s = .next t ∧ (t.cluster cl).refreshing.getLsbD g.toNat = false ∧ t.threads = s.threads)) ∧
  (∀ (s : State) cl g rest, cl < 256 → (s.cluster cl).gq = g :: rest → halted s g.bolt g.tid = false →
    let n := g.addrs.length * g.wb
    let words := gathWords g g.addrs s
    let gone := fun (s1 : State) => endPulls (s1.setCluster cl { s1.cluster cl with gq := (s1.cluster cl).gq.erase g }) g.bolt (commandKey g.seq)
    (∀ s1 bs, words = .ok (s1, bs) → banksOwed (s.cluster cl) (g.lb + g.dst) n = false → exec (.gathComplete cl) s =
      .next (complete (writeLocal (takeBanks (gone s1) cl (g.lb + g.dst) n) cl (g.lb + g.dst) bs) g.tid g.tok g.seq 3 0 0 none)) ∧
    (∀ k c tv, words = .error (.fault k c tv) → exec (.gathComplete cl) s = .next (complete (gone s) g.tid g.tok g.seq 3 3 0 (some c))) ∧
    (∀ a, words = .error (.wait (some a)) → sendAsk s a ≠ s → exec (.gathComplete cl) s = .next (sendAsk s a))) ∧
  (∀ (s s1 : State) (g : GReq) l bs, gathWords g l s = .ok (s1, bs) → s1 = { s with bolts := s1.bolts } ∧ (∀ b, b ≠ g.bolt → s1.bolt b = s.bolt b) ∧
    s1.bolt g.bolt = { s.bolt g.bolt with pulls := (s1.bolt g.bolt).pulls })

/-- R119, R120, R125, R126: DSEAL and DOPEN change the state of the cluster's slice and wait until it is reached; the two events reach it
once no load or no read is under way; a thread that has seen it goes on. One that meets the slice on its way to the other state waits for it
to be reached, and then begins its own transition. DSTAT and DWIN read.
What the rules leave open is the model's choice here: assumption 7. -/
def Obligations.DamaskStates : Prop :=
  (∀ q r s, Executes q [r] [] s → wholeSlice r (s.t.reg r) = .ok () →
    (s.cl.dstate = 2 → Gives (.dseal q r) s (afterT q s s.t)) ∧ (s.cl.dstate = 0 → Gives (.dopen q r) s (afterT q s s.t)) ∧
    (s.cl.dstate = 0 → Gives (.dseal q r) s (setWait ((s.setCl { s.cl with dstate := 1 }).setT { s.t with stage := 1 }) s.cur .damask)) ∧
    (s.cl.dstate = 2 → Gives (.dopen q r) s (setWait ((s.setCl { s.cl with dstate := 3 }).setT { s.t with stage := 3 }) s.cur .damask)) ∧
    (s.cl.dstate = 1 → Gives (.dseal q r) s (setWait (s.setT { s.t with stage := 1 }) s.cur .damask)) ∧
    (s.cl.dstate = 3 → Gives (.dopen q r) s (setWait (s.setT { s.t with stage := 3 }) s.cur .damask)) ∧
    (s.cl.dstate = 3 → Gives (.dseal q r) s (setWait (s.setT { s.t with stage := 5 }) s.cur .damask)) ∧
    (s.cl.dstate = 1 → Gives (.dopen q r) s (setWait (s.setT { s.t with stage := 6 }) s.cur .damask))) ∧
  (∀ q r s, s.t.occ = .resident → s.t.wait = .damask → s.t.xchg = false → Guarded q s → ReadyRegs q [r] [] s →
    (s.t.stage = 2 ∨ (s.t.stage = 1 ∧ s.cl.dstate = 2) → ∃ t, exec (.dseal q r) s = .next t ∧ t.t.wait = .none ∧ t.t.stage = 0 ∧ t.t.pc = past q s ∧ t.t.regs = s.t.regs ∧ t.dram = s.dram) ∧
    (s.t.stage = 4 ∨ (s.t.stage = 3 ∧ s.cl.dstate = 0) → ∃ t, exec (.dopen q r) s = .next t ∧ t.t.wait = .none ∧ t.t.stage = 0 ∧ t.t.pc = past q s ∧ t.t.regs = s.t.regs ∧ t.dram = s.dram)) ∧
  (∀ (s : State) cl, cl < 256 →
    let waits := fun (p : Nat × Thread) (k : Nat) => clusterOf (coreOf p.1) = cl ∧ (p.2.occ = .resident ∨ (p.2.occ = .pressed ∧ 5 ≤ k)) ∧ p.2.wait = .damask ∧ p.2.stage = k
    ((s.cluster cl).dstate = 1 → (s.cluster cl).loads = 0 → ∃ t, exec (.damaskSealed cl) s = .next t ∧
      ((∃ p ∈ s.threads, waits p 6) → (t.cluster cl).dstate = 3) ∧ ((∀ p ∈ s.threads, ¬ waits p 6) → (t.cluster cl).dstate = 2) ∧
      ∀ p ∈ s.threads, (waits p 1 → (p.1, { p.2 with stage := 2 }) ∈ t.threads) ∧ (waits p 6 → (p.1, { p.2 with stage := 3 }) ∈ t.threads)) ∧
    ((s.cluster cl).dstate = 3 → (s.cluster cl).reads = 0 → ∃ t, exec (.damaskOpened cl) s = .next t ∧
      ((∃ p ∈ s.threads, waits p 5) → (t.cluster cl).dstate = 1) ∧ ((∀ p ∈ s.threads, ¬ waits p 5) → (t.cluster cl).dstate = 0) ∧
      ∀ p ∈ s.threads, (waits p 3 → (p.1, { p.2 with stage := 4 }) ∈ t.threads) ∧ (waits p 5 → (p.1, { p.2 with stage := 1 }) ∈ t.threads))) ∧
  (∀ q d s, Executes q [d] [] s → Gives (.dstat q d) s (writes q s d (Val.ofW (BitVec.ofNat 64 (s.cl.reads % 256 * 65536 + s.cl.loads % 256 * 256 + s.cl.dstate.toNat))))) ∧
  (∀ q d r s, Executes q [r, d] [] s →
    let p := (s.gtime + 8 * 65536 - (valOf s r).toNat % 8 * 8192) % 65536
    Gives (.dwin q d r) s (writes q s d (Val.ofW (if p < 1024 then BitVec.ofNat 64 ((1024 - p) * 2 ^ 32) else BitVec.ofNat 64 (1024 * 2 ^ 32 + (65536 - p))))))

/-- R147 to R150: SENDM sends the words named, with 3 as the status of a bad descriptor; RECV takes the oldest message for its slot, or
waits; delivery enqueues the message, or refuses it as full or unoccupied, and tells the sender.
What the rules leave open is the model's choice here: assumption 23. -/
def Obligations.Messages : Prop :=
  (∀ q d r t s, r.toNat % 4 = 0 → Executes q (four r ++ [t, d]) [] s →
    let w := valOf s t
    let c := bits w.toNat 12 5
    let k := bits w.toNat 18 16
    let good := 1 ≤ k ∧ k ≤ 4 ∧ bits w.toNat 63 19 = 0 ∧ bits w.toNat 15 13 = 0
    (c ≠ s.curCluster → c ∉ s.cl.permt → Traps (.sendm q d r t) s .perm w) ∧
    (c = s.curCluster ∨ c ∈ s.cl.permt → ¬ good → Gives (.sendm q d r t) s (writes q s d (Val.ofW 3))) ∧
    (c = s.curCluster ∨ c ∈ s.cl.permt → good →
      let words := [valOf s r, valOf s (r + 1), valOf s (r + 2), valOf s (r + 3)].take k
      let m : Msg := { src := s.cur, dstCluster := c, dstCore := bits w.toNat 4 2, dstSlot := bits w.toNat 1 0, words := words, header := descOf s s.cur k, stat := d.toNat, bolt := s.t.bolt }
      Gives (.sendm q d r t) s
        { afterT q s { s.t with pending := if d = 0 then s.t.pending else s.t.pending ++ [d.toNat] } with msgs := s.msgs ++ [m] })) ∧
  (∀ q d t s, d.toNat % 4 = 0 → Executes q (t :: four d) [] s →
    (∀ m, s.c.inbox.find? (fun m => decide (m.dstSlot = slotOf s.cur)) = some m →
      let u := (List.range 4).foldl (fun (u : Thread) i => u.setReg (d + BitVec.ofNat 6 i) (Val.ofW (m.words.getD i 0))) s.t
      Gives (.recv q d t) s ((afterT q s (u.setReg t (Val.ofW m.header))).setC { s.c with inbox := s.c.inbox.erase m })) ∧
    ((∀ m ∈ s.c.inbox, m.dstSlot ≠ slotOf s.cur) → exec (.recv q d t) s = .next (setWait s s.cur .message))) ∧
  (∀ (s : State) m, s.msgs = [m] → halted s m.bolt m.src = false → landRoom s m.src (BitVec.ofNat 6 m.stat) = false → exec (.messageDelivery 0) s = .next s) ∧
  (∀ (s : State) m k, s.msgs = [m] → halted s m.bolt m.src = false → landRoom s m.src (BitVec.ofNat 6 m.stat) = true →
    (s.cluster m.dstCluster).owner = .bolt m.bolt ∨ m.bolt = 0 → (liveCores s m.dstCluster)[m.dstCore]? = some k →
    (s.thread (k * 4 + m.dstSlot)).occ ≠ .empty → (s.core k).inbox.length < 64 →
    ∃ t, exec (.messageDelivery 0) s = .next t ∧ t.msgs = [] ∧ (t.core k).inbox = (s.core k).inbox ++ [m] ∧
      ((s.thread m.src).occ ≠ .empty → Map.find (s.thread m.src).binds m.stat = none → 0 < m.stat → m.stat < 64 →
        (t.thread m.src).reg (BitVec.ofNat 6 m.stat) = Val.ofW 0 ∧ (t.thread m.src).pending = (s.thread m.src).pending.erase m.stat)) ∧
  (∀ (s : State) m, s.msgs = [m] → halted s m.bolt m.src = false → (s.thread m.src).occ ≠ .empty →
    Map.find (s.thread m.src).binds m.stat = none → 0 < m.stat → m.stat < 64 →
    ((s.cluster m.dstCluster).owner ≠ .bolt m.bolt → m.bolt ≠ 0 →
      ∃ t, exec (.messageDelivery 0) s = .next t ∧ t.msgs = [] ∧ t.cores = s.cores ∧ (t.thread m.src).reg (BitVec.ofNat 6 m.stat) = Val.ofW 2) ∧
    ((∀ k, (liveCores s m.dstCluster)[m.dstCore]? = some k → (s.thread (k * 4 + m.dstSlot)).occ = .empty) →
      ∃ t, exec (.messageDelivery 0) s = .next t ∧ t.msgs = [] ∧ (t.thread m.src).reg (BitVec.ofNat 6 m.stat) = Val.ofW 2) ∧
    (∀ k, (liveCores s m.dstCluster)[m.dstCore]? = some k → (s.thread (k * 4 + m.dstSlot)).occ ≠ .empty → 64 ≤ (s.core k).inbox.length →
      (s.cluster m.dstCluster).owner = .bolt m.bolt ∨ m.bolt = 0 → ∃ t, exec (.messageDelivery 0) s = .next t ∧ t.msgs = [] ∧ t.cores = s.cores ∧ (t.thread m.src).reg (BitVec.ofNat 6 m.stat) = Val.ofW 1))

/-! ## What comes back to a thread; the write rows -/

/-- R139, R269, R331, R325: a completed token's status word is written, its register ready again, its late fault recorded with it and
its ring entry marked, or freed when there is none; one whose thread has retired is discarded, an image fault of its launch reported
(R295, R390). An engine can go out of service and back. -/
def Sys2Proof.Claims.TokensComplete : Prop :=
  (∀ (s : State) n x, s.completions[n]? = some x → (s.thread x.tid).occ ≠ .empty → (∃ c ∈ (s.thread x.tid).cmds, c.1 = x.seq) → x.reg < 64 →
    Map.find (s.thread x.tid).binds x.reg = none → ∃ t, exec (.tokenCompletion n) s = .next t ∧ t.completions = s.completions.eraseIdx n ∧
      (∀ r : Reg, (t.thread x.tid).reg r = if r.toNat = x.reg ∧ x.reg ≠ 0 then Val.ofW x.word else (s.thread x.tid).reg r) ∧
      (t.thread x.tid).pending = (s.thread x.tid).pending.erase x.reg ∧ (t.thread x.tid).cmds = (s.thread x.tid).cmds.filter (fun c => decide (c.1 ≠ x.seq)) ∧
      (x.late = none → (t.thread x.tid).late = (s.thread x.tid).late ∧
        ∀ k, ringCore s x.seq = some k → (t.core k).ring = (s.core k).ring.filter (fun e => decide (e.seq ≠ x.seq))) ∧
      (∀ c, x.late = some c → (t.thread x.tid).late = (s.thread x.tid).late ++ [{ cause := c, seq := x.seq }] ∧
        ∀ k, ringCore s x.seq = some k → (t.core k).ring = (s.core k).ring.map (fun e => if e.seq = x.seq then { e with fault := true } else e))) ∧
  (∀ (s : State) n x c, s.completions[n]? = some x → (∀ k ∈ (s.thread x.tid).cmds, k.1 ≠ x.seq) → x.late = some c →
    ∃ t, exec (.tokenCompletion n) s = .next t ∧ t.threads = s.threads ∧ t.completions = s.completions.eraseIdx n ∧
      t.reports = s.reports ++ (match x.image with | some (pc, tv) => [{ cause := c, tid := x.tid, tval := tv, pc := pc }] | none => [])) ∧
  (∀ (s : State) unit out, (unit < 256 → exec (.engineOutOfService 1 unit out) s = .next (s.setCluster unit { s.cluster unit with copyOut := out }) ∧
      exec (.engineOutOfService 2 unit out) s = .next (s.setCluster unit { s.cluster unit with matrixOut := out })) ∧
    (unit < 2 → exec (.engineOutOfService 3 unit out) s = .next (s.setDie unit { s.die unit with sorter := { (s.die unit).sorter with out := out } })))

/-- R72, R108, R109, R317: the last part's answer writes the extended value and the thread goes on; an earlier part is kept; a fault of a
part is taken at the instruction, which has changed nothing; an answer to an abandoned access is discarded. -/
def Sys2Proof.Claims.LoadsAnswered : Prop :=
  (∀ (s : State) r a, s.replies = [r] → r.agent = none → halted s (s.thread r.tid).bolt r.tid = false →
    behind s (clusterOf (coreOf r.tid)) r.src r.no r.cls = false → loadRoom s r = true → (s.thread r.tid).await = some a → a.acc = r.acc →
    (a.parts = 1 → a.fault = none → r.fault = none → a.watch = none → a.bytes = [] → r.off = 0 → r.bytes.length = a.size → a.dst < 64 → a.dst ≠ 0 →
      Map.find (s.thread r.tid).binds a.dst = none → (∃ m, a.ext = .sx m) ∨ a.ext = .zx ∨ (∃ lc, a.ext = .full lc) → ∃ t, exec (.loadReply 0) s = .next t ∧ t.replies = [] ∧
        (t.thread r.tid).wait = .none ∧ (t.thread r.tid).await = none ∧
        (t.thread r.tid).reg (BitVec.ofNat 6 a.dst) = { bits := extend a.ext (8 * a.size) (bytesToNat r.bytes), tag := a.tag || r.tag } ∧
        (∀ x : Reg, x.toNat ≠ a.dst → (t.thread r.tid).reg x = (s.thread r.tid).reg x) ∧ t.dram = s.dram) ∧
    (1 < a.parts → ∃ t b, exec (.loadReply 0) s = .next t ∧ t.replies = [] ∧ (t.thread r.tid).await = some b ∧ b.parts = a.parts - 1 ∧
      (t.thread r.tid).regs = (s.thread r.tid).regs ∧ (t.thread r.tid).wait = (s.thread r.tid).wait ∧
      ∀ k, Map.get b.bytes k 0 = if r.off ≤ k ∧ k < r.off + r.bytes.length then r.bytes.getD (k - r.off) 0 else Map.get a.bytes k 0) ∧
    (∀ c tv, a.parts = 1 → a.fault = none → r.fault = some (c, tv) → a.popped = [] → (s.thread r.tid).seamed = false → (s.thread r.tid).handler = false →
      (s.thread r.tid).tvec ≠ 0 → ∃ t, exec (.loadReply 0) s = .next t ∧ (t.thread r.tid).regs = (s.thread r.tid).regs ∧ (t.thread r.tid).binds = a.binds ∧
        (t.thread r.tid).tpc = a.pc ∧ (t.thread r.tid).tval = tv ∧ (t.thread r.tid).pc = (s.thread r.tid).tvec ∧
        bits (t.thread r.tid).cause.toNat 7 0 = c.code.toNat)) ∧
  (∀ (s : State) r, s.replies = [r] → r.agent = none → halted s (s.thread r.tid).bolt r.tid = false → behind s (clusterOf (coreOf r.tid)) r.src r.no r.cls = false →
    ((s.thread r.tid).await = none ∨ ∃ a, (s.thread r.tid).await = some a ∧ (a.acc ≠ r.acc ∨ a.parts = 0)) → exec (.loadReply 0) s = .next { s with replies := [] })

/-- R139, R269, R331, R325: a completed token's status word is written, its register ready again, its late fault recorded with it and its ring entry
marked, or freed when there is none; one whose thread has retired is discarded, an image fault of its launch reported (R295, R390). An engine can go out of service and back. R72, R108, R109, R317: the last part's answer writes the extended value
and the thread goes on; an earlier part is kept; a fault of a part is taken at the instruction, which has changed nothing; an answer to an abandoned
access is discarded.
What the rules leave open is the model's choice here: assumptions 17, 51. -/
def Obligations.AnswersAndTokens : Prop := Sys2Proof.Claims.TokensComplete ∧ Sys2Proof.Claims.LoadsAnswered

/-- R171, R173: a read stream fetches its next element ahead, as a local read of its window does; a pushed word enters its queue, and a
thread that waits at an in port of the core issues again; a word for a cluster that has left the bolt is lost (R344). -/
def Sys2Proof.Claims.StreamsAndPorts : Prop :=
  (∀ (s : State) tid (r : Reg) cap st n w sx pol pos l v, tid < 8192 → (s.thread tid).occ = .resident → halted s (s.thread tid).bolt tid = false →
    Map.find (s.thread tid).binds r.toNat = some (.stream false cap st n w sx pol pos l) → pos + l.length < n → capLoc cap = true →
    readElement s tid r cap st w sx pol (pos + l.length) = .ok (s, v) →
    exec (.streamElementFetch tid r) s = .next (s.setThread tid { s.thread tid with
      binds := Map.set (s.thread tid).binds r.toNat (.stream false cap st n w sx pol pos (l ++ [v])) })) ∧
  (∀ (s : State) p, s.pwords = [p] → pushDue s p = true → takesWord s p = false → exec (.portWordArrival 0) s = .next { s with pwords := [] }) ∧
  (∀ (s : State) p, s.pwords = [p] → pushDue s p = true → takesWord s p = true → ∃ t, exec (.portWordArrival 0) s = .next t ∧ t.pwords = [] ∧
    Map.get (t.core p.core).ports p.side.toNat [] = Map.get (s.core p.core).ports p.side.toNat [] ++ [p.word] ∧
    (∀ i ∈ residents s p.core, (∃ side, (s.thread i).wait = .portIn side) → (t.thread i).wait = .none) ∧
    ∀ i (x : Reg), (t.thread i).reg x = (s.thread i).reg x)

/-- R132, R260, R289, R298, R345, R355, R357, R359, R361, R368: the write rows, each under its rule: what supervisor mode may write is stored
with its reserved bits 0, and a write that user mode may not make changes nothing. -/
def Sys2Proof.Claims.WriteRows : Prop :=
  ∀ (s : State) tid (v : W64), tid < 8192 →
    let t := s.thread tid
    let k := coreOf tid
    let cl := clusterOf k
    let b := s.bolt t.bolt
    (∀ j, j < 16 → exec (.evcWrite tid j v) s = .next (s.setCore k { s.core k with evc := Map.set (s.core k).evc j (v.setWidth 32) }) ∧
      exec (.evsWrite tid j v) s = .next (s.setCore k { s.core k with evs := Map.set (s.core k).evs j (v.setWidth 11) })) ∧
    (t.mode = true →
      ((v.toNat % 4 ≠ 0 ∨ b.class0 = true) → accessesDone { s with cur := tid } = true → ∃ t', exec (.qclassWrite tid v) s = .next t' ∧
        t'.thread tid = { t with qclass := v.setWidth 2 } ∧ t'.clusters = s.clusters) ∧
      (∀ j, j < 4 → ∃ t', exec (.permtWrite tid j v) s = .next t' ∧ t'.threads = s.threads ∧
        ∀ c, c ∈ (t'.cluster cl).permt ↔ if c / 64 = j then v.getLsbD (c % 64) = true ∧ (s.cluster c).owner = .bolt t.bolt else c ∈ (s.cluster cl).permt) ∧
      (exec (.wdogWrite tid v) s = .next (s.setBolt t.bolt { b with wcount := 0, wfired := false, wdog :=
        (v &&& 0x80000000FFFFFFFF#64) ||| (if v.getLsbD 63 = false ∧ b.wdog.getLsbD 62 = true then 1#64 <<< 62 else 0) })) ∧
      (∀ j, j < 4 → let c := (Map.get b.rateCeil j 0x0000FFFFFFFFFFFF#64).toNat
        ∃ t', exec (.rateWrite tid j v) s = .next t' ∧ t'.threads = s.threads ∧
          let w := Map.get (t'.bolt t.bolt).rate j 0
          w.getLsbD 63 = v.getLsbD 63 ∧ bits w.toNat 47 32 = min (bits v.toNat 47 32) (bits c 47 32) ∧ bits w.toNat 31 0 = min (bits v.toNat 31 0) (bits c 31 0)) ∧
      (v.getLsbD 63 = false → ∃ t', exec (.trctlWrite tid v) s = .next t' ∧ t'.threads = s.threads ∧ t'.clusters = s.clusters ∧
        (t'.bolt t.bolt).trctl.getLsbD 63 = false ∧ (t'.bolt t.bolt).trctl.getLsbD 62 = v.getLsbD 62 ∧
        (t'.bolt t.bolt).trctl.getLsbD 61 = v.getLsbD 61 ∧ (t'.bolt t.bolt).trctl.getLsbD 60 = b.trctl.getLsbD 60) ∧
      (b.trctl.getLsbD 63 = false → exec (.trringWrite tid v) s = .next (s.setCluster cl { s.cluster cl with trBase := v.toNat % 32, trWptr := 0, trWrap := false })) ∧
      ((s.cluster cl).lq = [] → (s.cluster cl).gq = [] → (∀ c ∈ liveCores s cl, ∀ r ∈ (s.core c).mq, r.windowed = false) → ∀ j, j < 16 → exec (.lpregWrite tid j v) s = .next (s.setCluster cl { s.cluster cl with lpreg := Map.set (s.cluster cl).lpreg j (v &&& 0x8F0001FF000001FF#64) })) ∧
      (∀ j, j < 256 → ∃ t', exec (.layoutTableWrite tid j v) s = .next t' ∧ t'.threads = s.threads ∧
        Map.get (t'.die (dieOf k)).sorter.layout j 0 = if j % 4 = 3 then v &&& 0x1FF#64 else if j % 4 = 1 then v &&& 0x00FFFFFFFFFFFFFF#64 else v) ∧
      (∀ j, 4 ≤ j → j < 1024 → j % 4 < 2 → (Map.get b.groups (j / 4 * 4 + 3) 0#64).getLsbD 32 = false →
        exec (.groupTableWrite tid j v) s = .next (s.setBolt t.bolt { b with groups := Map.set b.groups j (if j % 4 = 0 then v &&& 0x0000FFFFFFFF0003#64 else v) })) ∧
      exec (.controlRegisterWrite tid 0x004 v) s = .next (s.setThread tid { t with tvec := v &&& ~~~1#64 }) ∧
      exec (.controlRegisterWrite tid 0x3002 v) s = .next (s.setBolt t.bolt { b with ltvec := v &&& ~~~1#64 }) ∧
      exec (.controlRegisterWrite tid 0x3000 v) s = .next (s.setBolt t.bolt { b with evict := v.setWidth 32 })) ∧
    (t.mode = false → ∀ j, exec (.qclassWrite tid v) s = .next s ∧ exec (.permtWrite tid j v) s = .next s ∧ exec (.wdogWrite tid v) s = .next s ∧
      exec (.rateWrite tid j v) s = .next s ∧ exec (.trctlWrite tid v) s = .next s ∧ exec (.trringWrite tid v) s = .next s ∧
      exec (.lpregWrite tid j v) s = .next s ∧ exec (.groupTableWrite tid j v) s = .next s ∧ exec (.controlRegisterWrite tid 0x3002 v) s = .next s)

/-- R171, R173: a read stream fetches its next element ahead, as a local read of its window does; a pushed word enters its queue, and a thread that waits
at an in port of the core issues again; a word for a cluster that has left the bolt is lost (R344). R132, R260, R289, R298, R345, R355, R357, R359, R361, R368: the write rows, each under its rule: what supervisor
mode may write is stored with its reserved bits 0, and a write that user mode may not make changes nothing.
What the rules leave open is the model's choice here: assumptions 18, 28, 29, 52, 69, 76. -/
def Obligations.StreamsAndWrites : Prop := Sys2Proof.Claims.StreamsAndPorts ∧ Sys2Proof.Claims.WriteRows

/-! ## Floating point and vectors -/

namespace Sys2Proof.Claims

/-- The lanes of width `w` that a function of the lane's number gives (R200). -/
def byLane (w : Nat) (g : Nat → Nat) : Nat := ofLanes w ((List.range (512 / w)).map g)

/-- `s` with a 512-bit number in group `d`, untagged, and the pc past the instruction. -/
def writesVec (q : Pre) (s : State) (d : Reg) (v : Nat) : State := afterT q s (setVec s.t d v)

/-- Whether registers name groups (R200). -/
def groups (rs : List Reg) : Prop := ∀ r ∈ rs, r.toNat % 4 = 0

/-- The low 32 bits of a register: the operand of a scalar floating form (R198). -/
def low32 (s : State) (r : Reg) : Nat := (s.t.reg r).bits.toNat % 2 ^ 32

/-- Code `.f32`: the scalar form (R201). -/
def f32Code : Code := 19

/-- The two-address rows of R214 that have vector forms. -/
def floatTwos : List ((Pre → Code → Reg → Reg → Reg → Instr) × (Fmt → BitVec 2 → Nat → Nat → Nat × Ev)) := [
  (.fadd, elAdd), (.fsub, elSub), (.fmul, elMul), (.fmin, fun t _ => elPick false t), (.fmax, fun t _ => elPick true t)]

/-- The four accumulating rows of R214, with the signs of the product and of the addend. -/
def floatFmas : List ((Pre → Code → Reg → Reg → Reg → Instr) × Bool × Bool) := [
  (.fma, false, false), (.fms, false, true), (.fnma, true, true), (.fnms, true, false)]

/-- The functions of R219. -/
def functions : List ((Pre → Code → Reg → Reg → Instr) × Fn) := [
  (.frcp, .rcp), (.frsq, .rsq), (.fexp2, .exp2), (.flog2, .log2), (.fsig, .sig), (.fsqrt, .sqrt), (.ftanh, .tanh)]

/-- The predicates of R215. -/
def predicates : List ((Pre → Code → Reg → Reg → Reg → Instr) × Pred) := [(.fcmpEq, .eq), (.fcmpLt, .lt), (.fcmpLe, .le), (.fcmpUn, .un)]

/-- The unary rows on element bits: FABS, FNEG. -/
def signRows : List ((Pre → Code → Reg → Reg → Instr) × (Nat → Nat → Nat)) := [
  (.fabs, fun n b => b % 2 ^ (n - 1)), (.fneg, fun n b => if b.testBit (n - 1) then b - 2 ^ (n - 1) else b + 2 ^ (n - 1))]

/-- The tree rows of R221: the reduction, one node on floating lanes and on integer lanes. -/
def trees : List ((Pre → Code → Reg → Reg → Instr) × (Fmt → BitVec 2 → Nat → Nat → Nat × Ev) × (Int → Int → Int)) := [
  (.vredAdd, elAdd, fun x y => x + y), (.vredMin, fun t _ => elPick false t, min), (.vredMax, fun t _ => elPick true t, max)]

/-- An integer lane as its code reads it (R47). -/
def laneInt (f : Code) (x : Nat) : Int := if codeType f = 0 then sext x (laneBits f) else (x : Int)

/-- R221's tree over `2^k` lanes from lane `i` on. -/
def tree (node : Nat → Nat → Nat) (l : Nat → Nat) : Nat → Nat → Nat
  | 0, i => l i
  | k + 1, i => node (tree node l k i) (tree node l k (i + 2 ^ k))

/-- Depth of the tree: log2 of the lane count. -/
def depth (f : Code) : Nat := Nat.log2 (512 / laneBits f)

/-- The integer lane rows of R223: the lane's result from the lanes x and y, before it is reduced modulo 2^w. -/
def laneRows : List ((Pre → Code → Reg → Reg → Reg → Instr) × (Code → Nat → Nat → Int)) := [
  (.viadd, fun _ x y => (x : Int) + (y : Int)), (.visub, fun _ x y => (x : Int) - (y : Int)), (.vimul, fun _ x y => (x : Int) * (y : Int)),
  (.vshl, fun f x y => let c := sext y (laneBits f)
    if 0 ≤ c then (if (laneBits f : Int) ≤ c then 0 else (x : Int) * ((2 ^ c.toNat : Nat) : Int)) else laneInt f x / ((2 ^ (-c).toNat : Nat) : Int))]

/-- The bitwise rows of R223. -/
def bitRows : List ((Pre → Code → Reg → Reg → Reg → Instr) × (Bool → Bool → Bool)) := [
  (.vand, fun a b => a && b), (.vor, fun a b => a || b), (.vxor, fun a b => a ^^ b)]

/-- An integer modulo 2^w. -/
def wrap (w : Nat) (i : Int) : Nat := (i % ((2 ^ w : Nat) : Int)).toNat

end Sys2Proof.Claims

/-- R213, R214, R219, R215: the scalar forms write the result of the element operation (whose values RoundingIsCorrect, ElementRules and
FunctionTable state), zero above it; FCMP writes one flag; a floating operation changes nothing else but event counters. -/
def Obligations.ScalarFloating : Prop :=
  (∀ e ∈ floatTwos, ∀ q d x y s, Executes q [x, y, d] [] s →
    Gives (e.1 q f32Code d x y) s (writes q s d (Val.ofNat (e.2 (.ieee f32) s.t.frm (low32 s x) (low32 s y)).1))) ∧
  (∀ q d x y s, Executes q [x, y, d] [] s → Gives (.fdiv q f32Code d x y) s (writes q s d (Val.ofNat (elDiv s.t.frm (low32 s x) (low32 s y)).1))) ∧
  (∀ e ∈ floatFmas, ∀ q d r t s, Executes q [r, t, d] [] s → Gives (e.1 q f32Code d r t) s
    (writes q s d (Val.ofNat (elFma e.2.1 e.2.2 (.ieee f32) s.t.frm (low32 s r) (low32 s t) (low32 s d)).1))) ∧
  (∀ e ∈ signRows, ∀ q d r s, Executes q [r, d] [] s → Gives (e.1 q f32Code d r) s (writes q s d (Val.ofNat (e.2 32 (low32 s r))))) ∧
  (∀ e ∈ functions, ∀ q d r s, Executes q [r, d] [] s → Gives (e.1 q f32Code d r) s (writes q s d (Val.ofNat (fnValue f32 s.t.frm e.2 (low32 s r)).1))) ∧
  (∀ e ∈ predicates, ∀ q d x y s, d.toNat < 8 → Executes q [x, y] [] s → Gives (e.1 q f32Code d x y) s
    (afterT q s (s.t.setFlag (d.setWidth 3) (e.2.holds (f32.decode (low32 s x)) (f32.decode (low32 s y))).1))) ∧
  (∀ q d r t s, Executes q [r, t, d] [] s →
    (∀ neg m x, f32.decode (low32 s t) = .fin neg m x → neg = false → m ≠ 0 →
      Gives (.scale q f32Code d r t) s (writes q s d (Val.ofNat (roundOp (.ieee f32) s.t.frm ((f32.decode (low32 s r)).mul (.fin false m x))).1))) ∧
    ((∀ m x, f32.decode (low32 s t) = .fin false m x → m = 0) → Traps (.scale q f32Code d r t) s .scale (BitVec.ofNat 64 (low32 s t)))) ∧
  (∀ q f d r (src : Code) s, okFcvt false f = true → okFcvt false src = true → Executes q [r, d] [] s →
    let b := (roundOp (fmtOf f) s.t.frm ((fmtOf src).decode ((s.t.reg r).bits.toNat % 2 ^ (fmtOf src).bits), {})).1
    Gives (.fcvt q f false d r src) s (writes q s d (if codeType f = 0 then Val.ofW (w64 (sext b (fmtOf f).bits)) else Val.ofNat b)))

/-- R200, R214 to R221: the vector forms apply the element operation lane by lane; SCALE multiplies every lane by one scale; FCVT converts
the lanes that the wider format leaves; the reductions join neighbours in a tree, ADDX sums exactly; FCMP without XR compares with zero.
What the rules leave open is the model's choice here: assumptions 25, 26. -/
def Obligations.VectorFloating : Prop :=
  (∀ (q : Pre) (f : Code) (s : State), okFloat f = true → f ≠ 19 → let w := laneBits f
    (∀ e ∈ floatTwos, ∀ d x y, groups [d, x, y] → Executes q (four x ++ four y ++ four d) [] s → Gives (e.1 q f d x y) s
      (writesVec q s d (byLane w (fun i => (e.2 (fmtOf f) s.t.frm (lane (vecOf s.t x) w i) (lane (vecOf s.t y) w i)).1)))) ∧
    (∀ e ∈ floatFmas, ∀ d r t, groups [d, r, t] → Executes q (four r ++ four t ++ four d) [] s → Gives (e.1 q f d r t) s
      (writesVec q s d (byLane w (fun i =>
        (elFma e.2.1 e.2.2 (fmtOf f) s.t.frm (lane (vecOf s.t r) w i) (lane (vecOf s.t t) w i) (lane (vecOf s.t d) w i)).1)))) ∧
    (∀ e ∈ signRows, ∀ d r, groups [d, r] → Executes q (four r ++ four d) [] s → Gives (e.1 q f d r) s
      (writesVec q s d (byLane w (fun i => e.2 w (lane (vecOf s.t r) w i))))) ∧
    (∀ e ∈ functions, ∀ d r k, fmtOf f = .ieee k → groups [d, r] → Executes q (four r ++ four d) [] s → Gives (e.1 q f d r) s
      (writesVec q s d (byLane w (fun i => (fnValue k s.t.frm e.2 (lane (vecOf s.t r) w i)).1)))) ∧
    (∀ d r t, groups [d, r] → Executes q (t :: four r ++ four d) [] s → ∀ m x, f32.decode (low32 s t) = .fin false m x → m ≠ 0 →
      Gives (.scale q f d r t) s (writesVec q s d (byLane w (fun i =>
        (roundOp (fmtOf f) s.t.frm (((fmtOf f).decode (lane (vecOf s.t r) w i)).mul (.fin false m x))).1))))) ∧
  (∀ e ∈ predicates, ∀ q (f : Code) d x y s, okFcmp f = true → f ≠ 19 → groups (if q.xr then [d, x, y] else [d, x]) →
    Executes q (four x ++ (if q.xr then four y else []) ++ four d) [] s → let w := laneBits f
    Gives (e.1 q f d x y) s (writesVec q s d (byLane w (fun i =>
      if (e.2.onLane (fmtOf f) (lane (vecOf s.t x) w i) (if q.xr then lane (vecOf s.t y) w i else 0)).1 then 2 ^ w - 1 else 0)))) ∧
  (∀ q f d r (src : Code) s, okFcvt true f = true → okFcvt true src = true → groups [d, r] → Executes q (four r ++ four d) [] s →
    let ws := (fmtOf src).bits
    let wd := (fmtOf f).bits
    Gives (.fcvt q f true d r src) s (writesVec q s d (byLane wd (fun i =>
      if i < 512 / max ws wd then (roundOp (fmtOf f) s.t.frm ((fmtOf src).decode (lane (vecOf s.t r) ws i), {})).1 else 0)))) ∧
  (∀ q (f : Code) d r s, groups [r] → Executes q (d :: four r) [] s → let w := laneBits f; let l := fun i => lane (vecOf s.t r) w i
    (f ∈ [22, 18, 26] →
      (∀ e ∈ trees, Gives (e.1 q f d r) s (writes q s d (Val.ofNat (tree (fun a b => (e.2.1 (fmtOf f) s.t.frm a b).1) l (depth f) 0)))) ∧
      Gives (.vredAddx q f d r) s (writes q s d (Val.ofNat (addxFloat (fmtOf f) s.t.frm ((List.range (512 / w)).map l)).1))) ∧
    (okIntLane f = true →
      (∀ e ∈ trees, Gives (e.1 q f d r) s
        (writes q s d (Val.ofW (w64 (laneInt f (tree (fun a b => wrap w (e.2.2 (laneInt f a) (laneInt f b))) l (depth f) 0)))))) ∧
      Gives (.vredAddx q f d r) s (writes q s d (Val.ofW (w64 (((List.range (512 / w)).map (fun i => laneInt f (l i))).sum))))))

/-- R222, R223: lane movement and selection, integer lanes modulo 2^w, bitwise vectors; every accepted code of the bitwise rows gives the
same 512 bits. -/
def Obligations.LanesAndBits : Prop :=
  ∀ (q : Pre) (f : Code) (s : State), let w := laneBits f; let n := 512 / w
    (okLane f = true →
      (∀ d r, groups [d] → Executes q (r :: four d) [] s →
        Gives (.vbcast q f d r) s (writesVec q s d (byLane w (fun _ => (s.t.reg r).bits.toNat % 2 ^ w)))) ∧
      (∀ d r t, groups [d, r, t] → Executes q (four r ++ four t ++ four d) [] s →
        Gives (.vperm q f d r t) s (writesVec q s d (byLane w (fun i => lane (vecOf s.t r) w (lane (vecOf s.t t) w i % n)))) ∧
        Gives (.vshuf q f d r t) s (writesVec q s d (byLane w (fun i => lane (vecOf s.t (if i % 2 = 0 then r else t)) w (i / 2))))) ∧
      (∀ d r t, groups [d, r] → Executes q (t :: four r ++ four d) [] s →
        Gives (.vslide q f d r t) s (writesVec q s d (byLane w (fun i => let j := (i : Int) + (valOf s t).toInt
          if 0 ≤ j ∧ j < (n : Int) then lane (vecOf s.t r) w j.toNat else 0))))) ∧
    (okVector f = true →
      (∀ d r t, groups [d, r, t] → Executes q (four r ++ four t ++ four d) [] s →
        Gives (.vsel q f d r t) s (writesVec q s d (byLane w (fun i =>
          if (lane (vecOf s.t d) w i).testBit (w - 1) then lane (vecOf s.t r) w i else lane (vecOf s.t t) w i)))) ∧
      (∀ e ∈ bitRows, ∀ d x y, groups [d, x, y] → Executes q (four x ++ four y ++ four d) [] s →
        ∃ v, Gives (e.1 q f d x y) s (writesVec q s d v) ∧ v < 2 ^ 512 ∧
          ∀ i, i < 512 → v.testBit i = e.2 ((vecOf s.t x).testBit i) ((vecOf s.t y).testBit i))) ∧
    (okIntLane f = true →
      (∀ e ∈ laneRows, ∀ d x y, groups [d, x, y] → Executes q (four x ++ four y ++ four d) [] s →
        Gives (e.1 q f d x y) s (writesVec q s d (byLane w (fun i => wrap w (e.2 f (lane (vecOf s.t x) w i) (lane (vecOf s.t y) w i)))))) ∧
      (∀ d r t, groups [d, r, t] → Executes q (four r ++ four t ++ four d) [] s →
        Gives (.vimac q f d r t) s (writesVec q s d (byLane w (fun i =>
          (lane (vecOf s.t d) w i + lane (vecOf s.t r) w i * lane (vecOf s.t t) w i) % 2 ^ w)))))

namespace Sys2Proof.Claims

/-- The magnitude of a positive IEEE code in units of the least subnormal; an infinity's is that of the value it stands in for when
rounding. -/
def unitsOf (k : Ieee) (b : Nat) : Nat := if b / 2 ^ k.fb = 0 then b else (2 ^ k.fb + b % 2 ^ k.fb) * 2 ^ (b / 2 ^ k.fb - 1)

/-- The exponent of the least subnormal. -/
def leastExp (k : Ieee) : Int := 2 - ((2 ^ (k.eb - 1) : Nat) : Int) - (k.fb : Int)

/-- The code of an infinity, and of the sign bit. -/
def infCode (k : Ieee) : Nat := (2 ^ k.eb - 1) * 2 ^ k.fb
def signOf (k : Ieee) (neg : Bool) : Nat := if neg then 2 ^ (k.eb + k.fb) else 0

end Sys2Proof.Claims

/-- R184: a finite value below the overflow bound becomes one of the two representable values around it: toward zero under RZ, up under
RU, down under RD, the nearer under RNE and the even one at a tie; beyond it, the infinity or the largest finite value that the rounding
gives. A representable value is kept, and no event is counted. -/
def Obligations.RoundingIsCorrect : Prop :=
  ∀ k ∈ [f32, f16, b16], ∀ mode : BitVec 2,
    (∀ (neg : Bool) (m : Nat) (e : Int), m ≠ 0 →
      let n := m * 2 ^ (e - leastExp k).toNat
      let d := 2 ^ (leastExp k - e).toNat
      let r := ((Fmt.ieee k).encode mode (.fin neg m e)).1
      (n < d * unitsOf k (infCode k) → ∃ b, b < infCode k ∧ d * unitsOf k b ≤ n ∧ n < d * unitsOf k (b + 1) ∧
        r = signOf k neg + (b + if (mode = 0 ∧ (d * (unitsOf k b + unitsOf k (b + 1)) < 2 * n ∨ (d * (unitsOf k b + unitsOf k (b + 1)) = 2 * n ∧ b % 2 = 1))) ∨
          (mode = 2 ∧ neg = false ∧ d * unitsOf k b < n) ∨ (mode = 3 ∧ neg = true ∧ d * unitsOf k b < n) then 1 else 0)) ∧
      (d * unitsOf k (infCode k) ≤ n →
        r = signOf k neg + infCode k - if mode = 1 ∨ (mode = 2 ∧ neg = true) ∨ (mode = 3 ∧ neg = false) then 1 else 0)) ∧
    (∀ b, b < 2 ^ (1 + k.eb + k.fb) → (k.decode b).isNan = false → (Fmt.ieee k).encode mode (k.decode b) = (b, {})) ∧
    (∀ b, b < 2 ^ (1 + k.eb + k.fb) → (k.decode b).isNan = true → ((Fmt.ieee k).encode mode (k.decode b)).1 = k.nan)

/-- R183, R213 to R215, R220, R194: the exact values that are rounded, and what is not rounded: NaNs give the canonical NaN, exact zero sums their
sign, FMIN and FMAX choose, the predicates of FCMP, dividing by zero. -/
def Sys2Proof.Claims.ElementRules : Prop :=
  (∀ k ∈ [f32, f16, b16], ∀ (mode : BitVec 2) (x y : Nat), let t := Fmt.ieee k
    ((k.decode x).isNan = true ∨ (k.decode y).isNan = true →
      (elAdd t mode x y).1 = k.nan ∧ (elSub t mode x y).1 = k.nan ∧ (elMul t mode x y).1 = k.nan ∧
      (∀ np nd z, (elFma np nd t mode x z y).1 = k.nan) ∧
      (Pred.holds .eq (k.decode x) (k.decode y)).1 = false ∧ (Pred.holds .lt (k.decode x) (k.decode y)).1 = false ∧
      (Pred.holds .le (k.decode x) (k.decode y)).1 = false ∧ (Pred.holds .un (k.decode x) (k.decode y)).1 = true) ∧
    ((k.decode x).isNan = true → (k.decode y).isNan = false → ∀ mx, (elPick mx t x y).1 = y ∧ (elPick mx t y x).1 = y) ∧
    ((k.decode x).isNan = true → (k.decode y).isNan = true → ∀ mx, (elPick mx t x y).1 = k.nan) ∧
    (∀ m e n g a b, k.decode x = .fin a m e → k.decode y = .fin b n g →
      let u := min e g
      let sx := signedAt a m e u
      let sy := signedAt b n g u
      (sx + sy ≠ 0 → elAdd t mode x y = roundOp t mode (.fin (decide (sx + sy < 0)) (sx + sy).natAbs u, {})) ∧
      (sx + sy = 0 → (m ≠ 0 ∨ a ≠ b) → (elAdd t mode x y).1 = signOf k (decide (mode = 3))) ∧
      elMul t mode x y = roundOp t mode (.fin (a != b) (m * n) (e + g), {}) ∧
      ((Pred.holds .lt (k.decode x) (k.decode y)).1 = decide (sx < sy)) ∧ ((Pred.holds .le (k.decode x) (k.decode y)).1 = decide (sx ≤ sy)) ∧
      ((Pred.holds .eq (k.decode x) (k.decode y)).1 = decide (sx = sy)) ∧
      (sx < sy → (elPick false t x y).1 = x ∧ (elPick false t y x).1 = x ∧ (elPick true t x y).1 = y ∧ (elPick true t y x).1 = y) ∧
      (m = 0 → n = 0 → a = true → b = false → (elPick false t x y).1 = x ∧ (elPick false t y x).1 = x ∧ (elPick true t x y).1 = y ∧ (elPick true t y x).1 = y)) ∧
    (∀ a b, k.decode x = .inf a → k.decode y = .inf b → a ≠ b → elAdd t mode x y = (k.nan, Ev.invalid))) ∧
  (∀ (mode : BitVec 2) (x y : Nat) (a b : Bool) (m n : Nat) (e g : Int), f32.decode x = .fin a m e → f32.decode y = .fin b n g →
    (m ≠ 0 → n = 0 → elDiv mode x y = (f32.inf (a != b), { dz := 1 })) ∧ (m = 0 → n = 0 → elDiv mode x y = (f32.nan, Ev.invalid)) ∧
    (m = 0 → n ≠ 0 → elDiv mode x y = (signOf f32 (a != b), {}))) ∧
  (∀ (t : Fmt) (mode : BitVec 2) (x y z : Nat) (np nd : Bool) (a b c : Bool) (l m n : Nat) (e g h : Int),
    t.decode x = .fin a l e → t.decode y = .fin b m g → t.decode z = .fin c n h →
    let u := min (e + g) h
    let p := signedAt ((a != b) != np) (l * m) (e + g) u
    let d := signedAt (c != nd) n h u
    p + d ≠ 0 → elFma np nd t mode x y z = roundOp t mode (.fin (decide (p + d < 0)) (p + d).natAbs u, {}))

namespace Sys2Proof.Claims

/-- R219's table of special operands: its columns in the order FRCP, FRSQ, FSQRT, FEXP2, FLOG2, FSIG, FTANH; the rows +∞, −∞, +0, −0. -/
def special (k : Ieee) : List (Nat × List (Nat × Ev)) :=
  let p := infCode k
  let m := signOf k true
  let one := (2 ^ (k.eb - 1) - 1) * 2 ^ k.fb
  let half := (2 ^ (k.eb - 1) - 2) * 2 ^ k.fb
  let bad := (k.nan, Ev.invalid)
  let dz : Ev := { dz := 1 }
  [(p, [(0, {}), (0, {}), (p, {}), (p, {}), (p, {}), (one, {}), (one, {})]),
   (m + p, [(m, {}), bad, bad, (0, {}), bad, (0, {}), (m + one, {})]),
   (0, [(p, dz), (p, dz), (0, {}), (one, {}), (m + p, dz), (half, {}), (0, {})]),
   (m, [(m + p, dz), (m + p, dz), (m, {}), (one, {}), (m + p, dz), (half, {}), (m, {})])]

/-- `r` is a non-zero real rounded once into an IEEE format (R184): `lt h` says that `h` half units of the least place lie below its magnitude, `eq h` that
they are it. -/
def rounded (k : Ieee) (mode : BitVec 2) (neg : Bool) (lt eq : Nat → Prop) (r : Nat) : Prop :=
  (∃ b, b < infCode k ∧ (lt (2 * unitsOf k b) ∨ eq (2 * unitsOf k b)) ∧ ¬ lt (2 * unitsOf k (b + 1)) ∧ ¬ eq (2 * unitsOf k (b + 1)) ∧
    ((r = signOf k neg + (b + 1) ∧ ((mode = 0 ∧ (lt (unitsOf k b + unitsOf k (b + 1)) ∨ (eq (unitsOf k b + unitsOf k (b + 1)) ∧ b % 2 = 1))) ∨
        (mode = 2 ∧ neg = false ∧ lt (2 * unitsOf k b)) ∨ (mode = 3 ∧ neg = true ∧ lt (2 * unitsOf k b)))) ∨
      (r = signOf k neg + b ∧ ¬ ((mode = 0 ∧ (lt (unitsOf k b + unitsOf k (b + 1)) ∨ (eq (unitsOf k b + unitsOf k (b + 1)) ∧ b % 2 = 1))) ∨
        (mode = 2 ∧ neg = false ∧ lt (2 * unitsOf k b)) ∨ (mode = 3 ∧ neg = true ∧ lt (2 * unitsOf k b)))))) ∨
  ((lt (2 * unitsOf k (infCode k)) ∨ eq (2 * unitsOf k (infCode k))) ∧ (r = signOf k neg + infCode k ∨ r = signOf k neg + infCode k - 1) ∧
    (r = signOf k neg + infCode k - 1 ↔ mode = 1 ∨ (mode = 2 ∧ neg = true) ∨ (mode = 3 ∧ neg = false)))

/-- Operands of FP32 and their values in the modes RNE, RZ, RU, RD, worked out by decimal arithmetic to 120 digits. -/
def workedValues : List (Fn × Nat × List Nat) := [
  (.sig, 0x3F800000, [0x3F3B26A8, 0x3F3B26A7, 0x3F3B26A8, 0x3F3B26A7]), (.sig, 0xBF800000, [0x3E89B2B1, 0x3E89B2B0, 0x3E89B2B1, 0x3E89B2B0]),
  (.sig, 0x3DCCCCCD, [0x3F066509, 0x3F066509, 0x3F06650A, 0x3F066509]), (.tanh, 0x3F800000, [0x3F42F7D6, 0x3F42F7D5, 0x3F42F7D6, 0x3F42F7D5]),
  (.tanh, 0xBF000000, [0xBEEC9A9F, 0xBEEC9A9E, 0xBEEC9A9E, 0xBEEC9A9F]), (.tanh, 0x3DCCCCCD, [0x3DCC1EBC, 0x3DCC1EBB, 0x3DCC1EBC, 0x3DCC1EBB]),
  (.exp2, 0x3F000000, [0x3FB504F3, 0x3FB504F3, 0x3FB504F4, 0x3FB504F3]), (.exp2, 0xBFA00000, [0x3ED744FD, 0x3ED744FC, 0x3ED744FD, 0x3ED744FC]),
  (.log2, 0x40400000, [0x3FCAE00D, 0x3FCAE00D, 0x3FCAE00E, 0x3FCAE00D]), (.log2, 0x3F000001, [0xBF7FFFFD, 0xBF7FFFFD, 0xBF7FFFFD, 0xBF7FFFFE])]

end Sys2Proof.Claims

/-- R219: the special operands; a negative finite operand of FRSQ, FSQRT and FLOG2; FRCP, FSQRT and FRSQ of every other operand, correctly rounded; FSIG and
FTANH far from 0, some values of the functions that are no root; FEXP2 of an integer in range, FLOG2 of a power of two and FSQRT of a square are exact. -/
def Sys2Proof.Claims.FunctionTable : Prop :=
  ∀ k ∈ [f32, f16, b16], ∀ mode : BitVec 2,
    (∀ row ∈ special k, ∀ e ∈ List.zip [Fn.rcp, .rsq, .sqrt, .exp2, .log2, .sig, .tanh] row.2, fnValue k mode e.1 row.1 = e.2) ∧
    (∀ b g, (k.decode b).isNan = true → (fnValue k mode g b).1 = k.nan) ∧
    (∀ b m e, k.decode b = .fin true m e → m ≠ 0 → ∀ g ∈ [Fn.rsq, .sqrt, .log2], fnValue k mode g b = (k.nan, Ev.invalid)) ∧
    (∀ b (i : Nat) (neg : Bool) m e, k.decode b = .fin neg m e → (ratioOf m e).1 = i * (ratioOf m e).2 → 0 < i → i < 2 ^ (k.eb - 1) - 1 →
      fnValue k mode .exp2 b = ((if neg then 2 ^ (k.eb - 1) - 1 - i else 2 ^ (k.eb - 1) - 1 + i) * 2 ^ k.fb, {})) ∧
    (∀ b (j : Nat) (e : Int), k.decode b = .fin false (2 ^ j) e → fnValue k mode .log2 b = (Fmt.ieee k).encode mode (FV.ofInt ((j : Int) + e))) ∧
    (∀ b neg m e, k.decode b = .fin neg m e → m ≠ 0 → let l := leastExp k
      rounded k mode neg (fun h => h * (m * 2 ^ (e + l).toNat) < 2 * 2 ^ (-(e + l)).toNat) (fun h => h * (m * 2 ^ (e + l).toNat) = 2 * 2 ^ (-(e + l)).toNat)
        (fnValue k mode .rcp b).1) ∧
    (∀ b m e, k.decode b = .fin false m e → m ≠ 0 → let l := leastExp k
      rounded k mode false (fun h => h ^ 2 * 2 ^ (2 * l - e).toNat < 4 * (m * 2 ^ (e - 2 * l).toNat)) (fun h => h ^ 2 * 2 ^ (2 * l - e).toNat = 4 * (m * 2 ^ (e - 2 * l).toNat))
        (fnValue k mode .sqrt b).1 ∧
      rounded k mode false (fun h => h ^ 2 * (m * 2 ^ (e + 2 * l).toNat) < 4 * 2 ^ (-(e + 2 * l)).toNat)
        (fun h => h ^ 2 * (m * 2 ^ (e + 2 * l).toNat) = 4 * 2 ^ (-(e + 2 * l)).toNat) (fnValue k mode .rsq b).1) ∧
    (∀ b m (i : Nat) (e g : Int), k.decode b = .fin false m e → m ≠ 0 → 2 * g ≤ e → m * 2 ^ (e - 2 * g).toNat = i * i →
      fnValue k mode .sqrt b = (((Fmt.ieee k).encode mode (.fin false i g)).1, {})) ∧
    (∀ b neg m e, k.decode b = .fin neg m e → 300 * (ratioOf m e).2 ≤ (ratioOf m e).1 → let one := (2 ^ (k.eb - 1) - 1) * 2 ^ k.fb
      (fnValue k mode .tanh b).1 = signOf k neg + one - (if mode = 1 ∨ (mode = 2 ∧ neg = true) ∨ (mode = 3 ∧ neg = false) then 1 else 0) ∧
      (fnValue k mode .sig b).1 = if neg then (if mode = 2 then 1 else 0) else one - (if mode = 1 ∨ mode = 3 then 1 else 0)) ∧
    ∀ e ∈ workedValues, (fnValue f32 mode e.1 e.2.1).1 = e.2.2.getD mode.toNat 0

/-- R183, R213 to R215, R220, R194: the exact values that are rounded, and what is not rounded: NaNs give the canonical NaN, exact zero sums their sign,
FMIN and FMAX choose, the predicates of FCMP, dividing by zero. R219: the special operands; a negative finite operand of FRSQ, FSQRT and FLOG2; FRCP, FSQRT
and FRSQ of every other operand, correctly rounded; FSIG and FTANH far from 0, some values of the functions that are no root; FEXP2 of an integer in range,
FLOG2 of a power of two and FSQRT of a square are exact.
What the rules leave open is the model's choice here: assumption 26. -/
def Obligations.ElementsAndFunctions : Prop := Sys2Proof.Claims.ElementRules ∧ Sys2Proof.Claims.FunctionTable

/-! ## Exceptions and service calls -/

namespace Sys2Proof.Claims

/-- The thread as R327 enters its handler: `extra` holds LOST, SUB and LATE in their places. -/
def entered (t : Thread) (code : BitVec 8) (extra : Nat) (tval tpc : W64) : Thread :=
  { t with
    cause := BitVec.ofNat 64 (extra + t.xchg.toNat * 2 ^ 9 + t.mode.toNat * 2 ^ 8 + code.toNat)
    tval := tval
    tpc := tpc
    mode := true
    handler := true
    xchg := false
    pc := t.tvec
    ecap := capMove t.ecap t.tvec
    wait := .none
    stage := 0
    phases := []
    relOk := false
    await := none }

/-- The causes and their codes (R325). -/
def codes : List (Cause × Nat) := [
  (.illegal, 0x01), (.allot, 0x02), (.group, 0x03), (.captag, 0x04), (.capbound, 0x05), (.capperm, 0x06), (.localprot, 0x07), (.page, 0x08),
  (.storefault, 0x09), (.scale, 0x0A), (.stallcount, 0x0B), (.coproc, 0x0C), (.walk, 0x0D), (.damask, 0x0E), (.perm, 0x0F), (.seamfray, 0x10),
  (.stream, 0x11), (.trap, 0x12), (.hcall, 0x13), (.watchdog, 0x14), (.nested, 0x15), (.savefault, 0x16), (.map, 0x17), (.machinecheck, 0x1F)]

/-- A thread that can enter its handler: no member of a seam, in no handler, with one installed (R327). -/
def enters (t : Thread) : Prop := t.seamed = false ∧ t.handler = false ∧ t.tvec ≠ 0

/-- The thread of a trap that escalates: stopped, otherwise as it was, and Rolnis told (R335). -/
def escalated (s t : State) (tid : Nat) (c : Cause) (tval pc : W64) : Prop :=
  (t.thread tid).occ = .stopped ∧ (t.thread tid).regs = (s.thread tid).regs ∧ (t.thread tid).cause = (s.thread tid).cause ∧
  (t.thread tid).tval = (s.thread tid).tval ∧ (t.thread tid).tpc = (s.thread tid).tpc ∧ (t.thread tid).late = (s.thread tid).late ∧
  let first : BitVec 8 := if (s.thread tid).handler then (s.thread tid).cause.setWidth 8 else 0
  t.reports = s.reports ++ [{ cause := .nested, tid := tid, first := first, second := c.code, tval := tval, pc := pc }] ∧ t.dram = s.dram

/-- A core whose release completes at once: the thread's local accesses are done, none of its writes to local windows is on its way where
the scope is no wider than the cluster, and no phase of writes is open or to be closed (R101, R276, R277). -/
def quiet (s : State) (sc : Nat) : Prop :=
  (sc = 0 ∧ ∀ k ∈ s.c.closing, k.phase ∉ s.t.phases) ∨
  (localsDone s s.cur = true ∧ (sc ≤ 2 → windowOut s s.cur = false) ∧ s.c.closing = [] ∧ ∀ e ∈ s.c.sent, e.1 / destSpan = s.c.phase.toNat → e.2 = 0)

/-- Whether a release closes the core's phase: at die scope or wider, or in a mixed-class cluster (R277). -/
def closes (s : State) (sc : Nat) : Bool := decide (sc ≠ 0) && (decide (3 ≤ sc) || mixedClass s s.curCluster)

/-- `s` past an instruction whose release completes at once: the phase closed, the pins of the accesses before it widened (R276, R282). -/
def released (q : Pre) (s : State) (sc : Nat) : State :=
  let s1 := afterT q s { s.t with phases := [], relNo := s.pkts }
  let s2 := if closes s sc then s1.setC { s.c with phase := s.c.phase + 1 } else s1
  if sc = 0 then s1 else widenPins s2 s.curCore sc s.pkts

/-- `s` with what an attestation will report of the tick of the call kept in the thread (R374). -/
def asking (s u : State) : State := u.setT { u.t with asked := (s.gtime, s.b.clusters, s.b.swatches) }

/-- The HCALL rows with their function numbers (R336, R348). -/
def hcalls : List ((Pre → Instr) × BitVec 10) := [
  (.hcallResize, 0x200), (.hcallReturnSwatch, 0x201), (.hcallAttest, 0x202), (.hcallDamaskTemplate, 0x203)]

end Sys2Proof.Claims

/-- R325, R327: a trap taken by the thread saves its cause, TVAL and TPC and the mode and exchange bit, goes to supervisor mode in the handler
at TVEC, and leaves every register, flag, binding and all memory as they were.
What the rules leave open is the model's choice here: assumptions 16, 39. -/
def Obligations.ExceptionEntry : Prop :=
  (∀ e ∈ codes, e.1.code = BitVec.ofNat 8 e.2) ∧
  (∀ (s : State) tid c (tval tpc : W64) late lost completed (sub : BitVec 8), enters (s.thread tid) → (s.thread tid).occ = .resident →
    let t := takeTrap s tid c tval tpc late lost completed sub
    t.thread tid = entered (s.thread tid) c.code (lost.toNat * 2 ^ 24 + sub.toNat * 2 ^ 16 + late.toNat * 2 ^ 10) tval tpc ∧
    (∀ j, j ≠ tid → t.thread j = s.thread j) ∧ t.cores = s.cores ∧ t.dram = s.dram ∧ t.slices = s.slices ∧ t.clusters = s.clusters) ∧
  (∀ (s : State) tid e (tval : W64), e ∈ codes → e.2 ≤ 0x13 ∨ e.2 = 0x17 → enters (s.thread tid) → (s.thread tid).occ = .resident →
    halted s (s.thread tid).bolt tid = false → tid < 8192 → ∃ t, exec (.trapEntry tid (BitVec.ofNat 8 e.2) tval) s = .next t ∧
      t.thread tid = entered (s.thread tid) e.1.code 0 tval (s.thread tid).pc ∧ t.dram = s.dram)

/-- R335: with a handler running or none installed a trap escalates: the thread stops with every register as it was and Rolnis is told; Rolnis
restarts it in supervisor mode with HANDLER cleared, or retires it. -/
def Sys2Proof.Claims.Escalation : Prop :=
  (∀ (s : State) tid c (tval tpc : W64) late lost completed (sub : BitVec 8), (s.thread tid).seamed = false →
    (s.thread tid).handler = true ∨ (s.thread tid).tvec = 0 → escalated s (takeTrap s tid c tval tpc late lost completed sub) tid c tval tpc) ∧
  (∀ (s : State) tid (a : W64), tid < 8192 → (s.thread tid).occ = .stopped →
    (∃ t, exec (.rolnisRestart tid (some a)) s = .next t ∧ (t.thread tid).occ = .resident ∧ (t.thread tid).mode = true ∧ (t.thread tid).handler = false ∧
      (t.thread tid).pc = a ∧ (t.thread tid).regs = (s.thread tid).regs ∧ (t.thread tid).flags = (s.thread tid).flags ∧ t.dram = s.dram) ∧
    ((s.thread tid).seamed = false → ∃ t, exec (.rolnisRestart tid none) s = .next t ∧ (t.thread tid).occ = .empty ∧ (t.thread tid).regs = [])) ∧
  (∀ (s : State) tid pc, tid < 8192 → (s.thread tid).occ ≠ .stopped → exec (.rolnisRestart tid pc) s = .next s)

/-- R336: TRAP and a user-mode HCALL complete and enter the handler, with fn as TVAL and the next instruction as TPC; R330: TRET restores the
mode and the exchange bit and goes to TPC; an odd TPC is ILLEGAL, user mode PERM.
What the rules leave open is the model's choice here: assumptions 13, 16. -/
def Obligations.TrapsAndReturns : Prop :=
  (∀ q fn s, Executes q [] [] s → enters s.t → Gives (.trap q fn) s (s.setT (entered s.t 0x12 0 (fn.setWidth 64) (past q s)))) ∧
  (∀ (i : Instr) q fn s, i = .hcall q fn ∨ i = .hcallSystem q fn ∨ (∃ e ∈ hcalls, i = e.1 q ∧ fn = e.2) → Runs q (if s.t.mode then [4, 5, 6, 7] else []) [] s →
    (s.t.mode = false → enters s.t → Gives i s (s.setT (entered s.t 0x13 0 (fn.setWidth 64) (past q s)))) ∧
    (s.t.mode = true → quiet s 4 → Gives i s (setWait (asking s (released q s 4)) s.cur (.hcall fn)))) ∧
  (∀ q s, Executes q [] [] s →
    (s.t.mode = true → inFrayHandler s.t = false → s.t.tpc.getLsbD 0 = false → rising s.cores → s.t.cause.getLsbD 9 = true → s.t.xphase ≠ none →
      ∃ t, exec (.tret q) s = .next t ∧ t.t.mode = s.t.cause.getLsbD 8 ∧ t.t.xchg = true ∧ t.t.handler = false ∧ t.t.pc = s.t.tpc ∧ t.t.regs = s.t.regs ∧
        t.t.flags = s.t.flags ∧ t.dram = s.dram) ∧
    (s.t.mode = true → inFrayHandler s.t = false → s.t.tpc.getLsbD 0 = false → rising s.cores → (s.t.cause.getLsbD 9 = false ∨ s.t.xphase = none) →
      Gives (.tret q) s ((match s.t.lateSeq with | some n => freeRing s n | none => s).setT { s.t with
        mode := s.t.cause.getLsbD 8, xchg := s.t.cause.getLsbD 9, handler := false, lateSeq := none, pc := s.t.tpc, ecap := capMove s.t.ecap s.t.tpc })) ∧
    (s.t.mode = true → s.t.tpc.getLsbD 0 = true → Traps (.tret q) s .illegal s.t.tpc) ∧
    (s.t.mode = false → Traps (.tret q) s .perm 0x0400))

/-- R329: a thread at an instruction boundary with no handler running takes the late fault first recorded; TVAL is the sequence number, TPC its
next instruction; the others stay recorded. -/
def Sys2Proof.Claims.LateFaults : Prop :=
  ∀ (s : State) tid l rest, tid < 8192 → (s.thread tid).late = l :: rest → halted s (s.thread tid).bolt tid = false →
    (atBoundary (s.thread tid) = true → enters (s.thread tid) → ∃ t, exec (.lateFaultTaken tid) s = .next t ∧
      t.thread tid = entered { s.thread tid with late := rest, lateSeq := some l.seq } l.cause.code (2 ^ 10) (l.seq.num.setWidth 64) (s.thread tid).pc ∧
      t.dram = s.dram ∧ ∀ j, j ≠ tid → t.thread j = s.thread j) ∧
    (atBoundary (s.thread tid) = true → (s.thread tid).seamed = false → (s.thread tid).tvec = 0 → ∃ t, exec (.lateFaultTaken tid) s = .next t ∧
      escalated s t tid l.cause (l.seq.num.setWidth 64) (s.thread tid).pc) ∧
    ((s.thread tid).handler = true → exec (.lateFaultTaken tid) s = .next s)

/-- R335: with a handler running or none installed a trap escalates: the thread stops with every register as it was and Rolnis is told; Rolnis restarts it
in supervisor mode with HANDLER cleared, or retires it. R329: a thread at an instruction boundary with no handler running takes the late fault first
recorded; TVAL is the sequence number, TPC its next instruction; the others stay recorded.
What the rules leave open is the model's choice here: assumptions 38, 39. -/
def Obligations.EscalationAndLateFaults : Prop := Sys2Proof.Claims.Escalation ∧ Sys2Proof.Claims.LateFaults

/-- R338, R339, R307, R365, R366: MARK makes its record while the cluster captures and changes nothing else, and the tick's end writes it to
the ring; IDLE completes at once or waits, in supervisor mode; IDLE_WAKE ends the wait; after YIELD the core's scheduler issues another thread
that is ready in the next cycle and has not yielded. -/
def Sys2Proof.Claims.MarkIdleYield : Prop :=
  (∀ q fn s, Executes q [] [] s →
    (capturing s s.curCluster = false → Gives (.mark q fn) s (afterT q s s.t)) ∧
    (capturing s s.curCluster = true → Gives (.mark q fn) s { afterT q s s.t with
      traces := s.traces ++ [{ cluster := s.curCluster, core := logical s s.curCore, slot := slotOf s.cur, kind := 2, rest := [fn.toNat] }] })) ∧
  (∀ (s : State) x w, s.traces = [x] → stateRecords s = [] → x.kind ≠ 1 → x.rest = [w] →
    let c := s.cluster x.cluster
    let u := (traceTick s).cluster x.cluster
    let o := c.trBase * 65536 + c.trWptr * 4
    s.gtime - c.trTick ≤ 65535 → c.trWptr + 2 ≤ 16384 → Memory.wf c.mem.cells = true →
    (traceTick s).traces = [] ∧ u.trWptr = (c.trWptr + 2) % 16384 ∧ u.trTick = s.gtime ∧
    ∀ a, Memory.read u.mem.cells a =
      if o ≤ a ∧ a < o + 4 then BitVec.ofNat 8 (((s.gtime - c.trTick) * 65536 + x.core * 8192 + x.slot * 2048 + x.kind) / 2 ^ (8 * (a - o)))
      else if o + 4 ≤ a ∧ a < o + 8 then BitVec.ofNat 8 (w / 2 ^ (8 * (a - (o + 4)))) else Memory.read c.mem.cells a) ∧
  (∀ q s, Executes q [] [] s →
    (s.t.mode = true → idleOver s s.cur = true → Gives (.idle q) s (afterT q s { s.t with tokDone := false })) ∧
    (s.t.mode = true → idleOver s s.cur = false → Gives (.idle q) s (setWait (afterT q s s.t) s.cur .idle)) ∧
    (s.t.mode = false → Traps (.idle q) s .perm 0x1400)) ∧
  (∀ (s : State) tid, tid < 8192 → (s.thread tid).wait = .idle → (s.thread tid).occ = .resident → halted s (s.thread tid).bolt tid = false →
    (idleOver s tid = true → ∃ t, exec (.idleWake tid) s = .next t ∧ (t.thread tid).wait = .none ∧ (t.thread tid).tokDone = false ∧
      (t.thread tid).pc = (s.thread tid).pc ∧ (t.thread tid).regs = (s.thread tid).regs ∧ t.dram = s.dram) ∧
    (idleOver s tid = false → exec (.idleWake tid) s = .next s)) ∧
  (∀ q s, Executes q [] [] s → Gives (.yield q) s (afterT q s { s.t with yielding := true, yields := [] })) ∧
  (∀ (s : State) c l n y x, y ∈ l → x ∈ l → x ≠ y → (∀ k ∈ l, ∃ i, i < 4 ∧ k = c * 4 + i) →
    (∀ k ∈ l, (s.thread k).passed < 3) →
    (s.thread y).yielding = true → n ≤ (s.thread y).cyc + 1 → (s.thread x).yielding = false → (s.thread x).yields = [] → Sys2Proof.Machine.pick s c l n ≠ some y)

/-- R84: XINV in supervisor mode: nothing of the 64 KiB pages it covers stays translated, cached or claimed in the bolt's slices, a dirty line is
written back first, and no register changes; in user mode PERM. -/
def Sys2Proof.Claims.Invalidation : Prop :=
  ∀ q d r s, Executes q [r, d] [] s →
    let b := (valOf s d).toNat / 65536 * 65536
    let e := min (((valOf s r).toNat + (valOf s d).toNat + 65535) / 65536 * 65536) 0xE000000000000
    (s.t.mode = false → Traps (.xinv q d r) s .perm ((baseParcel (.xinv q d r)).setWidth 64)) ∧
    (s.t.mode = true → valOf s r = 0 ∨ e ≤ b → Gives (.xinv q d r) s (afterT q s s.t)) ∧
    (s.t.mode = true → valOf s r ≠ 0 → b < e → ∃ t, exec (.xinv q d r) s = .next t ∧ t.t.pc = past q s ∧ t.t.regs = s.t.regs ∧ t.clusters = s.clusters ∧
      (∀ h ∈ s.b.slices ++ s.b.oldSlices,
        (∀ x ∈ (t.slice h).xlat, x.bolt = s.t.bolt → pageMeets x.page x.pages b e = false) ∧
        (∀ p ∈ (t.slice h).ways, p.2.bolt = s.t.bolt → ¬ (b ≤ p.2.line * 64 ∧ p.2.line * 64 < e))) ∧
      (∀ h, h ∉ s.b.slices ++ s.b.oldSlices → t.slice h = s.slice h) ∧
      (∀ p ∈ t.claims, p.2.2 = s.t.bolt → ¬ (b ≤ p.2.1 * 65536 ∧ p.2.1 * 65536 < e)) ∧
      (∀ h k l, s.b.slices = [h] → s.b.oldSlices = [] → (s.slice h).ways = [(k, l)] → (s.slice h).staging = [] → l.bolt = s.t.bolt → l.dirty = true → b ≤ l.line * 64 →
        l.line * 64 < e → l.pa % 64 = 0 → Memory.wf s.dram.cells = true → ∀ a, Memory.read t.dram.cells a =
          if l.pa ≤ a ∧ a < l.pa + 64 then l.data.extractLsb' (8 * (a - l.pa)) 8 else Memory.read s.dram.cells a))

/-- R338, R339, R307, R365, R366: MARK makes its record while the cluster captures and changes nothing else, and the tick's end writes it to the ring;
IDLE completes at once or waits, in supervisor mode; IDLE_WAKE ends the wait; after YIELD the core's scheduler issues another thread that is ready in
the next cycle and has not yielded. R84: XINV in supervisor mode: nothing of the 64 KiB pages it covers stays
translated, cached or claimed in the bolt's slices, a dirty line is written back first, and no register changes; in user mode PERM. -/
def Obligations.MarksAndInvalidation : Prop := Sys2Proof.Claims.MarkIdleYield ∧ Sys2Proof.Claims.Invalidation

/-! ## Ordering and synchronisation -/

/-- R276, R278, R275: REL and FENCE complete once the thread's accesses are performed, with the phase closed and the pins widened, and wait where a
phase of writes is open; ACQ waits for the thread's reads; a queued store fault is taken by REL and FENCE at the instruction. -/
def Sys2Proof.Claims.Fences : Prop :=
  (∀ q (sc : BitVec 3) s, sc.toNat ≤ 5 → Executes q [] [] s →
    (quiet s sc.toNat → hasStoreFault s s.cur = false → Gives (.rel q sc) s (released q s sc.toNat)) ∧
    (quiet s sc.toNat → hasStoreFault s s.cur = false → (∀ c ∈ s.t.cmds, c.2.2 ≠ 2) → Gives (.fence q sc) s (released q s sc.toNat)) ∧
    (quiet s sc.toNat → (∃ c ∈ s.t.cmds, c.2.2 = 2) → let u := released q s sc.toNat
      Gives (.fence q sc) s (setWait (u.setT { u.t with pc := s.t.pc, stage := 2 }) s.cur .release)) ∧
    (sc ≠ 0 → localsDone s s.cur = false → exec (.rel q sc) s = .next (setWait s s.cur .release) ∧ exec (.fence q sc) s = .next (setWait s s.cur .release)) ∧
    (∀ c, localsDone s s.cur = true → (sc.toNat ≤ 2 → windowOut s s.cur = false) → closes s sc.toNat = true → closePhase s.c [] = some c → c.closing ≠ [] →
      ∀ i, i = .rel q sc ∨ i = .fence q sc →
        Gives i s (setWait ((s.setC c).setT { s.t with phases := c.closing.map (·.phase), relNo := s.pkts, stage := 1 }) s.cur .release)) ∧
    (sc = 0 ∨ readsDone s s.cur = true → Gives (.acq q sc) s (afterT q s s.t)) ∧
    (sc ≠ 0 → readsDone s s.cur = false → exec (.acq q sc) s = .next (setWait s s.cur .release))) ∧
  (∀ q (sc : BitVec 3) s, sc.toNat ≤ 5 → s.t.occ = .resident → s.t.wait = .release → s.t.stage = 1 → s.t.xchg = false → Guarded q s → ReadyRegs q [] [] s →
    hasStoreFault s s.cur = false → (∀ c ∈ s.t.cmds, c.2.2 ≠ 2) → ∀ i, i = .rel q sc ∨ i = .fence q sc →
    ((∀ k ∈ s.c.closing, k.phase ∉ s.t.phases) → ∃ t, exec i s = .next t ∧ t.t.wait = .none ∧ t.t.stage = 0 ∧ t.t.pc = past q s ∧ t.t.regs = s.t.regs ∧ t.dram = s.dram) ∧
    ((∃ k ∈ s.c.closing, k.phase ∈ s.t.phases) → exec i s = .next s)) ∧
  (∀ q (sc : BitVec 3) s f, sc.toNat ≤ 5 → Executes q [] [] s → quiet s sc.toNat → (∀ c ∈ s.t.cmds, c.2.2 ≠ 2) → enters s.t →
    s.c.sfq.find? (fun e => decide (e.tid = s.cur)) = some f → ∀ i, i = .rel q sc ∨ i = .fence q sc → ∃ t, exec i s = .next t ∧
      t.t.pc = s.t.tvec ∧ t.t.tpc = s.t.pc ∧ t.t.tval = f.tval ∧ bits t.t.cause.toNat 7 0 = 0x09 ∧ bits t.t.cause.toNat 23 16 = f.cause.code.toNat ∧
      t.t.cause.getLsbD 24 = s.t.lost ∧ t.t.lost = false ∧ t.c.sfq = s.c.sfq.erase f ∧ t.t.regs = s.t.regs) ∧
  (∀ q (sc : BitVec 3) s, 5 < sc.toNat → ∀ i, i = .rel q sc ∨ i = .fence q sc ∨ i = .acq q sc → Traps i s .illegal (illTval q (baseParcel i)))

/-- R301, R285: BAR and BARX arrive at the barrier of their group: the last arrival ends the generation, any other waits; PERM for a group the
thread is in no slot of; a gather through g0 is CAPTAG; BARRIER_DEPART lets a member go once its generation has ended, and what a scope that
has widened since asks for has been performed. -/
def Sys2Proof.Claims.Barriers : Prop :=
  (∀ (i : Instr) q r s g (x : Bool), s.t.seamed = false → valOf s r = g → let j := g.toNat % 256
    (i = .barx q r ∧ x = true ∧ Executes q [r] [] s) ∨ (∃ d, i = .bar q d r ∧ x = false ∧ Executes q (if d = 0 then [r] else [r, d]) [] s ∧ g.getLsbD 8 = false) →
    (j ≠ 0 → inGroup s.t j = false → Traps i s .perm (BitVec.ofNat 64 j)) ∧
    (inGroup s.t j = true → localsDone s s.cur = false → exec i s = .next (setWait s s.cur .arrival)) ∧
    (inGroup s.t j = true → quiet s (barrierScope s s.t.bolt j) → groupMembers s.b j ≠ 0 → groupArrived s.b j < groupMembers s.b j → ∃ t, exec i s = .next t ∧
      t.t.pc = past q s ∧ t.t.regs = s.t.regs ∧ t.t.wait = (if x then .exchange s.t.bolt j (groupGen s.b j) else .barrier s.t.bolt j (groupGen s.b j)) ∧
      groupMembers (t.bolt s.t.bolt) j = groupMembers s.b j ∧ t.dram = s.dram ∧
      (groupArrived s.b j + 1 < groupMembers s.b j → groupArrived (t.bolt s.t.bolt) j = groupArrived s.b j + 1 ∧ groupGen (t.bolt s.t.bolt) j = groupGen s.b j) ∧
      (groupArrived s.b j + 1 = groupMembers s.b j → groupArrived (t.bolt s.t.bolt) j = 0 ∧ groupGen (t.bolt s.t.bolt) j = (groupGen s.b j + 1) % 2 ^ 32))) ∧
  (∀ q r s, s.t.seamed = false → (valOf s r).getLsbD 8 = true → Executes q [r] [] s → inGroup s.t ((valOf s r).toNat % 256) = true →
    Traps (.bar q 0 r) s .captag (capTval 0 false 0 0)) ∧
  (∀ q d r s, s.t.seamed = false → d ≠ 0 → (valOf s r).getLsbD 8 = true → Executes q [r, d] [] s → let j := (valOf s r).toNat % 256
    inGroup s.t j = true → quiet s (barrierScope s s.t.bolt j) → groupArrived s.b j + 1 < groupMembers s.b j → gatherCheck s d (s.t.reg d) = .ok () →
    ∃ t, exec (.bar q d r) s = .next t ∧ t.t.wait = .barrier s.t.bolt j (groupGen s.b j) ∧ t.t.pc = past q s ∧
      (t.bolt s.t.bolt).gathers = s.b.gathers ++ [(j, s.cur, s.t.reg d)] ∧ groupArrived (t.bolt s.t.bolt) j = groupArrived s.b j + 1 ∧ t.dram = s.dram) ∧
  (∀ (s : State) tid b j gen, tid < 8192 → (s.thread tid).wait = .barrier b j gen → (s.thread tid).occ = .resident → halted s b tid = false →
    (∀ x, groupGen (s.bolt b) j ≠ gen → barrierSettled s b j (coreOf tid) = true → (s.bolt b).records.find? (fun x => decide (x.1 = j)) = some x →
      exec (.barrierDepart tid) s = .next (writeRecord s b x)) ∧
    (groupGen (s.bolt b) j ≠ gen → barrierSettled s b j (coreOf tid) = true → (∀ x ∈ (s.bolt b).records, x.1 ≠ j) → ∃ t, exec (.barrierDepart tid) s = .next t ∧ (t.thread tid).wait = .none ∧ (t.thread tid).pc = (s.thread tid).pc ∧
      (t.thread tid).regs = (s.thread tid).regs ∧ t.dram = s.dram) ∧
    (groupGen (s.bolt b) j = gen ∨ barrierSettled s b j (coreOf tid) = false → exec (.barrierDepart tid) s = .next s))

/-- R276, R278, R275: REL and FENCE complete once the thread's accesses are performed, with the phase closed and the pins widened, and wait where a phase
of writes is open; ACQ waits for the thread's reads; a queued store fault is taken by REL and FENCE at the instruction. R301, R285: BAR and BARX
arrive at the barrier of their group: the last arrival ends the generation, any other waits; PERM for a group the thread is in no slot of; a
gather through g0 is CAPTAG; BARRIER_DEPART lets a member go once its generation has ended, and what a scope that has widened since asks for has been
performed.
What the rules leave open is the model's choice here: assumption 33. -/
def Obligations.FencesAndBarriers : Prop := Sys2Proof.Claims.Fences ∧ Sys2Proof.Claims.Barriers

namespace Sys2Proof.Claims

/-- An instruction of the exchange phase executes now (R302). -/
def InPhase (q : Pre) (regs : List Reg) (s : State) : Prop :=
  Ready s ∧ s.t.xchg = true ∧ s.t.seamed = false ∧ Guarded q s ∧ ReadyRegs q regs [] s ∧ Unbound regs s

/-- The word of R304 as it enters the sender's router. -/
def sentWord (q : Pre) (s : State) (w : W64) : XWord :=
  { bolt := s.t.bolt, group := s.t.xphase.getD 0, core := s.curCore, from_ := 4, cyc := countAt q s - s.t.xcyc + 1, word := w }

/-- The table XSEL installs in a core from the bytes of `n` entries (R303): the first 64 of the core's. -/
def tableOf (s : State) (bs : List (BitVec 8)) (n : Nat) : List (BitVec 32) :=
  (((List.range n).map (fun i => BitVec.ofNat 32 (bytesToNat ((bs.drop (4 * i)).take 4)))).filter
    (fun e => decide (bits e.toNat 12 8 = xOf s.curCore) && decide (bits e.toNat 17 13 = yOf s.curCore))).take 64

end Sys2Proof.Claims

/-- R302 to R305: XSEL installs the core's entries of the table and answers their number; XSEND sends a word in the next exchange cycle; XEND waits
for the end; outside a phase XSEND and XEND are ILLEGAL. The phase begins for every member at once, words hop by the routing entries or are dropped,
and the end clears the routes. What an entry with FROM and TO both C does with a word is the model's choice (assumption 75).
What the rules leave open is the model's choice here: assumptions 33, 75. -/
def Obligations.ExchangePhase : Prop :=
  (∀ q d r t s, s.t.seamed = false → Executes q [r, t, d] [] s →
    let v := s.t.reg r
    let n := (valOf s t).toNat % 2 ^ 32
    (capLoc v = true → checkLocal s s.cur r.toNat v v.nat (4 * n) true false = .ok () → windowOut s s.cur = false → (∀ e ∈ s.cl.lq, e.tid = s.cur → e.store = false) →
      let mine := tableOf s (Memory.readN s.cl.mem.cells ((windowOf s s.cur).1 + v.nat) (4 * n)) n
      Gives (.xsel q d r t) s ((writes q s d (Val.ofNat mine.length)).setC { s.c with routes := mine })) ∧
    (capLoc v = false → checkGlobal r.toNat v [permR] v.nat (4 * n) = .ok () → ∃ s0, Starts (afterT q s s.t) s0 ∧ ∀ s' bs, tableBytes s0 v (4 * n) = .ok (s', bs) →
      ∃ u, exec (.xsel q d r t) s = .next u ∧ u.c.routes = tableOf s bs n ∧ u.t.pc = past q s ∧
        (∀ x, u.t.reg x = if x = d ∧ d ≠ 0 then Val.ofNat (tableOf s bs n).length else s.t.reg x))) ∧
  (∀ q r s, InPhase q [r] s → Gives (.xsend q r) s { afterT q s s.t with xwords := s.xwords ++ [sentWord q s (valOf s r)] }) ∧
  (∀ q s, InPhase q [] s → let j := s.t.xphase.getD 0
    let sc := barrierScope s s.t.bolt j
    quiet s sc → Gives (.xend q) s (setWait (released q (noteRelease s s.t.bolt j sc) sc) s.cur .xend)) ∧
  (∀ q r s, s.t.xchg = false → Traps (.xsend q r) s .illegal (illTval q (baseParcel (.xsend q r))) ∧ Traps (.xend q) s .illegal (illTval q (baseParcel (.xend q)))) ∧
  (∀ (s : State) b j, readyForExchange s b j ≠ [] → (s.bolt b).pressed = false → (s.bolt b).trctl.getLsbD 61 = false →
    (∀ m ∈ readyForExchange s b j, (s.thread m).occ = .resident ∧ barrierSettled s b j (coreOf m) = true) →
    (∀ m ∈ membersOf s b j, (s.cluster (clusterOf (coreOf m))).cq = [] ∧ (s.cluster (clusterOf (coreOf m))).gq = []) →
    ∃ t, exec (.exchangeEnter b j) s = .next t ∧ (∀ m ∈ readyForExchange s b j, (t.thread m).xchg = true ∧ (t.thread m).xphase = some j ∧ (t.thread m).wait = .none) ∧ t.dram = s.dram) ∧
  (∀ (s : State) w, s.xwords = [w] → wordDue s w = true → (s.bolt w.bolt).pressed = false →
    (routeOuts (s.core w.core) w.cyc w.from_ = [] → ∃ t, exec (.exchangeWordHop 0) s = .next t ∧ t.xwords = [] ∧ t.threads = s.threads ∧
      ∀ k side, Map.get (t.core k).ports side [] = Map.get (s.core k).ports side []) ∧
    (∀ o n, o < 4 → routeOuts (s.core w.core) w.cyc w.from_ = [o] → neighbour w.core (BitVec.ofNat 2 o) = some n → xMember s w.bolt w.group n = true →
      exec (.exchangeWordHop 0) s = .next { s with xwords := [{ w with core := n, from_ := (o + 2) % 4, cyc := w.cyc + 1 }] }) ∧
    (routeOuts (s.core w.core) w.cyc w.from_ = [4] → portFree s w.core (BitVec.ofNat 2 w.from_) ≠ 0 → ∃ t, exec (.exchangeWordHop 0) s = .next t ∧ t.xwords = [] ∧
      Map.get (t.core w.core).ports (w.from_ % 4) [] = Map.get (s.core w.core).ports (w.from_ % 4) [] ++ [w.word])) ∧
  (∀ (s : State) b j, j < 256 → inPhase s b j ≠ [] → (∀ m ∈ inPhase s b j, (s.thread m).wait = .xend) →
    (∀ i, i < j → inPhase s b i = [] ∨ ∃ m ∈ inPhase s b i, (s.thread m).wait ≠ .xend) →
    (s.bolt b).pressed = false → (s.bolt b).trctl.getLsbD 61 = false → (∀ w ∈ s.xwords, w.bolt = b → w.group ≠ j) →
    settledOver s b (memberCores s b j) (memberCores s b j) (leastScope s b j) s.pkts = true → ∃ t, exec (.exchangeEnd b) s = .next t ∧
      (∀ m ∈ inPhase s b j, (t.thread m).xchg = false ∧ (t.thread m).xphase = none ∧ (t.thread m).wait = .none ∧ (t.core (coreOf m)).routes = []) ∧
      (t.bolt b).sstep = ((s.bolt b).sstep + 1) % 2 ^ 64 ∧ t.dram = s.dram)

/-- R306: WAITV loads the word with a watch; after a write to the watched line, or after 65,536 ticks, the word is read again.
What the rules leave open is the model's choice here: assumptions 7, 61. -/
def Obligations.WatchedWaits : Prop :=
  (∀ q d r t s, Executes q [r, t, d] [] s → let a := (valOf s r).toNat / 8 * 8
    reaches s r [permR] a 8 1 false → Gives (.waitv q d r t) s
      (awaitAnswer (sendLoad (afterT q s { s.t with woken := false }) a 8 false (s.t.pol &&& 0x01FFFFFF#32))
        { dst := d.toNat, ext := .zx, size := 8, parts := 1, watch := some (a, valOf s t), pc := s.t.pc, binds := s.t.binds })) ∧
  (∀ (s : State) tid va since a, tid < 8192 → (s.thread tid).wait = .watch va since → (s.thread tid).await = some a → (s.thread tid).occ = .resident →
    halted s (s.thread tid).bolt tid = false → sendRoom { s with cur := tid } 1 false = .ok () → ∀ i : Instr,
    ((i = .waitvWake tid ∧ (s.thread tid).woken = true) ∨ (i = .waitvTimeout tid ∧ since + 65536 ≤ s.gtime) → ∃ t, exec i s = .next t ∧
      (t.thread tid).wait = .answer ∧ (t.thread tid).woken = false ∧ (t.thread tid).await = some { a with bytes := [], parts := 1, watch := none, acc := s.accs } ∧
      (t.thread tid).regs = (s.thread tid).regs ∧ (t.thread tid).pc = (s.thread tid).pc ∧ t.dram = s.dram) ∧
    ((i = .waitvWake tid ∧ (s.thread tid).woken = false) ∨ (i = .waitvTimeout tid ∧ s.gtime < since + 65536) → exec i s = .next s))

/-! ## Launches, forks and joins -/

namespace Sys2Proof.Claims

/-- The launch that LAUNCH queues (R290). -/
def queuedLaunch (s : State) (d : Reg) (a : Nat) (r : LRec) (masks : Map Nat) : Launch :=
  { bolt := s.t.bolt, tid := s.cur, tok := d.toNat, seq := nextSeq s, recVa := a, entry := r.entry, presets := r.presets, blocks := r.blocks,
    threads := r.threads, ws := r.ws, allot := r.allot, place := r.place, prio := r.prio, img := r.img, groups := r.groups, g3 := s.t.reg 3,
    qclass := s.t.qclass, masks := masks, forms := r.groups.foldl (fun m j => Map.set m j (groupWord s.b j)) [] }

/-- Group `j` of bolt `b`, bound with `n` members: ARRIVED 0, MEMBERS `n`, BOUND where it has a member, and GEN, the form and the mask as they were (R291). -/
def bindsGroup (s t : State) (b j n : Nat) : Prop :=
  let word := fun (u : State) (i : Nat) => Map.get (u.bolt b).groups (4 * j + i) 0#64
  word t 2 = BitVec.ofNat 64 (n % 2 ^ 32) ∧ word t 3 = BitVec.ofNat 64 ((if n = 0 then 0 else 2 ^ 32) + (word s 3).toNat % 2 ^ 32) ∧
  word t 0 = word s 0 ∧ word t 1 = word s 1

/-- The first iteration of recruit `i` of `k` over `n` iterations (R294). -/
def firstOf (n k i : Nat) : Nat := i * (n / k) + min i (n % k)

end Sys2Proof.Claims

/-- R290, R291: LAUNCH after its release: a bad record ends with status 1, no blocks with 0, a co-resident launch that can never fit with 2, and else
the launch is queued with its record, its token pending, and each named group is bound with the threads of the blocks that it selects, or LAUNCH waits
for the lines of its groups' masks; a record that is misaligned or out of bounds, or whose capability lacks LC, is the precise fault.
What the rules leave open is the model's choice here: assumptions 34, 98. -/
def Obligations.Launches : Prop :=
  ∀ q d r s, Runs q [r, d, 3] [] s → Unbound [r, d] s → quiet s 4 → hasStoreFault s s.cur = false → s.c.ring.length < 32 →
    let v := s.t.reg r
    let a := (valOf s r).toNat
    (a % 64 ≠ 0 → Traps (.launch q d r) s .capbound (capTval r.toNat false 0 a)) ∧
    (∀ x, a % 64 = 0 → checkGlobal r.toNat v [permR] a 64 = .error x → exec (.launch q d r) s = .next (stopped s x)) ∧
    (∃ s0, Starts (released q s 4) s0 ∧
     (∀ x, a % 64 = 0 → checkGlobal r.toNat v [permR] a 64 = .ok () → readRecord s0 a = .error x → exec (.launch q d r) s = .next (stopped s x)) ∧
     ∀ s1 raw tag, a % 64 = 0 → checkGlobal r.toNat v [permR] a 64 = .ok () → readRecord s0 a = .ok (s1, raw, tag) →
     (bitAt (capPerm v) permLC = false → Traps (.launch q d r) s .capperm (capTval r.toNat false 3 a)) ∧
     (bitAt (capPerm v) permLC = true →
      let rec_ := recordOf raw tag
      let started := fun (t : State) => t.t.pc = past q s ∧ t.t.regs = s.t.regs ∧ t.t.cmds = s.t.cmds ++ [(nextSeq s, d.toNat, 0)] ∧ t.c.seq = s.c.seq + 1
      let answers := fun (code : Nat) => ∃ t, exec (.launch q d r) s = .next t ∧ started t ∧ t.launches = s.launches ∧
        t.completions = s.completions ++ [{ tid := s.cur, reg := d.toNat, word := status 8 code 0 s.c.seq, seq := nextSeq s }]
      let queues := fun (t : State) (masks : Map Nat) => started t ∧ t.completions = s.completions ∧
        t.launches = Map.set s.launches (freshLaunch s) (queuedLaunch s d a rec_ masks) ∧
        ∀ j ∈ rec_.groups, bindsGroup s t s.t.bolt j
          (rec_.threads * ((List.range rec_.blocks).filter (fun i => selects (groupWord s.b j) (Map.get masks j 0) i)).length)
      (validRecord s0 v rec_ = false → answers 1) ∧
      (validRecord s0 v rec_ = true → rec_.blocks = 0 → answers 0) ∧
      (validRecord s0 v rec_ = true → rec_.blocks ≠ 0 → rec_.place = 2 → holdsAll s0 s.t.bolt rec_ = false → answers 2) ∧
      (validRecord s0 v rec_ = true → rec_.blocks ≠ 0 → rec_.place ≠ 2 ∨ holdsAll s0 s.t.bolt rec_ = true →
        ((∀ j ∈ rec_.groups, formOf (groupWord s.b j) ≠ 3) → ∃ t, exec (.launch q d r) s = .next t ∧ queues t []) ∧
        ∃ t, exec (.launch q d r) s = .next t ∧ ((∃ masks, queues t masks) ∨ (∃ l, t = stopped s (.pull l)) ∨ ∃ c tv, t = stopped s (.trap c tv)))))

/-- R294, R295: FORK divides its iterations over the thread and recruits in slot 0 of idle cores, through a join cell; JOIN retires the thread, and
the last to join goes on at the continuation and frees the cell.
What the rules leave open is the model's choice here: assumption 35. -/
def Obligations.ForkAndJoin : Prop :=
  (∀ q r s, r.toNat % 4 = 0 → s.t.seamed = false → Runs q (four r ++ [3, 4, 5, 6, 7]) [] s → Unbound (four r) s →
    let body := valOf s r
    let cont := valOf s (r + 1)
    let n := (s.t.reg (r + 2)).nat % 2 ^ 32
    let want := min (min (ceilDiv n (max ((s.t.reg (r + 2)).nat / 2 ^ 32) 1)) (1 + (idleCores s).length)) 64
    (n = 0 → cont.getLsbD 0 = false → Gives (.fork q r) s (s.setT { s.t with pc := cont })) ∧
    (n = 0 → cont.getLsbD 0 = true → Traps (.fork q r) s .illegal cont) ∧
    (n ≠ 0 → body.getLsbD 0 = true → Traps (.fork q r) s .illegal body) ∧
    (n ≠ 0 → body.getLsbD 0 = false → (want ≤ 1 ∨ freeCell s s.curCluster s.t.launch = none) →
      ∃ t, exec (.fork q r) s = .next t ∧ t.t.pc = body ∧ t.t.reg 4 = {} ∧ t.t.reg 5 = Val.ofNat n ∧ t.t.reg 6 = forkDesc 0 true 0 cont ∧ t.t.reg 7 = s.t.reg (r + 3) ∧
        (∀ x, x ∉ [4, 5, 6, 7] → t.t.reg x = s.t.reg x) ∧ t.dram = s.dram ∧ ∀ j, j ≠ s.cur → t.thread j = s.thread j) ∧
    (∀ c, (∀ x ∈ s.b.clusters, x < 256) → n ≠ 0 → body.getLsbD 0 = false → 1 < want → freeCell s s.curCluster s.t.launch = some c → let desc := forkDesc s.curCluster false c cont
      ∃ t, exec (.fork q r) s = .next t ∧ t.t.pc = body ∧ t.t.reg 4 = {} ∧ t.t.reg 5 = Val.ofNat (firstOf n want 1) ∧ t.t.reg 6 = desc ∧ t.t.reg 7 = s.t.reg (r + 3) ∧
        (∀ x, x ∉ [4, 5, 6, 7] → t.t.reg x = s.t.reg x) ∧ Map.find t.cl.cells (cellKey s.curCluster c) = some (want, s.t.launch, cont) ∧
        ∀ j, j + 1 < want → let u := t.thread ((idleCores s).getD j 0 * 4)
          u.occ = .resident ∧ u.pc = body ∧ u.ecap = s.t.ecap ∧ u.mode = s.t.mode ∧ u.allot = s.t.allot ∧ u.reg 3 = s.t.reg 3 ∧
          u.reg 4 = Val.ofNat (firstOf n want (j + 1)) ∧ u.reg 5 = Val.ofNat (firstOf n want (j + 2)) ∧ u.reg 6 = desc ∧ u.reg 7 = s.t.reg (r + 3))) ∧
  (∀ q r s, s.t.seamed = false → Executes q [r] [] s → let v := s.t.reg r
    let here := (v.bits.getLsbD 72 && !v.bits.getLsbD 73)
    let key := bits v.bits.toNat 87 80 * 64 + bits v.bits.toNat 69 64
    (v.bits.getLsbD 72 = true → v.bits.getLsbD 73 = true → v.lo.getLsbD 0 = false → Gives (.join q r) s (s.setT { s.t with pc := v.lo })) ∧
    (here = true → cellHome s key s.t.launch = none → Traps (.join q r) s .perm v.lo) ∧
    (v.bits.getLsbD 72 = false ∨ (here = true ∧ cellHome s key s.t.launch ≠ none) → (∃ c ∈ s.t.cmds, 1 ≤ c.2.2) → exec (.join q r) s = .next (setWait s s.cur .release)) ∧
    ((∀ c ∈ s.t.cmds, c.2.2 = 0) → quiet s 4 → hasStoreFault s s.cur = false →
      (v.bits.getLsbD 72 = false → ∃ t, exec (.join q r) s = .next t ∧ t.t.occ = .empty ∧ t.t.regs = [] ∧ t.t.binds = [] ∧ ∀ j, j ≠ s.cur → (t.thread j).regs = (s.thread j).regs) ∧
      (∀ k cont cl, here = true → cellHome s key s.t.launch = some cl → Map.find (s.cluster cl).cells key = some (k, s.t.launch, cont) →
        (1 < k → ∃ t, exec (.join q r) s = .next t ∧ t.t.occ = .empty ∧ t.t.regs = [] ∧ Map.find (t.cluster cl).cells key = some (k - 1, s.t.launch, cont)) ∧
        (k ≤ 1 → v.lo.getLsbD 0 = false → ∃ t, exec (.join q r) s = .next t ∧ t.t.pc = v.lo ∧ t.t.regs = s.t.regs ∧ t.t.occ = .resident ∧
          (t.cluster cl).cells = Map.erase (s.cluster cl).cells key))))

namespace Sys2Proof.Claims

/-- The keys of a map rise: each key is listed once. -/
def Rising {α : Type} (m : Map α) : Prop := (m.map (·.1)).Pairwise (· < ·)

end Sys2Proof.Claims

/-- R292, R293, R161: BLOCK_PLACEMENT places the next block of the launch at the head of the queue where it fits: the window zero-filled, its threads
with the record's entry, presets and allotment in user mode. R299, R300, R341: a blocked thread that another waits for is evicted with its context,
with the messages and store faults that its core's queues hold for it, to the nearest advertised room, and restored with it; a save that fails leaves
it as it was and reports SAVEFAULT.
What the rules leave open is the model's choice here: assumptions 32, 34, 37, 74. -/
def Obligations.BlocksAndContexts : Prop :=
  (∀ (s : State) b k l pos cl lb slots, (s.bolt b).pressed = false → headLaunch s b = some (k, l) →
    (∀ j ∈ s.saved, j < 2 ^ 40 → (s.thread j).bolt = b → prioOf s (s.thread j) < l.prio) → l.place ≠ 2 → l.img = none →
    findFit s l = some (pos, cl, lb, slots) → seamFirst s b = false → Memory.wf (s.cluster cl).mem.cells = true → ∃ t, exec (.blockPlacement b) s = .next t ∧
      Map.find t.launches k = some { l with next := l.next + 1, placed := l.placed + 1, lastAt := some (cl, pos) } ∧ t.dram = s.dram ∧
      (∀ a, Memory.read (t.cluster cl).mem.cells a = if lb ≤ a ∧ a < lb + l.ws then 0 else Memory.read (s.cluster cl).mem.cells a) ∧
      (∀ i, i < slots.length → let u := t.thread (slots.getD i 0)
        u.occ = .resident ∧ u.mode = false ∧ u.pc = l.entry.lo ∧ u.ecap = l.entry ∧ u.allot = l.allot ∧ u.flags = 0 ∧ u.binds = [] ∧ u.tvec = (s.bolt b).ltvec ∧
        u.tidx = BitVec.ofNat 32 (l.next * l.threads + i) ∧ u.reg 3 = l.g3 ∧ (∀ n, n < 4 → u.reg (BitVec.ofNat 6 (4 + n)) = Val.ofW (l.presets.getD n 0)) ∧
        (u.reg 2).tag = true ∧ capLoc (u.reg 2) = true ∧ (u.reg 2).lo = BitVec.ofNat 64 l.ws ∧
        (l.ws % 4096 = 0 → (capBounds (u.reg 2)).base = 0 ∧ (capBounds (u.reg 2)).top = (l.ws : Int)))) ∧
  (∀ (s : State) b, (s.bolt b).pressed = true ∨ headLaunch s b = none → exec (.blockPlacement b) s = .next s) ∧
  (∀ (s : State) tid, Rising s.threads → tid < 8192 → let t := s.thread tid
    t.occ = .resident → blockingPoint t.wait = true → (s.bolt t.bolt).evict ≠ 0 → (s.bolt t.bolt).evict.toNat < s.gtime - t.blockedAt → t.seamed = false → t.xchg = false →
    t.handler = false → (s.bolt t.bolt).pressed = false → waitedFor s t = true → ∀ room, nearestRoom s t.bolt (coreOf tid) t.allot = some room →
    let mine := (s.core (coreOf tid)).inbox.filter (fun m => decide (m.dstSlot = slotOf tid))
    let faults := (s.core (coreOf tid)).sfq.filter (fun e => decide (e.tid = tid))
    (∃ u id, exec (.threadEvict ⟨tid, false⟩) s = .next u ∧ 16384 ≤ id ∧ (u.thread id).occ = .evicted ∧ (u.thread id).room = some room ∧ (u.thread id).regs = t.regs ∧
      (u.thread id).pc = t.pc ∧ (u.thread id).wait = t.wait ∧ (u.thread id).savedFaults.map (·.tval) = (t.savedFaults ++ faults).map (·.tval) ∧
      (t.wait ≠ .message → (u.thread tid).occ = .empty ∧ (u.thread id).savedMsgs.map (·.words) = (t.savedMsgs ++ mine).map (·.words)) ∧
      (t.wait = .message → (u.thread tid).occ = .evicted) ∧ u.dram = s.dram) ∧
    exec (.threadEvict ⟨tid, true⟩) s = .next (report s { cause := .savefault, tid := tid })) ∧
  (∀ (s : State) tid fails, (s.thread tid).occ = .resident → blockingPoint (s.thread tid).wait = false → tid < 8192 → exec (.threadEvict ⟨tid, fails⟩) s = .next s) ∧
  (∀ (s : State) tid slot, Rising s.threads → noteWakes s = s → s.saved = [tid] → headLaunch s (s.thread tid).bolt = none → halted s (s.thread tid).bolt tid = false →
    restoreSlot s tid = some slot → slot < 8192 → 16384 ≤ tid → tid < 2 ^ 40 →
    ∃ u, exec (.threadRestore tid) s = .next u ∧ (u.thread slot).occ = .resident ∧ (u.thread slot).room = none ∧ (u.thread slot).savedMsgs = [] ∧
      (u.thread slot).savedFaults = [] ∧ (u.thread slot).regs = (s.thread tid).regs ∧ (u.thread slot).pc = (s.thread tid).pc ∧
      (u.thread tid).occ = .empty ∧ u.saved = [] ∧ u.dram = s.dram)

/-! ## The matrix unit, walks, the Sorter -/

namespace Sys2Proof.Claims

/-- The registers of a group of eight. -/
def eight (r : Reg) : List Reg := [r, r + 1, r + 2, r + 3, r + 4, r + 5, r + 6, r + 7]

/-- The registers of a group as a request takes them. -/
def valsOf (s : State) (l : List Reg) : List Val := l.map s.t.reg

/-- A request of the current thread for the matrix unit. -/
def matrixRequest (s : State) (kind : Nat) (tok : Nat) (regs : List Val) : MReq :=
  { kind := kind, tid := s.cur, bolt := s.t.bolt, tok := tok, seq := nextSeq s, mode := s.t.mode, cls := s.t.qclass, lb := (windowOf s s.cur).1, regs := regs }

/-- A request entered in the core's queue (R225). -/
def queued (s : State) (r : MReq) : State := (s.setC { s.c with mq := s.c.mq ++ [r] }).setT { s.t with usedMatrix := true }

/-- The out-of-service fault of an engine (R325). -/
def outFault (engine : Nat) (i : Instr) : W64 := BitVec.ofNat 64 (engine * 65536 + (baseParcel i).toNat)

/-- The check of the element rows that MDRAIN writes (R239). -/
def drainElements (s : State) (r : Reg) : Res Unit :=
  let h := drainShape (s.t.reg (r + 2))
  rowsCheck (fun a n => checkLocal s s.cur r.toNat (s.t.reg r) a.toNat n false true) (s.t.reg r).nat (lowStride (s.t.reg (r + 3)) : Int) h.m
    (ceilDiv (h.n * drainBits (drainFmt (s.t.reg (r + 2)))) 8)

/-- The check of the scale rows that MDRAIN writes in formats 2 to 4 (R239). -/
def drainScales (s : State) (r : Reg) : Res Unit :=
  let h := drainShape (s.t.reg (r + 2))
  rowsCheck (fun a n => checkLocal s s.cur (r + 1).toNat (s.t.reg (r + 1)) a.toNat n false true) (s.t.reg (r + 1)).nat (highStride (s.t.reg (r + 3)) : Int) h.m
    (ceilDiv h.n 32 * drainScaleBytes (drainFmt (s.t.reg (r + 2))))

/-- The regions that MDRAIN writes pass their checks (R239): none is checked of an empty drain. -/
def drainFits (s : State) (r : Reg) : Prop :=
  let h := drainShape (s.t.reg (r + 2))
  h.m = 0 ∨ h.n = 0 ∨ (drainElements s r = .ok () ∧ (drainScaled (drainFmt (s.t.reg (r + 2))) = true → drainScales s r = .ok ()))

/-- A command with token `d` executes: the registers of its group that it reads, and its destination, are ready; all of the group lie below the
allotment and are unbound. A register of the group that it does not read delays nothing (R55 to R57). -/
def Commands (q : Pre) (d : Reg) (group read : List Reg) (s : State) : Prop :=
  Runs q (d :: read) [] s ∧ (∀ x ∈ group, x.toNat < s.t.allot) ∧ Unbound (d :: group) s

/-- The registers of its group that MM reads: the shape alone where it is refused; A, B and the scale arrays but for empty regions; the strides;
never G[s+7] (R233, R235). -/
def mmReads (s : State) (r : Reg) : List Reg :=
  let h := mmShape (s.t.reg (r + 2))
  let w := s.c.fmtLatest
  let a := h.m ≠ 0 ∧ h.k ≠ 0
  let b := h.n ≠ 0 ∧ h.k ≠ 0
  (r + 2) :: if h.inTile = false then [] else
    (r + 3) :: (if a then [r] else []) ++ (if b then [r + 1] else []) ++ (if a ∧ ctxSA w = true then [r + 4] else []) ++
    (if b ∧ ctxSB w = true then [r + 5] else []) ++ (if ctxSA w = true ∨ ctxSB w = true then [r + 6] else [])

/-- The registers of its group that MDRAIN reads: the shape alone where it is refused; the destinations but for an empty drain, and the scale
destination in formats 2 to 4 (R238, R239). -/
def drainReads (s : State) (r : Reg) : List Reg :=
  let h := drainShape (s.t.reg (r + 2))
  let f := drainFmt (s.t.reg (r + 2))
  (r + 2) :: if h.inTile = false ∨ 5 < f then [] else
    (r + 3) :: if h.m = 0 ∨ h.n = 0 then [] else r :: if drainScaled f = true then [r + 1] else []

/-- MACC rows: the instruction, its kind, whether it reads and writes local memory. -/
def maccs (r : Reg) : List ((Pre → Instr) × Nat × List Reg × Bool × Bool) := [
  (fun q => .maccLoad q r, 4, [r], true, false), (fun q => .maccStore q r, 5, [r], false, true), (.maccClear, 6, [], false, false)]

end Sys2Proof.Claims

/-- R231 to R240: MFMT answers the previous word and the reject bit; MM, MMZ and MDRAIN refuse a region outside the tile with status 1, else check their
operands and queue one request, or wait for a place; a failing check is the precise fault; MACC queues its request and waits until it is over. Every
command is a COPROC fault while the unit is out of service. A register that a command does not read delays nothing.
What the rules leave open is the model's choice here: assumptions 57, 60, 82, 83. -/
def Obligations.MatrixCommands : Prop :=
  (∀ q d r s, Executes q [r, d] [] s → s.c.ring.length < 32 → s.c.mq.length < 4 → let w : BitVec 32 := (s.t.reg r).bits.setWidth 32
    (s.cl.matrixOut = true → Traps (.mfmt q d r) s .coproc (outFault 2 (.mfmt q d r))) ∧
    (s.cl.matrixOut = false → fmtAcceptable w = false → Gives (.mfmt q d r) s (writes q s d (Val.ofNat (s.c.fmtLatest.toNat + 2 ^ 32)))) ∧
    (s.cl.matrixOut = false → fmtAcceptable w = true → ∃ t, exec (.mfmt q d r) s = .next t ∧ t.t.pc = past q s ∧
      (∀ x, t.t.reg x = if x = d ∧ d ≠ 0 then Val.ofNat s.c.fmtLatest.toNat else s.t.reg x) ∧ t.c.fmtLatest = w ∧ t.c.fmtNow = s.c.fmtNow ∧
      t.c.mq = s.c.mq ++ [{ matrixRequest s 0 64 [] with word := w }] ∧ t.c.seq = s.c.seq + 1 ∧ t.clusters = s.clusters ∧ t.dram = s.dram)) ∧
  (∀ (f : Pre → Reg → Reg → Instr) kind, (f = .mm ∧ kind = 1) ∨ (f = .mmz ∧ kind = 2) → ∀ q d r s, r.toNat % 8 = 0 → s.c.ring.length < 32 →
    let i := f q d r
    let h := mmShape (s.t.reg (r + 2))
    (Commands q d (eight r) (mmReads s r) s →
      (s.cl.matrixOut = true → Traps i s .coproc (outFault 2 i)) ∧
      (s.cl.matrixOut = false → h.inTile = false → Gives i s (ends s (dispatched q s i 4 d 2) d 4 1)) ∧
      (s.cl.matrixOut = false → h.inTile = true → mmChecks s r h s.c.fmtLatest false = .ok () → s.c.mq.length < 4 →
        Gives i s (queued (dispatched q s i 4 d 2) (matrixRequest s kind d.toNat (valsOf s (eight r))))) ∧
      (s.cl.matrixOut = false → h.inTile = true → mmChecks s r h s.c.fmtLatest false = .ok () → 4 ≤ s.c.mq.length → exec i s = .next (setWait s s.cur .place)) ∧
      (∀ x, s.cl.matrixOut = false → h.inTile = true → mmChecks s r h s.c.fmtLatest false = .error x → exec i s = .next (stopped s x))) ∧
    (∀ cap st n w sx pol pos l, r = 8 → Runs q (d :: mmReads s 8) [] s → (∀ x ∈ eight 8, x.toNat < s.t.allot) → Unbound (d :: (eight 8).tail) s →
      s.cl.matrixOut = false → h.inTile = true →
      Map.find s.t.binds 8 = some (.stream false cap st n w sx pol pos l) →
      (widthBits w ≠ (matFmt (ctxA s.c.fmtLatest)).bits → Gives i s (ends s (dispatched q s i 4 d 2) d 4 2)) ∧
      (widthBits w = (matFmt (ctxA s.c.fmtLatest)).bits → mmChecks s 8 h s.c.fmtLatest true = .ok () → s.c.mq.length < 4 →
        ∃ s0, Starts (afterT q s s.t) s0 ∧ ∀ s1 xs, popElements s0 8 (h.m * h.k) = .ok (s1, xs) → ∃ t, exec i s = .next t ∧ t.t.pc = past q s ∧ t.t.binds = s1.t.binds ∧ t.t.regs = s.t.regs ∧
          t.c.mq = s.c.mq ++ [{ matrixRequest s kind d.toNat (valsOf s (eight 8)) with stream := some xs }]))) ∧
  (∀ q d r s, r.toNat % 4 = 0 → Commands q d (four r) (drainReads s r) s → s.c.ring.length < 32 →
    let i := Instr.mdrain q d r
    let h := drainShape (s.t.reg (r + 2))
    let f := drainFmt (s.t.reg (r + 2))
    (s.cl.matrixOut = true → Traps i s .coproc (outFault 2 i)) ∧
    (s.cl.matrixOut = false → h.inTile = false ∨ 5 < f → Gives i s (ends s (dispatched q s i 4 d 2) d 5 1)) ∧
    (s.cl.matrixOut = false → h.inTile = true → f ≤ 5 →
      (drainFits s r → s.c.mq.length < 4 → Gives i s (queued (dispatched q s i 4 d 2) (matrixRequest s 3 d.toNat (valsOf s (four r))))) ∧
      (drainFits s r → 4 ≤ s.c.mq.length → exec i s = .next (setWait s s.cur .place)) ∧
      (∀ x, h.m ≠ 0 → h.n ≠ 0 → drainElements s r = .error x ∨ (drainElements s r = .ok () ∧ drainScaled f = true ∧ drainScales s r = .error x) →
        exec i s = .next (stopped s x)))) ∧
  (∀ r, ∀ e ∈ maccs r, ∀ q s, s.c.ring.length < 32 →
    let i := e.1 q
    let v := if e.2.1 = 6 then {} else s.t.reg r
    let entry : Ring := { seq := nextSeq s, tid := s.cur, slot := slotOf s.cur, pc := s.t.pc, page := 4, major := (baseParcel i).toNat / 1024, m := (baseParcel i).toNat % 4 }
    let checks := e.2.1 = 6 ∨ checkLocal s s.cur r.toNat v v.nat 65536 e.2.2.2.1 e.2.2.2.2 = .ok ()
    (Executes q e.2.2.1 [] s → s.cl.matrixOut = true → Traps i s .coproc (outFault 2 i)) ∧
    (∀ c tv, Executes q e.2.2.1 [] s → s.cl.matrixOut = false → e.2.1 ≠ 6 → checkLocal s s.cur r.toNat v v.nat 65536 e.2.2.2.1 e.2.2.2.2 = .error (.trap c tv) →
      Traps i s c tv) ∧
    (Executes q e.2.2.1 [] s → s.cl.matrixOut = false → checks → 4 ≤ s.c.mq.length → exec i s = .next (setWait s s.cur .memPlace)) ∧
    (Executes q e.2.2.1 [] s → s.cl.matrixOut = false → checks → s.c.mq.length < 4 →
      let c := { s.c with ring := entry :: s.c.ring, seq := s.c.seq + 1, mq := s.c.mq ++ [matrixRequest s e.2.1 64 [v]] }
      Gives i s (setWait (({ s with accs := s.accs + 1 }.setC c).setT { s.t with cmds := s.t.cmds ++ [(nextSeq s, 64, 0)], usedMatrix := true, stage := 1 }) s.cur .macc)) ∧
    (s.t.occ = .resident → s.t.wait = .none → s.t.stage = 2 → s.t.xchg = false → Guarded q s → ReadyRegs q e.2.2.1 [] s → Unbound e.2.2.1 s →
      ∃ t, exec i s = .next t ∧ t.t.pc = past q s ∧ t.t.stage = 0 ∧ t.t.regs = s.t.regs ∧ t.c.tile = s.c.tile ∧ t.clusters = s.clusters))

namespace Sys2Proof.Claims

/-- The status a completed request of the matrix unit sets out. -/
def tokenOf (r : MReq) (kind code progress : Nat) (late : Option Cause) : Completion :=
  { tid := r.tid, reg := r.tok, word := status kind code progress r.seq.num, seq := r.seq, late := late }

/-- The integer sum of one tile element: the products of row i of A and column n of B. -/
def dot (s : State) (core : Nat) (r : MReq) (i n : Nat) : Int :=
  let h := mmShape (r.regs.getD 2 {})
  let w := (s.core core).fmtNow
  let ta := matFmt (ctxA w)
  let tb := matFmt (ctxB w)
  let rows := aRows (s.cluster (clusterOf core)) r h ta.bits
  let cols := bRows (s.cluster (clusterOf core)) r h tb.bits
  ((List.range h.k).map (fun k => elInt ta (lane (rows.getD i 0) ta.bits k) * elInt tb (lane (cols.getD k 0) tb.bits n))).sum

/-- The value of a scale of a request: row `i` and column `j` of the array that register `g` names, 1.0 of an unscaled operand; none where it is
invalid (R194, R234). -/
def scaleAt (s : State) (core : Nat) (r : MReq) (on : Bool) (code g stride i j : Nat) : Option FV :=
  let a := r.lb + (r.regs.getD g {}).nat + i * stride
  let mem := (s.cluster (clusterOf core)).mem.cells
  if on = false then some (.fin false 1 0)
  else if e8Code code then scaleE8 (Memory.read mem (a + j)).toNat else scale32 (bytesToNat (Memory.readN mem (a + 4 * j) 4))

/-- sA[i][j] and sB[j][n] of a request (R195). -/
def scaleA (s : State) (core : Nat) (r : MReq) (i j : Nat) : Option FV :=
  let w := (s.core core).fmtNow
  scaleAt s core r (ctxSA w) (ctxA w) 4 (lowStride (r.regs.getD 6 {})) i j
def scaleB (s : State) (core : Nat) (r : MReq) (j n : Nat) : Option FV :=
  let w := (s.core core).fmtNow
  scaleAt s core r (ctxSB w) (ctxB w) 5 (highStride (r.regs.getD 6 {})) j n

/-- The products of block `j` for one tile element: up to 32 elements of row i of A, each with its element of column n of B (R195). -/
def products (s : State) (core : Nat) (r : MReq) (i n j : Nat) : List (FV × FV) :=
  let h := mmShape (r.regs.getD 2 {})
  let w := (s.core core).fmtNow
  let ta := matFmt (ctxA w)
  let tb := matFmt (ctxB w)
  let row := (aRows (s.cluster (clusterOf core)) r h ta.bits).getD i 0
  let cols := bRows (s.cluster (clusterOf core)) r h tb.bits
  (List.range (min 32 (h.k - 32 * j))).map (fun x => (ta.decode (lane row ta.bits (32 * j + x)), tb.decode (lane (cols.getD (32 * j + x) 0) tb.bits n)))

/-- A tile element after the first `j` blocks of a request, from `acc`: each block's sum is rounded, scaled by the rounded product of its scales, and
added (R195). -/
def accumulated (s : State) (core : Nat) (r : MReq) (acc i n : Nat) : Nat → Nat
  | 0 => acc
  | j + 1 =>
    let w := (s.core core).fmtNow
    let t := Fmt.ieee f32
    let sum := (blockSum (halfCode (ctxA w) || halfCode (ctxB w)) (products s core r i n j)).1
    let p := (t.encode 0 (((scaleA s core r i j).getD (.fin false 1 0)).mul ((scaleB s core r j n).getD (.fin false 1 0))).1).1
    let q := (elMul t 0 (t.encode 0 sum).1 p).1
    (elAdd t 0 (accumulated s core r acc i n j) q).1

/-- The exact value of a finite number in units of 2^u, where its exponent is `u` or more. -/
def inUnits (u : Int) : FV → Int
  | .fin neg m e => (if neg then -1 else 1) * ((m * 2 ^ (e - u).toNat : Nat) : Int)
  | _ => 0

/-- Every finite number of a list is a whole number of units of 2^u. -/
def fineAs (u : Int) (vs : List FV) : Prop := ∀ n m e, FV.fin n m e ∈ vs → u ≤ e

/-- The largest magnitude of a list lies in [2^top, 2^(top + 1)), counted in units of 2^u. -/
def largest (u top : Int) (vs : List FV) : Prop :=
  u ≤ top ∧ (∃ v ∈ vs, 2 ^ (top - u).toNat ≤ (inUnits u v).natAbs) ∧ ∀ v ∈ vs, (inUnits u v).natAbs < 2 ^ (top + 1 - u).toNat

/-- BlockSum (R196): a NaN product, or infinities of both signs, give NaN; infinities of one sign that one; else the sum is exact, but that with an FP16
or BF16 operand each product is cut in magnitude to the 64 bits below the largest; an exact zero is +0. -/
def BlockSums : Prop :=
  ∀ (narrow : Bool) (ps : List (FV × FV)), let vs := ps.map (fun p => (p.1.mul p.2).1)
    let sum := (blockSum narrow ps).1
    let infinite := fun (n : Bool) => FV.inf n ∈ vs
    ((∃ v ∈ vs, v.isNan = true) → sum.isNan = true) ∧
    ((∀ v ∈ vs, v.isNan = false) →
      (infinite true → infinite false → sum.isNan = true) ∧
      (∀ n, infinite n → ¬ infinite (!n) → sum = .inf n) ∧
      (¬ infinite true → ¬ infinite false →
        (∀ u, fineAs u vs → narrow = false → inUnits u sum = (vs.map (inUnits u)).sum) ∧
        (∀ u top, fineAs u vs → u ≤ top - 63 → largest u top vs → narrow = true →
          let unit := 2 ^ (top - 63 - u).toNat
          inUnits u sum = (vs.map (fun v => (inUnits u v).sign * (((inUnits u v).natAbs / unit * unit : Nat) : Int))).sum) ∧
        (∀ n e, sum = .fin n 0 e → n = false)))

/-- What a request drains: the values of a row of its region. -/
def drained (s : State) (core : Nat) (r : MReq) (i : Nat) : List Nat :=
  let h := drainShape (r.regs.getD 2 {})
  (List.range h.n).map (fun n => tileAt (s.core core) (h.row0 + i) (h.col0 + n))

/-- A request at the head of its core's queue, granted the array of its cluster, with nothing to wait for: no refresh (R122), the writes of
its thread that came before it performed (R229, R256), and no core owed a bank that it takes (R128). -/
def granted (s : State) (core : Nat) (r : MReq) (rest : List MReq) : Prop :=
  core < 2048 ∧ (s.cluster (clusterOf core)).arrayBusy = some core ∧ (s.core core).mq = r :: rest ∧ r.grant ≠ 0 ∧ refreshStall s core r = false ∧
  (if r.kind ≥ 7 then writesBefore s r.tid r.seq else windowWritesOut s r.tid r.seq) = false ∧
  ∀ x ∈ matrixRanges s core r, banksOwed (s.cluster (clusterOf core)) x.1 x.2 = false

/-- The array is free again and the request out of its queue. -/
def freed (t : State) (core : Nat) (rest : List MReq) : Prop := (t.cluster (clusterOf core)).arrayBusy = none ∧ (t.core core).mq = rest

end Sys2Proof.Claims

/-- R226, R232, R235, R236, R195 to R197, R239, R240: a queued format word takes effect at the head; the array grants one context; a granted request is
performed and its token completes: an INT8 product adds its exact sums modulo 2^32 to its region of the tile, another its rounded and scaled block sums,
and neither changes another element; K = 0 clears the region of MMZ and changes nothing for MM; an invalid scale ends it with the late fault SCALE; a
drain writes rows with their scales and clears its region where CLEAR asks; MACC moves the tile.
What the rules leave open is the model's choice here: assumptions 27, 72. -/
def Obligations.MatrixRequests : Prop := Sys2Proof.Claims.BlockSums ∧
  (∀ (s : State) core r rest, core < 2048 → (s.core core).mq = r :: rest → r.kind = 0 → halted s r.bolt r.tid = false → ∃ t, exec (.mfmtContextChange core) s = .next t ∧
    (t.core core).mq = rest ∧ (t.core core).fmtNow = r.word ∧ (t.core core).tile = (s.core core).tile ∧
    (rising s.cores → ∀ k, ringCore s r.seq = some k → (t.core k).ring = (s.core k).ring.filter (fun e => decide (e.seq ≠ r.seq))) ∧ ∀ j, (t.thread j).regs = (s.thread j).regs) ∧
  (∀ (s : State) cl i k r rest, cl < 256 → (s.cluster cl).arrayBusy = none → (liveCores s cl)[i]? = some k → grantable s k = true →
    (∀ j x, j ≠ i → (liveCores s cl)[j]? = some x → grantable s x = false) → (s.core k).mq = r :: rest →
    let g := if readsDamask r (s.core k).fmtNow = false then 1 else if (s.cluster cl).dstate = 2 then 2 else 3
    ∃ t, exec (.arrayGrant cl) s = .next t ∧ (t.cluster cl).arrayBusy = some k ∧ (t.cluster cl).arrayLast = i ∧ (t.core k).mq = { r with grant := g } :: rest ∧
      (t.cluster cl).reads = (s.cluster cl).reads + (if g = 2 then 1 else 0) ∧ t.threads = s.threads) ∧
  (∀ (s : State) core r rest, granted s core r rest → r.kind = 1 ∨ r.kind = 2 →
    let h := mmShape (r.regs.getD 2 {})
    let w := (s.core core).fmtNow
    (h.m = 0 ∨ h.n = 0 → ∃ t, exec (.matrixRequestComplete core) s = .next t ∧ freed t core rest ∧ (t.core core).tile = (s.core core).tile ∧
      t.completions = s.completions ++ [tokenOf r 4 0 0 none]) ∧
    (h.m ≠ 0 → h.n ≠ 0 → h.k = 0 → h.inTile = true → Map.canon 0 none (s.core core).tile = true → ∃ t, exec (.matrixRequestComplete core) s = .next t ∧ freed t core rest ∧
      t.completions = s.completions ++ [tokenOf r 4 0 0 none] ∧
      ∀ i n, i < 128 → n < 128 → tileAt (t.core core) i n =
        if r.kind = 2 ∧ h.row0 ≤ i ∧ i < h.row0 + h.m ∧ h.col0 ≤ n ∧ n < h.col0 + h.n then 0 else tileAt (s.core core) i n) ∧
    (h.m ≠ 0 → h.n ≠ 0 → h.k ≠ 0 → r.grant ≠ 3 → (∃ i j, i < h.m ∧ j < h.blocks ∧ scaleA s core r i j = none) ∨ (∃ j n, j < h.blocks ∧ n < h.n ∧ scaleB s core r j n = none) →
      ∃ t, exec (.matrixRequestComplete core) s = .next t ∧ freed t core rest ∧ (t.core core).tile = (s.core core).tile ∧
        t.completions = s.completions ++ [tokenOf r 4 6 0 (some .scale)]) ∧
    (h.m ≠ 0 → h.n ≠ 0 → h.k ≠ 0 → r.grant ≠ 3 → h.inTile = true → ctxAcc w ≠ 1 →
      (∀ i j, i < h.m → j < h.blocks → scaleA s core r i j ≠ none) → (∀ j n, j < h.blocks → n < h.n → scaleB s core r j n ≠ none) →
      Map.canon 0 none (s.core core).tile = true → ∃ t, exec (.matrixRequestComplete core) s = .next t ∧ freed t core rest ∧
        t.completions = s.completions ++ [tokenOf r 4 0 h.blocks none] ∧
        ∀ i n, i < 128 → n < 128 → tileAt (t.core core) i n =
          if h.row0 ≤ i ∧ i < h.row0 + h.m ∧ h.col0 ≤ n ∧ n < h.col0 + h.n then
            accumulated s core r (if r.kind = 2 then 0 else tileAt (s.core core) i n) (i - h.row0) (n - h.col0) h.blocks % 2 ^ 32
          else tileAt (s.core core) i n) ∧
    (h.m ≠ 0 → h.n ≠ 0 → h.k ≠ 0 → r.grant = 3 → ∃ t, exec (.matrixRequestComplete core) s = .next t ∧ freed t core rest ∧ (t.core core).tile = (s.core core).tile ∧
      t.completions = s.completions ++ [tokenOf r 4 6 0 (some .damask)]) ∧
    (h.m ≠ 0 → h.n ≠ 0 → h.k ≠ 0 → r.grant ≠ 3 → h.inTile = true → ctxAcc w = 1 → ctxSat w = false → ctxSA w = false → ctxSB w = false →
      Map.canon 0 none (s.core core).tile = true → ∃ t, exec (.matrixRequestComplete core) s = .next t ∧ freed t core rest ∧
        t.completions = s.completions ++ [tokenOf r 4 0 h.blocks none] ∧
        ∀ i n, i < 128 → n < 128 → tileAt (t.core core) i n =
          if h.row0 ≤ i ∧ i < h.row0 + h.m ∧ h.col0 ≤ n ∧ n < h.col0 + h.n then
            wrap 32 (sext (if r.kind = 2 then 0 else tileAt (s.core core) i n) 32 + dot s core r (i - h.row0) (n - h.col0))
          else tileAt (s.core core) i n)) ∧
  (∀ (s : State) core r rest, granted s core r rest → r.kind = 3 → Memory.wf (s.cluster (clusterOf core)).mem.cells = true →
    let g2 := r.regs.getD 2 {}
    let h := drainShape g2
    (drainAccepts (drainFmt g2) (ctxAcc (s.core core).fmtNow) = false → ∃ t, exec (.matrixRequestComplete core) s = .next t ∧ freed t core rest ∧
      t.completions = s.completions ++ [tokenOf r 5 1 0 none] ∧ (t.cluster (clusterOf core)).mem = (s.cluster (clusterOf core)).mem) ∧
    (h.m = 1 → drainClear g2 = false → (drainFmt g2 = 0 ∧ ctxAcc (s.core core).fmtNow = 0) ∨ (drainFmt g2 = 5 ∧ ctxAcc (s.core core).fmtNow = 1) →
      ∃ t, exec (.matrixRequestComplete core) s = .next t ∧ freed t core rest ∧ t.completions = s.completions ++ [tokenOf r 5 0 1 none] ∧
        (t.core core).tile = (s.core core).tile ∧ ∀ a, Memory.read (t.cluster (clusterOf core)).mem.cells a =
          let o := r.lb + (r.regs.getD 0 {}).nat
          if o ≤ a ∧ a < o + 4 * h.n then BitVec.ofNat 8 (tileAt (s.core core) h.row0 (h.col0 + (a - o) / 4) / 2 ^ (8 * ((a - o) % 4)))
          else Memory.read (s.cluster (clusterOf core)).mem.cells a) ∧
    (h.m = 1 → drainScaled (drainFmt g2) = true → ctxAcc (s.core core).fmtNow = 0 → ∃ t, exec (.matrixRequestComplete core) s = .next t ∧ freed t core rest ∧
      t.completions = s.completions ++ [tokenOf r 5 0 1 none] ∧ ∀ a, Memory.read (t.cluster (clusterOf core)).mem.cells a =
        let f := drainFmt g2
        let block := fun (b : Nat) => drainBlock f (((drained s core r 0).drop (32 * b)).take 32)
        let o := r.lb + (r.regs.getD 0 {}).nat
        let p := r.lb + (r.regs.getD 1 {}).nat
        let z := drainScaleBytes f
        if o ≤ a ∧ a < o + ceilDiv (h.n * drainBits f) 8 then
          BitVec.ofNat 8 (ofLanes (drainBits f) ((List.range h.n).map (fun n => ((block (n / 32)).2.getD (n % 32) (0, {})).1)) / 2 ^ (8 * (a - o)))
        else if p ≤ a ∧ a < p + ceilDiv h.n 32 * z then BitVec.ofNat 8 ((block ((a - p) / z)).1 / 2 ^ (8 * ((a - p) % z)))
        else Memory.read (s.cluster (clusterOf core)).mem.cells a) ∧
    (h.inTile = true → drainAccepts (drainFmt g2) (ctxAcc (s.core core).fmtNow) = true → Map.canon 0 none (s.core core).tile = true →
      ∃ t, exec (.matrixRequestComplete core) s = .next t ∧ freed t core rest ∧ t.completions = s.completions ++ [tokenOf r 5 0 h.m none] ∧
        ∀ i n, i < 128 → n < 128 → tileAt (t.core core) i n =
          if drainClear g2 = true ∧ h.row0 ≤ i ∧ i < h.row0 + h.m ∧ h.col0 ≤ n ∧ n < h.col0 + h.n then 0 else tileAt (s.core core) i n)) ∧
  (∀ f (bs : List Nat), drainScaled f = true → let vs := bs.map f32.decode
    ((∃ v ∈ vs, v.isNan = true) → (drainBlock f bs).1 = if f = 2 then 0x3F800000 else 0xFF) ∧
    ((∀ v ∈ vs, v.isNan = false ∧ ∀ n m e, v = .fin n m e → m = 0) → (drainBlock f bs).1 = if f = 2 then 0x3F800000 else 127) ∧
    (∀ u top, f ≠ 2 → (∀ v ∈ vs, v.isNan = false) → fineAs u vs → largest u top vs →
      ((drainBlock f bs).1 : Int) = max (-127) (min 127 (top - if f = 3 then 2 else 0)) + 127)) ∧
  (∀ (s : State) core r rest, granted s core r rest → let cl := clusterOf core; let o := r.lb + (r.regs.getD 0 {}).nat
    (r.kind = 6 → ∃ t, exec (.matrixRequestComplete core) s = .next t ∧ freed t core rest ∧ (t.core core).tile = [] ∧ (t.cluster cl).mem = (s.cluster cl).mem) ∧
    (r.kind = 4 → ∃ t, exec (.matrixRequestComplete core) s = .next t ∧ freed t core rest ∧ (∀ k, k < 16384 →
      Map.get (t.core core).tile k 0 = BitVec.ofNat 32 (bytesToNat (Memory.readN (s.cluster cl).mem.cells (o + 4 * k) 4)))) ∧
    (r.kind = 5 → Memory.wf (s.cluster cl).mem.cells = true → ∃ t, exec (.matrixRequestComplete core) s = .next t ∧ freed t core rest ∧
      (t.core core).tile = (s.core core).tile ∧ ∀ a, Memory.read (t.cluster cl).mem.cells a = if o ≤ a ∧ a < o + 65536 then
        BitVec.ofNat 8 ((Map.get (s.core core).tile ((a - o) / 4) 0).toNat / 2 ^ (8 * ((a - o) % 4))) else Memory.read (s.cluster cl).mem.cells a))

namespace Sys2Proof.Claims

/-- Row `i` is processed and still descends. -/
def active (w : WSt) (i : Nat) : Prop := ∃ x, w.rows[i]? = some x ∧ x.proc = true ∧ x.status = rowActive

/-- The rows of `w` after a visit that changes those of `g` by `f` and leaves the others. -/
def changed (w v : WSt) (g : List Nat) (f : Nat → WRow → WRow) : Prop :=
  v.rows.length = w.rows.length ∧ ∀ i x, w.rows[i]? = some x → v.rows[i]? = some (if i ∈ g then f i x else x)

/-- Reach (R249): what a walk may not read: beyond its tree or Damask capability, or the slice. -/
def outOfReach (r : MReq) (a n : Nat) : Prop :=
  if bitAt a 63 = true then
    let dam := r.regs.getD 2 {}
    bits a 62 25 ≠ 0 ∨ dam.tag = false ∨ (boundFault dam (bits a 24 0) n).isSome = true ∨ 0x1800000 < bits a 24 0 + n
  else (r.regs.getD 1 {}).tag = false ∨ (boundFault (r.regs.getD 1 {}) a n).isSome = true

/-- R248: a level takes the rows that still descend, grouped by NODE, the groups in rising order of NODE and the rows of each in rising order, every row
in one group; and a walk has ended within 65 levels, no row of it descending. -/
def Levels : Prop :=
  (∀ w : WSt, ((levelGroups w).map (·.1)).Pairwise (· < ·) ∧ (∀ g ∈ levelGroups w, g.2.Pairwise (· < ·)) ∧
    ∀ p i, (∃ g ∈ levelGroups w, g.1 = p ∧ i ∈ g.2) ↔ (active w i ∧ ∃ x, w.rows[i]? = some x ∧ x.node = p)) ∧
  (∀ core r fw k n (w v : WSt), 65 ≤ n → walkLevelsOf core r fw k n w = .ok v → ∀ i, ¬ active v i)

/-- R249: a visit to a node: what ends the rows of the group with BOUND, FAULTED or DEPTH, what a leaf writes, and where an inner node sends a row. -/
def Visits : Prop :=
  (∀ core r (s : State) a n, outOfReach r a n → walkRead s core r a n = .error .bound) ∧
  (∀ core r (s : State) a n, bitAt a 63 = true → ¬ outOfReach r a n →
    inRefresh s (clusterOf core) (bankGroup (bits a 24 0)) = false → inRefresh s (clusterOf core) (bankGroup (bits a 24 0 + n - 1)) = false →
    walkRead s core r a n = .ok (s, Memory.readN (s.cluster (clusterOf core)).damask (bits a 24 0) n)) ∧
  (∀ core r fw k p g (w : WSt), (∀ i ∈ g, i < w.rows.length) → g.Pairwise (· < ·) →
    let ends := fun (st : Nat) (e : Option (Cause × W64 × Nat)) (s : State) (rows : List Nat) =>
      ∃ v, visitNode core r fw k p g w = .ok v ∧ v.s = s ∧ changed w v rows (fun _ x => { x with status := st, fail := e })
    (p % 64 ≠ 0 → ends rowBound none w.s g) ∧
    (p % 64 = 0 → walkRead w.s core r p 64 = .error .bound → ends rowBound none w.s g) ∧
    (∀ s1 c tv a, p % 64 = 0 → walkRead w.s core r p 64 = .error (.fault s1 c tv a) → ends rowFaulted (some (c, tv, a)) s1 g) ∧
    (∀ l, p % 64 = 0 → walkRead w.s core r p 64 = .error (.busy l) → visitNode core r fw k p g w = .error l) ∧
    (∀ s1 bs, p % 64 = 0 → walkRead w.s core r p 64 = .ok (s1, bs) →
      (nodeMalformed (bytesToNat bs) k = true → ends rowBound none s1 g) ∧
      (nodeMalformed (bytesToNat bs) k = false → (nodeOf (bytesToNat bs)).kind = 0 → (∀ i ∈ g, ∃ x, w.rows[i]? = some x ∧ 64 ≤ x.depth) → ends rowDepth none s1 g))) ∧
  (∀ core r (d : Node) (w : WSt) i sc t, i < w.rows.length → outFmt d.out = some t → let ldo := highStride (r.regs.getD 4 {})
    let v := leafRow core r d w i sc
    (ldo < d.n * (t.bits / 8) → v.s = w.s ∧ changed w v [i] (fun _ x => { x with status := rowBound, fail := none })) ∧
    (d.n * (t.bits / 8) ≤ ldo → changed w v [i] (fun _ x => { x with status := rowDone }) ∧
      v.s = writeLocal w.s (clusterOf core) (r.lb + (r.regs.getD 5 {}).nat + i * ldo)
        (natToBytes (d.n * (t.bits / 8)) (ofLanes t.bits (sc.map (fun x => if d.out = 19 then x else (t.encode 0 (f32.decode x)).1)))))) ∧
  (∀ core r (d : Node) (w : WSt) i sc, i < w.rows.length →
    (decideChild d sc = none → ∃ v, innerRow core r d w i sc = .ok v ∧ v.s = w.s ∧ changed w v [i] (fun _ x => { x with status := rowNan, fail := none })) ∧
    (∀ j, decideChild d sc = some j → let a := d.children + 8 * j
      (2 ^ 64 ≤ a ∨ walkRead w.s core r a 8 = .error .bound → ∃ v, innerRow core r d w i sc = .ok v ∧ v.s = w.s ∧
        changed w v [i] (fun _ x => { x with status := rowBound, fail := none })) ∧
      (∀ s1 c tv e, a < 2 ^ 64 → walkRead w.s core r a 8 = .error (.fault s1 c tv e) → ∃ v, innerRow core r d w i sc = .ok v ∧ v.s = s1 ∧
        changed w v [i] (fun _ x => { x with status := rowFaulted, fail := some (c, tv, e) })) ∧
      (∀ s1 bs, a < 2 ^ 64 → walkRead w.s core r a 8 = .ok (s1, bs) → ∃ v, innerRow core r d w i sc = .ok v ∧ v.s = s1 ∧
        changed w v [i] (fun _ x => { x with node := bytesToNat bs, depth := x.depth + 1, last := j }))))

end Sys2Proof.Claims

/-- R246 to R250, R253, R254, R257, R258: WALK, WRESUME and WSTAT queue their requests or end with status 1; a walk of no rows, under a format it does not
take or a Damask slice that is not SEALED ends as the rules say; a performed walk runs its levels and visits, writes the record of every row it processed
and the walk record, and completes with how many are DONE; WSTAT reads the walk record at the head; the decision rules choose a child.
What the rules leave open is the model's choice here: assumptions 10, 27, 40, 83. -/
def Obligations.Walks : Prop := Sys2Proof.Claims.Levels ∧ Sys2Proof.Claims.Visits ∧
  (∀ (f : Pre → Reg → Reg → Instr) kind, (f = .walk ∧ kind = 7) ∨ (f = .wresume ∧ kind = 8) → ∀ q d r s, r.toNat % 8 = 0 →
    Commands q d (eight r) (if kind = 8 then (eight r).take 7 else eight r) s → s.c.ring.length < 32 →
    let i := f q d r
    let g3 := (s.t.reg (r + 3)).nat
    let bad := 128 < bits g3 7 0 ∨ bits g3 28 16 = 0 ∨ 4096 < bits g3 28 16 ∨ (s.t.reg (r + 6)).nat % 16 ≠ 0
    (s.cl.matrixOut = true → Traps i s .coproc (outFault 2 i)) ∧
    (s.cl.matrixOut = false → bad → Gives i s (ends s (dispatched q s i 4 d 2) d 6 1)) ∧
    (s.cl.matrixOut = false → ¬ bad → walkChecks s r = .ok () → s.c.mq.length < 4 →
      Gives i s (queued (dispatched q s i 4 d 2) (matrixRequest s kind d.toNat (valsOf s (eight r))))) ∧
    (∀ x, s.cl.matrixOut = false → ¬ bad → walkChecks s r = .error x → exec i s = .next (stopped s x))) ∧
  (∀ q d s, Executes q [d] [] s → s.cl.matrixOut = true → Traps (.wstat q d) s .coproc (outFault 2 (.wstat q d))) ∧
  (∀ q d s, Executes q [d] [] s → s.c.ring.length < 32 → s.cl.matrixOut = false → s.c.mq.length < 4 →
    Gives (.wstat q d) s (queued (dispatched q s (.wstat q d) 4 d 1) (matrixRequest s 9 d.toNat []))) ∧
  (∀ (s : State) core r rest, core < 2048 → (s.core core).mq = r :: rest → r.kind = 9 → halted s r.bolt r.tid = false → (s.thread r.tid).occ ≠ .empty →
    (∃ c ∈ (s.thread r.tid).cmds, c.1 = r.seq) → r.tok < 64 → Map.find (s.thread r.tid).binds r.tok = none → ∃ t, exec (.wstatAtHead core) s = .next t ∧
      (t.core core).mq = rest ∧ (t.thread r.tid).pending = (s.thread r.tid).pending.erase r.tok ∧
      (∀ x, (t.thread r.tid).reg x = if x.toNat = r.tok ∧ r.tok ≠ 0 then { bits := (s.core core).walkrec } else (s.thread r.tid).reg x) ∧
      ∀ j, j ≠ r.tid → t.thread j = s.thread j) ∧
  (∀ (s : State) core r rest, granted s core r rest → r.kind = 7 ∨ r.kind = 8 → let w := (s.core core).fmtNow
    (bits (r.regs.getD 3 {}).nat 7 0 = 0 → ∃ t, exec (.matrixRequestComplete core) s = .next t ∧ freed t core rest ∧ t.completions = s.completions ++ [tokenOf r 6 0 0 none]) ∧
    (bits (r.regs.getD 3 {}).nat 7 0 ≠ 0 → ctxAcc w ≠ 0 ∨ ctxSA w = true ∨ ctxSB w = true → ∃ t, exec (.matrixRequestComplete core) s = .next t ∧ freed t core rest ∧
      t.completions = s.completions ++ [tokenOf r 6 1 0 none]) ∧
    (bits (r.regs.getD 3 {}).nat 7 0 ≠ 0 → ctxAcc w = 0 → ctxSA w = false → ctxSB w = false → r.grant = 3 → ∃ t, exec (.matrixRequestComplete core) s = .next t ∧
      freed t core rest ∧ t.completions = s.completions ++ [tokenOf r 6 2 0 (some .damask)]) ∧
    (bits (r.regs.getD 3 {}).nat 7 0 ≠ 0 → ctxAcc w = 0 → ctxSA w = false → ctxSB w = false → r.grant ≠ 3 →
      Memory.wf (s.cluster (clusterOf core)).mem.cells = true → let b := matrixBanks s core r
      let cl := clusterOf core
      let start : WSt := { s := b, rows := walkRows (b.cluster cl) r }
      (∀ l, walkLevelsOf core r w (walkK r) 66 start = .error l → exec (.matrixRequestComplete core) s = .next (askFor b l)) ∧
      (∀ v, walkLevelsOf core r w (walkK r) 66 start = .ok v → let ps := v.rows.filter (·.proc)
        let done := (ps.filter (fun x => decide (x.status = rowDone))).length
        let all := ps.all (fun x => decide (x.status = rowDone))
        let stopped := ps.any (fun x => decide (x.status = rowFaulted ∨ x.status = rowBound))
        ∃ t, exec (.matrixRequestComplete core) s = .next t ∧ freed t core rest ∧
          t.completions = v.s.completions ++ [tokenOf r 6 (if all then 0 else 6) done (if stopped then some .walk else none)] ∧
          (t.core core).walkrec = walkRecord (walkM r) v.rows ∧ (t.core core).tile = (v.s.core core).tile ∧ (t.cluster cl).bstage = [] ∧
          ∀ a, Memory.read (t.cluster cl).mem.cells a = let o := r.lb + (r.regs.getD 6 {}).nat
            match v.rows[(a - o) / 16]? with
            | some x => if o ≤ a ∧ x.proc = true then BitVec.ofNat 8 (x.record / 2 ^ (8 * ((a - o) % 16))) else Memory.read (v.s.cluster cl).mem.cells a
            | none => Memory.read (v.s.cluster cl).mem.cells a))) ∧
  (∀ (c : Cluster) r i, i < walkM r → ∃ x, (walkRows c r)[i]? = some x ∧
    let rec_ := bytesToNat (Memory.readN c.mem.cells (r.lb + (r.regs.getD 6 {}).nat + 16 * i) 16)
    (r.kind = 7 → x.node = (r.regs.getD 7 {}).nat ∧ x.depth = 0 ∧ x.status = rowActive ∧ x.last = 255 ∧ x.proc = true) ∧
    (r.kind ≠ 7 → x.node = bits rec_ 63 0 ∧ x.depth = bits rec_ 71 64 ∧ x.last = bits rec_ 87 80 ∧
      (bits rec_ 79 72 = rowActive ∨ bits rec_ 79 72 = rowFaulted → x.proc = true ∧ x.status = rowActive) ∧
      (bits rec_ 79 72 ≠ rowActive → bits rec_ 79 72 ≠ rowFaulted → x.proc = false))) ∧
  (∀ (d : Node) (sc : List Nat),
    (d.rule = 0 → decideChild d sc = (match (f32.decode (sc.getD 0 0)).compare (.fin false 0 0) with | none => none | some .lt => some 0 | some _ => some 1)) ∧
    (d.rule = 2 → decideChild d sc = (match (f32.decode (sc.getD 0 0)).compare (f32.decode d.thresh) with | none => none | some .lt => some 0 | some _ => some 1)) ∧
    (d.rule = 1 → (decideChild d sc = none ↔ ∀ i, i < d.c → (f32.decode (sc.getD i 0)).isNan = true)) ∧
    (∀ j, d.rule = 1 → decideChild d sc = some j → j < d.c ∧ (f32.decode (sc.getD j 0)).isNan = false ∧
      ∀ i, i < d.c → (f32.decode (sc.getD i 0)).compare (f32.decode (sc.getD j 0)) ≠ some .gt ∧
        (i < j → (f32.decode (sc.getD i 0)).isNan = false → (f32.decode (sc.getD j 0)).compare (f32.decode (sc.getD i 0)) = some .gt))) ∧
  (∀ v : Nat, v < 2 ^ 128 → bits v 127 88 = 0 → bits v 79 72 ≠ 2 → (WRow.ofRecord v).record = v)

namespace Sys2Proof.Claims

/-- R261, R263: what the Sorter writes for token `t`: with σ of the scores that it reads at base + t·tstr + x·estr, the winners' indices in 16 bits at
slot t of G[s+2]; their weights, σ over the sum of the winners' σ in expert order, or 1/k where that is 0, at slot t of G[s+3]; for SORTC, where some
winner was not predicted, the list entry t with a bit for each such slot at entry n of G[s+6]; and the winners are counted. -/
def TokenRows : Prop :=
  ∀ core r (p : SortPar) fmt (w v : SortSt) t, sortToken core r p fmt w t = .ok v → let cur := fun (i : Nat) => (r.regs.getD i {}).nat
    ∃ s1 raw s2 predicted, sortReads core r (scoreBytes p.type) ((List.range p.e).map (fun x => p.base + t * p.tstr + x * p.estr)) w.s = (s1, raw, none) ∧
      (p.listed = true → sortReads core r 2 ((List.range p.k).map (fun j => cur 5 + 2 * (p.k * t + j))) s1 = (s2, predicted, none)) ∧
      (p.listed = false → s2 = s1) ∧
      let sg := raw.map (fun x => (sigmaOf fmt x).1)
      let win := winners sg p.k
      let sum := ((List.range p.e).filter (fun x => decide (x ∈ win))).foldl (fun a x => (elAdd (.ieee f32) 0 a (sg.getD x 0)).1) 0
      let weight := fun (x : Nat) => (weightOf (if p.bf then b16 else f32) p.k (sg.getD x 0) sum).1
      let mask := ((List.range p.k).map (fun j => if win.getD j 0 ∈ predicted then 0 else 2 ^ j)).sum
      let missed := p.listed = true ∧ mask ≠ 0
      ∃ s3 s4 s5, sortProbes core r ([(cur 2 + 2 * p.k * t, 2 * p.k), (cur 3 + p.ws * p.k * t, p.ws * p.k)] ++
          (if missed then [(cur 6 + 4 + 4 * w.n, 4)] else [])) s2 = .ok s3 ∧
        sortWrite core r (cur 2 + 2 * p.k * t) (2 * p.k) (ofLanes 16 win) s3 = .ok s4 ∧
        sortWrite core r (cur 3 + p.ws * p.k * t) (p.ws * p.k) (ofLanes (8 * p.ws) (win.map weight)) s4 = .ok s5 ∧
        (missed → sortWrite core r (cur 6 + 4 + 4 * w.n) 4 (t + mask * 2 ^ 24) s5 = .ok v.s ∧ v.n = w.n + 1) ∧
        (¬ missed → v.s = s5 ∧ v.n = w.n) ∧
        ∀ x, Map.get v.cnt x 0 = Map.get w.cnt x 0 + win.count x

/-- R263: after the last token the Sorter writes the histogram, each expert's count in 32 bits, and for SORTC the length of the list. -/
def TailRows : Prop :=
  ∀ core r (p : SortPar) (w : SortSt) t, sortTail core r p w = .ok t → let cur := fun (i : Nat) => (r.regs.getD i {}).nat
    ∃ s1 s2, sortProbes core r ([(cur 4, 4 * p.e)] ++ (if p.listed then [(cur 6, 4)] else [])) w.s = .ok s1 ∧
      sortWrite core r (cur 4) (4 * p.e) (ofLanes 32 ((List.range p.e).map (fun x => Map.get w.cnt x 0))) s1 = .ok s2 ∧
      (p.listed = true → sortWrite core r (cur 6) 4 w.n s2 = .ok t) ∧ (p.listed = false → t = s2)

/-- R263, R264: the tokens follow one another in rising order; one that stops leaves the state, the counts and the list as the tokens before it did. -/
def TokensInOrder : Prop :=
  ∀ core r (p : SortPar) fmt n t (w : SortSt), let run := sortTokens core r p fmt n t w
    (run.2 = none → ∃ f : Nat → SortSt, f 0 = w ∧ f n = run.1 ∧ ∀ i, i < n → sortToken core r p fmt (f i) (t + i) = .ok (f (i + 1))) ∧
    (∀ e u, run.2 = some (e, u) → ∃ (f : Nat → SortSt) (ev : Ev), f 0 = w ∧ t ≤ u ∧ u < t + n ∧ (∀ i, i < u - t → sortToken core r p fmt (f i) (t + i) = .ok (f (i + 1))) ∧
      sortToken core r p fmt (f (u - t)) u = .error (e, ev) ∧
      run.1.s = (f (u - t)).s ∧ run.1.cnt = (f (u - t)).cnt ∧ run.1.n = (f (u - t)).n)

/-- R263: a weight is 1/k where the winners' σ add up to 0, NaN where the sum is NaN, and else the quotient rounded once. -/
def Weights : Prop :=
  ∀ (t : Ieee) k sg sum, t = f32 ∨ t = b16 →
    (∀ n e, f32.decode sum = .fin n 0 e → ∀ m g x, f32.decode sg = .fin m g x → (weightOf t k sg sum).1 = (t.roundRatio 0 false 1 k false).1) ∧
    ((f32.decode sum).isNan = true → (weightOf t k sg sum).1 = t.nan) ∧
    (∀ n a e m b g, f32.decode sum = .fin n a e → a ≠ 0 → f32.decode sg = .fin m b g → b ≠ 0 →
      (weightOf t k sg sum).1 = (t.roundRatio 0 false (b * 2 ^ (g - e).toNat) (a * 2 ^ (e - g).toNat) false).1)

end Sys2Proof.Claims

/-- R259 to R265: SORT and SORTC refuse a bad layout with status 1, else check their regions and queue the request; the Sorter accepts it once what its
thread wrote before it has been performed; it writes the rows of each token in turn, then the histogram and the list's length; a run that every access
allows ends with status 0, one stopped by a translation fault with that late fault; the winners are the greatest, the lowest index among equals.
What the rules leave open is the model's choice here: assumptions 41, 71, 73, 83, 87. -/
def Obligations.Sorts : Prop := Sys2Proof.Claims.TokenRows ∧ Sys2Proof.Claims.TailRows ∧ Sys2Proof.Claims.TokensInOrder ∧ Sys2Proof.Claims.Weights ∧
  (∀ (f : Pre → Reg → Reg → Instr) (listed : Bool), (f = .sort ∧ listed = false) ∨ (f = .sortc ∧ listed = true) → ∀ q d r s, r.toNat % 8 = 0 →
    Commands q d (eight r) (if listed then eight r else (eight r).take 5 ++ [r + 7]) s → s.c.ring.length < 32 →
    let i := f q d r
    let so := (s.die (dieOf s.curCore)).sorter
    let layout := (List.range 4).map (fun j => Map.get so.layout (4 * ((s.t.reg (r + 1)).nat % 64) + j) 0#64)
    let p := sortPar layout (s.t.reg (r + 1)) listed
    (so.out = true → Traps i s .coproc (outFault 3 i)) ∧
    (so.out = false → sortRefused s layout p = true → Gives i s (ends s (dispatched q s i 4 d 2) d 7 1)) ∧
    (so.out = false → sortRefused s layout p = false → sortChecks s r p = .ok () → s.c.mq.length < 4 →
      Gives i s (queued (dispatched q s i 4 d 2) { matrixRequest s (if listed then 11 else 10) d.toNat (valsOf s (eight r)) with layout := layout })) ∧
    (∀ x, so.out = false → sortRefused s layout p = false → sortChecks s r p = .error x → exec i s = .next (stopped s x))) ∧
  (∀ (s : State) core r rest, core < 2048 → (s.core core).mq = r :: rest → let d := s.die (dieOf core)
    (r.kind = 10 ∨ r.kind = 11 → halted s r.bolt r.tid = false → d.sorter.queue.length < 32 → writesBefore s r.tid r.seq = false → ∃ t, exec (.sorterAccept core) s = .next t ∧ (t.core core).mq = rest ∧
      (t.die (dieOf core)).sorter.queue = d.sorter.queue ++ [(core, r)] ∧ t.threads = s.threads) ∧
    (32 ≤ d.sorter.queue.length ∨ r.kind < 10 ∨ writesBefore s r.tid r.seq = true → exec (.sorterAccept core) s = .next s)) ∧
  (∀ (s : State) die core r rest, die < 2 → (s.die die).sorter.queue = (core, r) :: rest →
    let p := sortPar r.layout (r.regs.getD 1 {}) (decide (r.kind = 11))
    let run := sortTokens core r p ((scoreFmt p.type).getD f32) p.t 0 { s := s }
    (∀ w s1, run = (w, none) → sortTail core r p w = .ok s1 → ∃ t, exec (.sorterRun die) s = .next t ∧ (t.die die).sorter.queue = rest ∧
      t.completions = s1.completions ++ [tokenOf r 7 0 p.t none] ∧ t.dram = s1.dram) ∧
    (∀ w c n, run = (w, some (.fault c, n)) → ∃ t, exec (.sorterRun die) s = .next t ∧ (t.die die).sorter.queue = rest ∧
      t.completions = w.s.completions ++ [tokenOf r 7 (if c = .localprot then 5 else 3) n (some c)]) ∧
    (∀ w c, run = (w, none) → sortTail core r p w = .error (.fault c) → ∃ t, exec (.sorterRun die) s = .next t ∧ (t.die die).sorter.queue = rest ∧
      t.completions = w.s.completions ++ [tokenOf r 7 (if c = .localprot then 5 else 3) p.t (some c)]) ∧
    (∀ w l, (∃ n, run = (w, some (.busy l, n))) ∨ (run = (w, none) ∧ sortTail core r p w = .error (.busy l)) → exec (.sorterRun die) s = .next (askFor s l))) ∧
  (∀ (sg used : List Nat), (∃ x, x < sg.length ∧ x ∉ used) → let b := bestExpert sg used
    b < sg.length ∧ b ∉ used ∧ ∀ x, x < sg.length → x ∉ used → ranksAbove (sg.getD x 0) (sg.getD b 0) = false ∧ (x < b → ranksAbove (sg.getD b 0) (sg.getD x 0) = true))

/-! ## Seams -/

/-- R308 to R319: SEAM and PANEL refuse bad arguments with 2 and members that do not fit with 1, else form the seam with copies of the head at one pc; SPOS
reads the position; SEAMEND dissolves it; a member in step executes the head's next instruction; a fault frays the seam, and the head takes SEAMFRAY with
the fray index, row and column; SRESUME restarts the stream, which frays again in the head where a logged PC can no longer be fetched.
What the rules leave open is the model's choice here: assumptions 36, 51, 77. -/
def Obligations.Seams : Prop :=
  (∀ (f : Pre → Reg → Reg → Instr) (panel : Bool), (f = .seam ∧ panel = false) ∨ (f = .panel ∧ panel = true) → ∀ q d r s, s.t.seamed = false → Executes q [r, d] [] s →
    let x := (s.t.reg r).nat
    let nc := bits x 5 0
    let nr := if panel then bits x 13 8 else 1
    let sk := bits x 19 16
    let bad := nc < 1 ∨ 32 < nc ∨ nr < 1 ∨ 32 < nr ∨ sk < 1 ∨ 8 < sk
    let room := slotOf s.cur = 0 ∧ xOf s.curCore + nc ≤ 32 ∧ yOf s.curCore + nr ≤ 32 ∧ ∀ p ∈ seamPlaces nr nc, memberFits s (seamCore s p) = true
    (bad → Gives (f q d r) s (writes q s d (Val.ofW 2))) ∧
    (¬ bad → ¬ room → Gives (f q d r) s (writes q s d (Val.ofW 1))) ∧
    (¬ bad → room → Runs q ([r, d] ++ copiedRegs s.t) allFlags s → ∃ t, exec (f q d r) s = .next t ∧ t.t.seamed = true ∧ t.t.pc = past q s ∧
      (∀ x, t.t.reg x = if x = d then {} else s.t.reg x) ∧ t.t.seam = some { head := s.cur, row := 0, col := 0, ncols := nc, nrows := nr, skew := sk } ∧
      ∀ p ∈ seamPlaces nr nc, let u := t.thread (seamCore s p * 4)
        u.occ = .resident ∧ u.seamed = true ∧ u.pc = past q s ∧ u.flags = s.t.flags ∧ u.mode = s.t.mode ∧ u.allot = s.t.allot ∧ u.binds = [] ∧
        u.seam = some { head := s.cur, row := p.1, col := p.2, ncols := nc, nrows := nr, skew := sk } ∧
        ∀ x, Map.find s.t.binds x.toNat = none → u.reg x = if x = d then {} else s.t.reg x)) ∧
  (∀ q d s, Executes q [d] [] s → Gives (.spos q d) s (writes q s d (Val.ofW (if s.t.seamed then s.t.seampos else 0)))) ∧
  (∀ q s, Executes q [] [] s → (s.t.seamed = false → Gives (.seamend q) s (afterT q s s.t)) ∧
    (s.t.seamed = true → follows s.t = false → followersOf s s.cur = [] → readsDone s s.cur = true →
      Gives (.seamend q) s (afterT q s { s.t with seamed := false, seampos := 0, seam := none, strm := none })) ∧
    (s.t.seamed = true → follows s.t = false → followersOf s s.cur ≠ [] ∨ readsDone s s.cur = false → Gives (.seamend q) s (setWait (afterT q s s.t) s.cur .seamEnd))) ∧
  (∀ q s, Executes { q with gen := false } [] [] s → s.t.seamed = true → follows s.t = true →
    (∀ a b c, s.forward = some (a, b, c, false) → Gives (.seamend q) s (afterT q s s.t)) ∧
    (∀ a b c, s.forward = some (a, b, c, true) → (∀ x ∈ s.t.cmds, x.2.2 = 0) → quiet s 4 → hasStoreFault s s.cur = false →
      ∃ t, exec (.seamend q) s = .next t ∧ t.t.occ = .empty ∧ t.t.regs = [])) ∧
  (∀ (s : State) tid, tid < 8192 → (s.thread tid).wait = .seamEnd → halted s (s.thread tid).bolt tid = false →
    (followersOf s tid = [] → readsDone s tid = true → ∃ t, exec (.seamendHeadComplete tid) s = .next t ∧ (t.thread tid).wait = .none ∧ (t.thread tid).seamed = false ∧ (t.thread tid).seam = none ∧
      (t.thread tid).regs = (s.thread tid).regs ∧ (t.thread tid).pc = (s.thread tid).pc) ∧
    (followersOf s tid ≠ [] ∨ readsDone s tid = false → exec (.seamendHeadComplete tid) s = .next s)) ∧
  (∀ (s : State) tid m i g c, tid < 8192 → let t := s.thread tid
    t.seam = some m → t.seamed = true → m.row + m.col ≠ 0 → m.stopped = false → t.occ = .resident → halted s t.bolt tid = false → (t.late = [] ∨ t.stage ≠ 0) →
    waitOver s tid t.wait = true → forwarded s m.head m.next = some (i, g, c) →
    (inStep s tid m = true → exec (.seamForward tid) s = .next { s with forward := some (tid, m.next, i, g) }) ∧
    (inStep s tid m = false → exec (.seamForward tid) s = .next s)) ∧
  (∀ (s : State) tid m st c tv tpc sub, let t := s.thread tid
    t.seam = some m → t.seamed = true → frayRuns t = false → (s.thread m.head).strm = some st → st.frayed = false → c ≠ .seamfray → t.occ ≠ .empty →
    let u := takeTrap s tid c tv tpc false false false sub
    (∃ x, (u.thread m.head).strm = some x ∧ x.frayed = true ∧ x.draining = true ∧ x.frayIndex = m.next ∧ x.frayTid = tid ∧ x.frayCause = c ∧ x.frayTval = tv) ∧
    (u.thread tid).seam = some { m with stopped := true } ∧ (u.thread tid).regs = t.regs ∧ u.dram = s.dram) ∧
  (∀ (s : State) tid m st k, tid < 8192 → let t := s.thread tid
    t.seam = some m → t.strm = some st → st.draining = true → m.head = tid → frayComplete s tid = true → halted s t.bolt tid = false → t.handler = false → t.tvec ≠ 0 →
    t.occ = .resident → (s.thread st.frayTid).seam = some k → ∃ u, exec (.seamfray tid) s = .next u ∧
      bits (u.thread tid).cause.toNat 7 0 = 0x10 ∧ (u.thread tid).pc = t.tvec ∧ (u.thread tid).handler = true ∧ (u.thread tid).mode = true ∧
      (u.thread tid).tpc = (if m.next < st.index then loggedPc st m.next else t.pc) ∧ (u.thread tid).strm = some { st with draining := false } ∧
      (u.thread tid).tval = BitVec.ofNat 64 (st.frayIndex % 2 ^ 32 * 2 ^ 32 + k.row * 2 ^ 16 + k.col * 2 ^ 8 + st.frayCause.code.toNat)) ∧
  (∀ q s, Executes q [] [] s →
    (inFrayHandler s.t = false → Traps (.sresume q) s .illegal (illTval q (baseParcel (.sresume q)))) ∧
    (inFrayHandler s.t = true → s.t.tpc.getLsbD 0 = true → Traps (.sresume q) s .illegal s.t.tpc) ∧
    (∀ m st, inFrayHandler s.t = true → s.t.tpc.getLsbD 0 = false → s.t.seam = some m → s.t.strm = some st → s.t.await = none → ∃ t, exec (.sresume q) s = .next t ∧
      t.t.handler = false ∧ t.t.pc = s.t.tpc ∧ t.t.mode = s.t.cause.getLsbD 8 ∧ t.t.regs = s.t.regs ∧
      ∃ x, t.t.strm = some x ∧ x.index = m.next ∧ (st.fwd = [] → x.frayed = false) ∧
        ((x.frayed = false ∧ x.draining = false) ∨ (x.frayed = true ∧ x.draining = true ∧ x.frayTid = s.cur))))

/-! ## Bolts -/

namespace Sys2Proof.Claims

/-- A bolt that can be resized or lent from: live, and no resize of it under way (R349). -/
def Settled (b : Bolt) : Prop := b.live = true ∧ b.departing = [] ∧ b.newSlices = none ∧ b.oldSlices = [] ∧ b.sweeping = []

/-- The threads of a bolt that a press saves. -/
def allOf (s : State) (b : Nat) : List Nat := threadsOf s b (fun _ => true)

/-- The threads of a block that a press saves. -/
def blockOf (s : State) (b w : Nat) : List Nat := threadsOf s b (fun t => decide (t.block = blockKey b w))

/-- A resident thread saved by a press: its registers stay, and what it waits for, unless it is a seam member whose load is saved unissued (R320). -/
def saved (a t : Thread) : Prop := t.occ = .pressed ∧ t.regs = a.regs ∧ (a.seamed = false → t.pc = a.pc ∧ t.wait = a.wait)

/-- The request is of a line of a bolt. -/
def ofLine (b line : Nat) (r : Req) : Bool := decide (r.bolt = b) && decide (r.va / 64 = line)

/-- The boot words' queue of a side of a core. -/
def portWords (s : State) (core : Nat) (side : BitVec 2) : List W64 := Map.get (s.core core).ports side.toNat []

end Sys2Proof.Claims

/-- R346, R347, R341, R358: PRESS saves the contexts of the bolt's threads, or of one block's, and sweeps the bolt's packets out of the channels, but for
those that what is granted or accepted waits for; it writes no memory; where a save fails it leaves the bolt halted and reports SAVEFAULT with the slot;
BOLT_RESUME restores the contexts; TIMESHARE_SWITCH at the end of a slice presses one bolt, saves what stands on the shared clusters and gives them to the
next, whose slice is longer by the lost time not repaid yet, by its length at most.
What the rules leave open is the model's choice here: assumptions 42, 50. -/
def Obligations.PressAndResume : Prop :=
  (∀ (s : State) b, 0 < b → Rising s.threads →
    ((s.bolt b).live = true → ∃ t, exec (.press b ⟨none, none⟩) s = .next t ∧ (t.bolt b).pressed = true ∧ t.dram = s.dram ∧
      (∀ k, k < 8192 → (s.thread k).bolt = b → (s.thread k).occ = .resident → saved (s.thread k) (t.thread k)) ∧
      (∀ k, (s.thread k).bolt ≠ b → t.thread k = s.thread k) ∧
      (∀ h, ∀ r ∈ (t.slice h).chan ++ (t.slice h).chan0, r.bolt ≠ b ∨ r.peer = true ∨ r.goesOn s = true) ∧ ∀ h, ∀ r ∈ (s.slice h).chan, r.bolt ≠ b → r ∈ (t.slice h).chan) ∧
    ((s.bolt b).live = false → exec (.press b ⟨none, none⟩) s = .next s) ∧
    (∀ tid, (s.bolt b).live = true → tid ∈ allOf s b → ∃ t, exec (.press b ⟨none, some tid⟩) s = .next t ∧
      t.reports = s.reports ++ [{ cause := .savefault, tid := tid }] ∧ (t.bolt b).pressed = true ∧ t.threads = s.threads ∧ t.slices = s.slices ∧ t.dram = s.dram) ∧
    (∀ w blk, Map.find s.blocks (blockKey b w) = some blk → (s.bolt b).pressed = false →
      (∃ t, exec (.press b ⟨some w, none⟩) s = .next t ∧ w ∈ (t.bolt b).pressedBlocks ∧ (t.bolt b).pressed = false ∧ t.dram = s.dram ∧
        (∀ k, k < 8192 → (s.thread k).bolt = b → (s.thread k).block = blockKey b w → (s.thread k).occ = .resident → saved (s.thread k) (t.thread k)) ∧
        ∀ k, (s.thread k).bolt ≠ b ∨ (s.thread k).block ≠ blockKey b w → t.thread k = s.thread k) ∧
      ∀ tid ∈ blockOf s b w, ∃ t, exec (.press b ⟨some w, some tid⟩) s = .next t ∧
        t.reports = s.reports ++ [{ cause := .savefault, tid := tid }] ∧ (t.bolt b).pressed = true ∧ t.threads = s.threads ∧ t.dram = s.dram) ∧
    ((s.bolt b).live = true → (s.bolt b).stopped = false → (∀ p ∈ s.parked, p.bolt ≠ b) → ∃ t, exec (.boltResume b) s = .next t ∧
      (t.bolt b).pressed = false ∧ (∀ w, w ∈ (t.bolt b).pressedBlocks ↔ w ∈ (s.bolt b).pressedBlocks ∧ reserved s (blockKey b w) = true) ∧
      (t.bolt b).trctl.getLsbD 61 = false ∧ (t.bolt b).trctl.getLsbD 60 = false ∧ t.dram = s.dram ∧
      (∀ k, k < 8192 → (s.thread k).bolt = b → (s.thread k).occ = .pressed → reserved s (s.thread k).block = false → (t.thread k).occ = .resident) ∧
      (∀ k, (t.thread k).regs = (s.thread k).regs) ∧
      (s.pwords = [] → (∀ p ∈ s.threads, p.2.seam = none) →
        (∀ k, (t.thread k).pc = (s.thread k).pc) ∧ ∀ k, (s.thread k).bolt ≠ b → t.thread k = s.thread k)) ∧
    ((s.bolt b).live = false ∨ (s.bolt b).stopped = true ∨ (∃ p ∈ s.parked, p.bolt = b) → exec (.boltResume b) s = .next s)) ∧
  (∀ (s : State) a b cls n, 0 < a → 0 < b → a ≠ b → Rising s.threads → Settled (s.bolt a) → Settled (s.bolt b) → distinct cls = true → (∀ c ∈ cls, c ∈ (s.bolt a).clusters) →
    (s.gtime < (s.bolt a).sliceEnd → exec (.timeshareSwitch a b ⟨cls, n⟩) s = .next s) ∧
    ((s.bolt a).sliceEnd ≤ s.gtime → (∀ c ∈ cls, movable s c = true) →
    (∀ p ∈ s.threads, clusterOf (coreOf p.1) ∈ cls → p.2.occ = .resident → p.2.bolt = a ∧ p.1 < 8192) → ∃ t, exec (.timeshareSwitch a b ⟨cls, n⟩) s = .next t ∧ (t.bolt a).pressed = true ∧
      (t.bolt b).sliceEnd = s.gtime + n + min n (lostTicks (s.bolt b) - (s.bolt b).repaid) ∧
      (t.bolt a).clusters = (s.bolt a).clusters.filter (fun c => !cls.contains c) ∧ (t.bolt b).clusters = (s.bolt b).clusters ++ cls ∧
      (∀ c ∈ cls, (t.cluster c).owner = .bolt b ∧ ∃ p ∈ t.parked, p.bolt = a ∧ p.cluster = c ∧
        ∀ k, clusterOf (coreOf k) = c → (Map.get p.threads k {}).regs = (s.thread k).regs)))

/-- R349, R350, R345, R68, R353, R372: LET_OUT gives free clusters and slices to a bolt, its Damask template loaded and its PERMT bits set; TAKE_IN starts
their departure, and what holds nothing enters quarantine; SCRUB clears what is in quarantine; BOLT_CREATE makes a bolt of free units and starts its verified
system image on free system cores (R371), an image that does not verify is only reported (R373); BOLT_END ends all of it; SWATCH_ADD adds a swatch.
What the rules leave open is the model's choice here: assumptions 43, 78. -/
def Obligations.BoltUnits : Prop :=
  (∀ (s : State) b cls hs, 0 < b → Settled (s.bolt b) → distinct cls = true → distinct hs = true → (∀ c ∈ cls, c < 256 ∧ (s.cluster c).owner = .free) →
    (∀ h ∈ hs, h < 128 ∧ (s.slice h).owner = .free) → ∃ t, exec (.letOut b cls hs) s = .next t ∧
      (t.bolt b).clusters = (s.bolt b).clusters ++ cls ∧ (t.bolt b).slices = (s.bolt b).slices ++ hs ∧
      (∀ c ∈ cls, (t.cluster c).owner = .bolt b ∧ (∀ k ∈ liveCores s c, (t.core k).live = true) ∧
        ∀ m n, (s.bolt b).template = some (m, n) → (t.cluster c).damask = m ∧ (t.cluster c).dstate = 2) ∧
      (∀ c ∈ (s.bolt b).clusters ++ cls, ∀ x ∈ cls, x ∈ (t.cluster c).permt) ∧
      (∀ h ∈ hs, (t.slice h).owner = .bolt b ∧ (t.slice h).swmask = (s.bolt b).swatches) ∧ t.dram = s.dram ∧ t.threads = s.threads) ∧
  (∀ (s : State) b cls hs, 0 < b → Settled (s.bolt b) → (∀ c ∈ cls, c ∈ (s.bolt b).clusters) → (∀ h ∈ hs, h ∈ (s.bolt b).slices) →
    (∃ c ∈ (s.bolt b).clusters, c ∉ cls) → (∃ h ∈ (s.bolt b).slices, h ∉ hs) → (∀ p ∈ s.threads, roomIn cls p.2 = false) →
    ((∃ c ∈ cls, clusterHolds s c = true) → exec (.takeIn b cls hs) s =
      .next (s.setBolt b { s.bolt b with departing := cls, newSlices := some ((s.bolt b).slices.filter (fun h => !hs.contains h)) })) ∧
    (hs = [] → (∀ c ∈ cls, clusterHolds s c = false ∧ clusterQuiet s c = true) → ∃ t, exec (.takeIn b cls hs) s = .next t ∧
      (t.bolt b).clusters = (s.bolt b).clusters.filter (fun c => !cls.contains c) ∧ (t.bolt b).departing = [] ∧ t.dram = s.dram ∧
      (∀ c ∈ cls, (t.cluster c).owner = .quarantine) ∧ ∀ c, ∀ x ∈ cls, x ∉ (t.cluster c).permt)) ∧
  (∀ (s : State) c, c < 256 →
    ((s.cluster c).owner = .quarantine → ∃ t, exec (.scrub (some c) none) s = .next t ∧ t.dram = s.dram ∧
      t.cluster c = { throttle := (s.cluster c).throttle, copyOut := (s.cluster c).copyOut, matrixOut := (s.cluster c).matrixOut } ∧
      ∀ k, k < 8192 → clusterOf (coreOf k) = c → t.thread k = {}) ∧
    ((s.cluster c).owner ≠ .quarantine → exec (.scrub (some c) none) s = .next s)) ∧
  (∀ (s : State) h, h < 128 → ((s.slice h).owner = .quarantine → exec (.scrub none (some h)) s = .next (s.setSlice h (keepSystem (s.slice h)))) ∧
    ((s.slice h).owner ≠ .quarantine → exec (.scrub none (some h)) s = .next s)) ∧
  (∀ (s : State) b image cls hs sws root sys entry, 0 < b →
    (s.boot = .scrubbed ∨ s.boot = .running → (s.bolt b).live = false → distinct cls = true → distinct hs = true → distinct sws = true → cls ≠ [] → hs ≠ [] →
      (∀ c ∈ cls, c < 256 ∧ (s.cluster c).owner = .free) → (∀ h ∈ hs, h < 128 ∧ (s.slice h).owner = .free) →
      (∀ w ∈ sws, w < Config.swatches ∧ ∀ p ∈ s.bolts, p.2.live = true → w ∉ p.2.swatches) →
      sys ≠ [] → distinct sys = true → (∀ c ∈ sys, c ∈ systemCores ∧ Map.find s.sysBolt c = none) →
      (Config.verifies image = true → ∃ t, exec (.boltCreate b ⟨image, sys, entry⟩ cls hs sws root) s = .next t ∧ t.boot = .running ∧ (t.bolt b).live = true ∧ (t.bolt b).clusters = cls ∧ (t.bolt b).slices = hs ∧
        (t.bolt b).root = root ∧ (∀ w, w ∈ (t.bolt b).swatches ↔ w ∈ sws) ∧ (∀ c ∈ cls, (t.cluster c).owner = .bolt b ∧ ∀ x ∈ cls, x ∈ (t.cluster c).permt) ∧
        (∀ h ∈ hs, (t.slice h).owner = .bolt b) ∧ t.dram = s.dram ∧
        ∀ c ∈ sys, Map.find t.sysBolt c = some b ∧ t.thread (c * 4 + 1) = systemThread b { bits := entry, tag := true }) ∧
      (Config.verifies image = false → exec (.boltCreate b ⟨image, sys, entry⟩ cls hs sws root) s =
        .next { s with bootReports := s.bootReports ++ [(.system, Config.digest image)] })) ∧
    (s.boot ≠ .scrubbed ∧ s.boot ≠ .running → exec (.boltCreate b ⟨image, sys, entry⟩ cls hs sws root) s = .next s)) ∧
  (∀ (s : State) b, 0 < b → Rising s.bolts → (s.bolt b).live = true → ∃ t, exec (.boltEnd b) s = .next t ∧ (t.bolt b).live = false ∧ t.dram = s.dram ∧
    (∀ k, (t.thread k).occ ≠ .empty → (t.thread k).bolt ≠ b) ∧ (∀ c ∈ (s.bolt b).clusters, (t.cluster c).owner = .quarantine) ∧
    (∀ h ∈ (s.bolt b).slices, (t.slice h).owner = .quarantine) ∧ (∀ p ∈ t.claims, p.2.2 ≠ b) ∧ ∀ c, ∀ x ∈ (s.bolt b).clusters, x ∉ (t.cluster c).permt) ∧
  (∀ (s : State) b w, 0 < b →
    ((s.bolt b).live = true → w < Config.swatches → (∀ p ∈ s.bolts, p.2.live = true → w ∉ p.2.swatches) → ∃ t, exec (.swatchAdd b w) s = .next t ∧
      (∀ x, x ∈ (t.bolt b).swatches ↔ x = w ∨ x ∈ (s.bolt b).swatches) ∧ (∀ h ∈ (s.bolt b).slices, w ∈ (t.slice h).swmask) ∧ t.dram = s.dram ∧ t.threads = s.threads) ∧
    ((s.bolt b).live = false ∨ Config.swatches ≤ w ∨ (∃ p ∈ s.bolts, p.2.live = true ∧ w ∈ p.2.swatches) → exec (.swatchAdd b w) s = .next s))

/-- R349, R351, R352: BLOCK_MIGRATE moves what a departing cluster holds to an empty owned cluster; in a rehash a shadow home fetches a line a held request
needs, becomes its home of record when it arrives with data, tags, class and pin, all that was sent to the old home for it performed; the sweeper sends what
is left until an old home holds nothing.
What the rules leave open is the model's choice here: assumption 43. -/
def Obligations.Rehash : Prop :=
  (∀ (s : State) b w blk d, 0 < b → d < 256 → Rising s.threads → Rising s.clusters → Map.find s.blocks (blockKey b w) = some blk → (s.bolt b).pressed = true →
    let a := blk.cluster
    a < 256 → d ≠ a → seamClosure s 256 [a] = [a] → a ∈ (s.bolt b).departing → a ∈ (s.bolt b).clusters → d ∈ (s.bolt b).clusters → d ∉ (s.bolt b).departing →
    clusterHolds s d = false → clusterQuiet s d = true → (liveCores s a).length ≤ (liveCores s d).length → (s.cluster a).arrayBusy = none → (s.cluster a).lq = [] →
    (s.cluster d).copyOut = false ∨ (s.cluster a).copyOut = true → (s.cluster d).matrixOut = false ∨ (s.cluster a).matrixOut = true →
    (∀ p ∈ s.dies, ∀ x ∈ p.2.sorter.queue, clusterOf x.1 ≠ a) →
    ∃ t, exec (.blockMigrate b w d) s = .next t ∧ Map.find t.blocks (blockKey b w) = some { blk with cluster := d } ∧ (t.cluster d).mem = (s.cluster a).mem ∧
      (t.cluster d).damask = (s.cluster a).damask ∧ (∀ (i x y j : Nat), (liveCores s a)[i]? = some x → (liveCores s d)[i]? = some y → j < 4 →
        (t.thread (y * 4 + j)).regs = (s.thread (x * 4 + j)).regs ∧ (t.thread (y * 4 + j)).pc = (s.thread (x * 4 + j)).pc) ∧ t.dram = s.dram) ∧
  (∀ (s : State) h line, h < 128 → let n := s.slice h
    (n.heldReqs.any (fun r => decide (r.va / 64 = line)) = true → line ∉ n.fetching → exec (.shadowFetch h line) s = .next (s.setSlice h { n with fetching := line :: n.fetching })) ∧
    (n.heldReqs.any (fun r => decide (r.va / 64 = line)) = false ∨ line ∈ n.fetching → exec (.shadowFetch h line) s = .next s)) ∧
  (∀ (s : State) h line b, h < 128 → (s.slice h).owner = .bolt b → line ∈ (s.slice h).fetching → (s.bolt b).sweeping ≠ [] → (s.bolt b).oldSlices ≠ [] →
    let old := homeIn (s.bolt b).oldSlices (line * 64)
    let so := s.slice old
    let before := fun (r : Req) => decide (lineOf s r = (b, line)) && decide (r.dest = old)
    old ≠ h → (onTheWay s before = true → exec (.shadowLineArrival h line) s = .next s) ∧
    (onTheWay s before = false →
      (findWay so b line = none → ∃ t, exec (.shadowLineArrival h line) s = .next t ∧ line ∈ (t.slice h).record ∧ line ∉ (t.slice h).fetching ∧
        (∀ r ∈ (t.slice h).heldReqs, ofLine b line r = false) ∧
        (t.slice h).chan = (s.slice h).heldReqs.filter (fun r => ofLine b line r && decide (r.cls ≠ 0)) ++ (s.slice h).chan ∧
        (t.slice h).chan0 = (s.slice h).heldReqs.filter (fun r => ofLine b line r && decide (r.cls = 0)) ++ (s.slice h).chan0) ∧
      (∀ k l v, findWay so b line = some (k, l) → findWay (s.slice h) b line = none → victim (s.slice h) (line % 1024) = some v →
        ∃ t, exec (.shadowLineArrival h line) s = .next t ∧ line ∈ (t.slice h).record ∧ (t.slice old).ways = Map.erase so.ways k ∧
          findWay (t.slice h) b line = some (v, { l with used := (s.slice h).clock + 1 })))) ∧
  (∀ (s : State) h line b, h < 128 → (s.slice h).owner = .bolt b → h ∈ (s.bolt b).sweeping → (s.bolt b).oldSlices ≠ [] →
    let new := homeSlice s b (line * 64)
    let here := fun (r : Req) => decide (r.bolt = b) && decide (r.dest = h) && decide (regionOf r.va = .ordinary) && decide (homeSlice s b r.va ≠ h)
    let before := fun (r : Req) => decide (lineOf s r = (b, line)) && decide (r.dest = h)
    (line ∈ toSweep s b h → onTheWay s before = true → exec (.sweeper h line) s = .next s) ∧
    (line ∈ toSweep s b h → onTheWay s before = false → (∀ k l, findWay (s.slice h) b line = some (k, l) → l.pin = none ∨ h ∈ (s.bolt b).slices) → ∀ u, moveLine s b line h new = some u →
      exec (.sweeper h line) s = .next u) ∧
    (∀ k l p c, line ∈ toSweep s b h → onTheWay s before = false → findWay (s.slice h) b line = some (k, l) → l.pin = some p → h ∉ (s.bolt b).slices →
      p.recalled = false → corePressed s l.bolt p.core = false → closePhase (s.core p.core) [(l.bolt, line)] = some c → exec (.sweeper h line) s =
        .next ((s.setSlice h { s.slice h with ways := Map.set (s.slice h).ways k { l with pin := some { p with recalled := true } } }).setCore p.core c)) ∧
    (toSweep s b h = [] → (onTheWay s here = true → exec (.sweeper h line) s = .next s) ∧
      (onTheWay s here = false → ∃ t, exec (.sweeper h line) s = .next t ∧ (t.bolt b).sweeping = (s.bolt b).sweeping.filter (· ≠ h) ∧
        ∀ n ∈ (s.bolt b).slices, ∀ r ∈ (t.slice n).heldReqs, r.bolt ≠ b ∨ homeIn (s.bolt b).oldSlices r.va ≠ h)))

/-! ## System software, debug, errors, grants -/

namespace Sys2Proof.Claims

/-- The reply of an HCALL given: the wait is over, the code is in g4, the other registers it returns are written (R337). -/
def replied (s t : State) (tid : Nat) (code : W64) (rs : List (Nat × W64)) : Prop :=
  (t.thread tid).wait = .none ∧ (t.thread tid).pc = (s.thread tid).pc ∧ (∀ j, j ≠ tid → t.thread j = s.thread j) ∧
  ∀ x, (t.thread tid).reg x = (rs.foldl (fun (u : Thread) r => u.setReg (BitVec.ofNat 6 r.1) (Val.ofW r.2)) ((s.thread tid).setReg 4 (Val.ofW code))).reg x

/-- A trigger word that is armed and matches (R362). -/
def hit (w : W64) (kind : BitVec 3) (value : BitVec 32) : Bool :=
  w.getLsbD 63 && decide (bits w.toNat 60 58 = kind.toNat) && decide (kind.toNat ≤ 3) && (decide (kind = 3) || decide (bits w.toNat 31 0 = value.toNat))

/-- A MACHINECHECK: the bolt is pressed and does not resume, Rolnis is told (R343). -/
def halts (s t : State) (b : Nat) (tval : W64) : Prop :=
  (t.bolt b).pressed = true ∧ (t.bolt b).stopped = true ∧ t.dram = s.dram ∧ ∃ r, t.reports = s.reports ++ [r] ∧ r.cause = .machinecheck ∧ r.tval = tval

/-- A flit that comes intact and in order on a lane that nothing else waits on (R376). -/
def due (s : State) (l : Nat) (flit : BitVec 256) : Prop :=
  (s.lane l).retired = false ∧ crc16 flit = flitCrc flit ∧ flitSeq flit = (s.lane l).seq ∧ (s.lane l).held = [] ∧ (s.lane l).unheard = 0 ∧ (s.lane l).acts = []

/-- An armed trigger of a bolt matches and asks for an action. -/
def asks (b : Bolt) (kind : BitVec 3) (value : BitVec 32) (act : Nat) : Prop :=
  ∃ j, j < 4 ∧ hit (Map.get b.trig j 0) kind value = true ∧ bits (Map.get b.trig j 0).toNat 62 61 = act

end Sys2Proof.Claims

/-- R337, R348, R350, R374: the reply of an HCALL ends its wait with a code in g4: 1 for a function that Rolnis lacks, the image's answer below 0x200;
resize answers the counts, 2 for bad arguments; a swatch goes back when the bolt has it, and no way and no staging entry of its slices keeps a line of it;
the report and the template need SYS, and answer 2 where they may not be read or written; the bytes of the report are its head and the signature of it.
What the rules leave open is the model's choice here: assumptions 43, 46, 8. -/
def Obligations.HcallReplies : Prop :=
  ∀ (s : State) tid fn g4 regs, tid < 8192 → (s.thread tid).wait = .hcall fn → (s.thread tid).seam = none → let i := Instr.hcallReply tid g4 regs []
    let t0 := s.thread tid
    let b := s.bolt t0.bolt
    let counts : List (Nat × W64) := [(5, BitVec.ofNat 64 b.clusters.length), (6, BitVec.ofNat 64 b.slices.length)]
    let c := (t0.reg 5).nat
    let h := (t0.reg 6).nat
    let d := (t0.reg 7).nat
    let bad := c < 1 ∨ 256 < c ∨ h < 1 ∨ 128 < h ∨ d < 10000 ∨ 2 ^ 32 - 1 < d
    let free := ((List.range 256).filter (fun k => decide ((s.cluster k).owner = .free))).length
    let freeH := ((List.range 128).filter (fun k => decide ((s.slice k).owner = .free))).length
    let empty := (b.clusters.filter (fun k => !clusterHolds s k)).length
    let can := fun (v : Val) (p : Nat) (m : Nat) => bitAt (capPerm v) p && (boundFault v v.nat m).isNone && !capDam v
    let cl := clusterOf (coreOf tid)
    (fn.toNat < 0x200 → ∃ t, exec i s = .next t ∧ replied s t tid g4 regs ∧ t.dram = s.dram) ∧
    (0x204 ≤ fn.toNat → ∃ t, exec i s = .next t ∧ replied s t tid 1 [] ∧ t.dram = s.dram) ∧
    (fn = 0x200 → bad → ∃ t, exec i s = .next t ∧ replied s t tid 2 counts ∧ t.dram = s.dram) ∧
    (fn = 0x200 → ¬ bad → g4 = 0 → b.clusters.length = c → b.slices.length = h → resizing b = false → ∃ t, exec i s = .next t ∧ replied s t tid 0 counts ∧ t.dram = s.dram) ∧
    (fn = 0x200 → ¬ bad → g4 = 0 → (b.clusters.length ≠ c ∨ b.slices.length ≠ h ∨ resizing b = true) → exec i s = .next s) ∧
    (fn = 0x200 → ¬ bad → g4 = 4 → resizing b = false →
      (b.clusters.length + free < c ∨ b.slices.length + freeH < h ∨ empty + c < b.clusters.length → ∃ t, exec i s = .next t ∧ replied s t tid 4 counts ∧ t.clusters = s.clusters ∧
        (t.bolt t0.bolt).clusters = b.clusters ∧ (t.bolt t0.bolt).slices = b.slices) ∧
      (c ≤ b.clusters.length + free → h ≤ b.slices.length + freeH → b.clusters.length ≤ empty + c → exec i s = .next s)) ∧
    (fn = 0x201 → c ∉ b.swatches → ∃ t, exec i s = .next t ∧ replied s t tid 2 []) ∧
    (fn = 0x201 → c ∈ b.swatches → ∃ t, exec i s = .next t ∧ replied s t tid 0 [] ∧ c ∉ (t.bolt t0.bolt).swatches ∧
      (∀ x ∈ b.slices, c ∉ (t.slice x).swmask ∧ (∀ p ∈ (t.slice x).ways, p.2.pa / 2 ^ 30 ≠ c) ∧ ∀ e ∈ (t.slice x).staging, e.pa / 2 ^ 30 ≠ c) ∧
      ∀ p ∈ t.claims, p.2.2 = t0.bolt → claimSwatch p.1 ≠ c) ∧
    (fn = 0x202 → hasSys (t0.reg 5) = false ∨ hasSys (t0.reg 6) = false → ∃ t, exec i s = .next t ∧ replied s t tid 3 [] ∧ t.dram = s.dram) ∧
    (fn = 0x202 → hasSys (t0.reg 5) = true → hasSys (t0.reg 6) = true →
      (can (t0.reg 5) permW 4987 = false → ∃ t, exec i s = .next t ∧ replied s t tid 2 [] ∧ t.dram = s.dram) ∧
      (can (t0.reg 5) permW 4987 = true → let nonceOf := readUnder s tid (t0.reg 6) 64
        (∀ a, nonceOf = .error a → exec i s = .next (askFor s a)) ∧
        (∀ s1, nonceOf = .ok (s1, none) → ∃ t, exec i s = .next t ∧ replied s t tid 2 [] ∧ t.dram = s.dram) ∧
        ∀ s1 nonce, nonceOf = .ok (s1, some nonce) → let head := reportHead s t0 nonce; let bs := head ++ (List.range 4627).map (Config.signature head)
          let put := pull s1 (hcallKey tid) 0 (systemWho s tid) tid c 4987 (some bs) false
          (capLoc (t0.reg 5) = false → (∀ a, put = .error a → exec i s = .next (askFor s a)) ∧
            ∀ s2 p, put = .ok (s2, p) → ∃ t, exec i s = .next t ∧ replied s t tid (if p.fault.isSome then 2 else 0) [] ∧ t.dram = s.dram) ∧
          (capLoc (t0.reg 5) = true → let win := windowOf s tid
            (win.2.1 < c + 4987 → ∃ t, exec i s = .next t ∧ replied s t tid 2 [] ∧ t.dram = s.dram ∧ t.clusters = s.clusters) ∧
            (c + 4987 ≤ win.2.1 → Memory.wf (s.cluster cl).mem.cells = true → ∃ t, exec i s = .next t ∧ replied s t tid 0 [] ∧ t.dram = s.dram ∧
              ∀ a, Memory.read (t.cluster cl).mem.cells a =
                if win.1 + c ≤ a ∧ a < win.1 + c + 4987 then bs.getD (a - (win.1 + c)) 0 else Memory.read (s.cluster cl).mem.cells a)))) ∧
    (fn = 0x203 → hasSys (t0.reg 5) = false → ∃ t, exec i s = .next t ∧ replied s t tid 3 []) ∧
    (fn = 0x203 → hasSys (t0.reg 5) = true → Config.damaskBytes < h ∨ capLoc (t0.reg 5) = true ∨ can (t0.reg 5) permR h = false →
      ∃ t, exec i s = .next t ∧ replied s t tid 2 []) ∧
    (∀ r, fn = 0x203 → hasSys (t0.reg 5) = true → h ≤ Config.damaskBytes → capLoc (t0.reg 5) = false → readUnder s tid (t0.reg 5) h = r →
      (∀ a, r = .error a → exec i s = .next (askFor s a)) ∧ (∀ s1, r = .ok (s1, none) → ∃ t, exec i s = .next t ∧ replied s t tid 2 []) ∧
      ∀ s1 bs, r = .ok (s1, some bs) → ∃ t, exec i s = .next t ∧ replied s t tid 0 [] ∧ (t.bolt t0.bolt).template = some (Memory.writeN [] 0 bs, h))

/-- R362, R364, R359, R358, R130, R342, R343, R360: armed triggers that match act together, freeze before stop before start; a debug stop, a watchdog that
has counted its limit and an error beyond repair press the bolts that the unit is of, a slice's also those whose old list names it, and an error beyond
repair stops them for good; a corrected error is only counted, a packet whose CRC fails is sent again, and stops its bolt the third time; a line of DRAM
beyond repair is not installed; a region's clock is no faster than the power limit leaves it.
What the rules leave open is the model's choice here: that a MACHINECHECK also presses the bolt (assumption 42), assumptions 44, 45, 50, 95. -/
def Obligations.DebugAndErrors : Prop :=
  (∀ (s : State) b kind value, 0 < b → (s.bolt b).live = true → let w := (s.bolt b).trctl
    ((∃ a, asks (s.bolt b) kind value a) → ∃ t, exec (.triggerMatch b kind value) s = .next t ∧ t.dram = s.dram ∧ t.threads = s.threads ∧
      ((t.bolt b).trctl.getLsbD 62 = true ↔ w.getLsbD 62 = true ∨ asks (s.bolt b) kind value 2) ∧
      ((t.bolt b).trctl.getLsbD 61 = true ↔ w.getLsbD 61 = true ∨ asks (s.bolt b) kind value 3) ∧
      ((t.bolt b).trctl.getLsbD 63 = true ↔ (w.getLsbD 63 = true ∨ asks (s.bolt b) kind value 0) ∧ (t.bolt b).trctl.getLsbD 62 = false ∧ ¬ asks (s.bolt b) kind value 1)) ∧
    ((¬ ∃ a, asks (s.bolt b) kind value a) → exec (.triggerMatch b kind value) s = .next s)) ∧
  (∀ (s : State) b, 0 < b → (s.bolt b).live = true → Rising s.threads →
    ((s.bolt b).stopDue = true → (s.bolt b).trctl.getLsbD 61 = true → (s.bolt b).pressed = false → ∃ t, exec (.debugStop b) s = .next t ∧ (t.bolt b).pressed = true ∧
      (t.bolt b).stopDue = false ∧ (t.bolt b).trctl.getLsbD 60 = true ∧ t.dram = s.dram ∧ ∀ k, (t.thread k).regs = (s.thread k).regs) ∧
    ((s.bolt b).stopDue = false ∨ (s.bolt b).trctl.getLsbD 61 = false → exec (.debugStop b) s = .next s) ∧
    ((s.bolt b).wdog.getLsbD 63 = false ∨ (s.bolt b).wfired = true → exec (.watchdog b) s = .next s) ∧
    ((s.bolt b).wdog.getLsbD 63 = true → (s.bolt b).wfired = false →
      (bits (s.bolt b).wdog.toNat 31 0 * 102400 ≤ (s.bolt b).wcount → ∃ t, exec (.watchdog b) s = .next t ∧ (t.bolt b).wdog.getLsbD 62 = true ∧
        (t.bolt b).pressed = true ∧ t.reports = s.reports ++ [{ cause := .watchdog, tval := BitVec.ofNat 64 b }] ∧ t.dram = s.dram) ∧
      ((s.bolt b).wcount < bits (s.bolt b).wdog.toNat 31 0 * 102400 → exec (.watchdog b) s = .next s))) ∧
  (∀ (s : State) c k, c < 256 → 8 ≤ k → k ≤ 16 → exec (.throttleChange c k) s = .next (s.setCluster c { s.cluster c with throttle := min k (powerCap s c) })) ∧
  (∀ (s : State) c a, c < 256 → a < Config.localBytes → let e := EccError.cluster c
    (∃ t, exec (.localEccError e a false) s = .next t ∧ t = { s with cores := t.cores } ∧
      ∀ k, t.core k = if k ∈ liveCores s c then (s.core k).count 10 0 1 else s.core k) ∧
    (∀ b, (s.cluster c).owner = .bolt b → (s.bolt b).live = true → ∃ t, exec (.localEccError e a true) s = .next t ∧
      halts s t b (BitVec.ofNat 64 a)) ∧
    ((∀ b, (s.cluster c).owner ≠ .bolt b) → exec (.localEccError e a true) s = .next { s with reports := s.reports ++ [{ cause := .machinecheck, tval := BitVec.ofNat 64 a }] })) ∧
  (∀ (s : State) tid, tid < 8192 → ∀ e ∈ [EccError.register, EccError.restored], let b := (s.thread tid).bolt
    exec (.localEccError e tid false) s = .next s ∧
    ((s.bolt b).live = true → ∃ t, exec (.localEccError e tid true) s = .next t ∧ halts s t b (BitVec.ofNat 64 tid)) ∧
    ((s.bolt b).live = false → exec (.localEccError e tid true) s =
      .next { s with reports := s.reports ++ [{ cause := .machinecheck, tid := tid, tval := BitVec.ofNat 64 tid }] })) ∧
  (∀ (s : State) n fatal, let e := EccError.packet
    (packetBolt s n = none → exec (.localEccError e n fatal) s = .next s) ∧
    ∀ b, packetBolt s n = some b → let k := Map.get s.crcFails n 0 + 1; let s1 := { s with crcFails := Map.set s.crcFails n k }
      (k ≠ 3 → exec (.localEccError e n fatal) s = .next s1) ∧
      (k = 3 → (s.bolt b).live = true → ∃ t, exec (.localEccError e n fatal) s = .next t ∧ halts s1 t b (BitVec.ofNat 64 n)) ∧
      (k = 3 → (s.bolt b).live = false → exec (.localEccError e n fatal) s =
        .next { s1 with reports := s.reports ++ [{ cause := .machinecheck, tval := BitVec.ofNat 64 n }] })) ∧
  (∀ (s : State) n, (∀ y ∈ s.replies, ∀ z ∈ s.replies, y.no = z.no → y = z) → ∀ y ∈ s.replies, y.no = n →
    packetBolt s n = some (match y.agent with | some a => a.bolt | none => (s.thread y.tid).bolt)) ∧
  (∀ (s : State) h, h < 128 → let every := fun (t : State) => t.dram = s.dram ∧
      ∀ b, (s.bolt b).live = true → h ∈ (s.bolt b).slices ++ (s.bolt b).oldSlices → (t.bolt b).pressed = true ∧ (t.bolt b).stopped = true
    (∀ set, set < 1024 → ∃ t, exec (.sliceTagParityError h set) s = .next t ∧ every t ∧
      (t.slice h).ways = (s.slice h).ways.filter (fun p => decide (p.1 / 16 ≠ set))) ∧
    ∀ line, exec (.localEccError (.dram h) line false) s = .next (s.setSlice h { s.slice h with corrected := (s.slice h).corrected + 1 }) ∧ ∃ t, exec (.localEccError (.dram h) line true) s = .next t ∧ every t ∧
      (∀ p ∈ (t.slice h).ways, p.2.line = line → p.2.dirty = true) ∧ ∀ e ∈ (t.slice h).staging, e.line = line → e.kind = 1)

/-- R82, R83, R105: a request of a peer module for a live grant enters the channel of its own home, as a load, a store, an ATOM or a RED; one of a recalled
or retired grant is refused and counted, one beyond the grant refused; a recall, its acknowledgement in time and its timeout change the grant, and the
kernel is told of a retired one; an importer unbinds the slot when nothing it accepted is under way; the kernels make and bind what a grant packet brings.
What the rules leave open is the model's choice here: assumptions 47, 65. -/
def Obligations.ExportedGrants : Prop :=
  (∀ (s : State) k g, Map.find s.grants k = some g → let told := { s with grants := Map.set s.grants k { g with state := 2 }, recallsTold := s.recallsTold ++ [(g.bolt, k)] }
    (∀ peer off n op v c, g.state ≠ 0 → exec (.fabricExportRequest ⟨peer, k⟩ off n op ⟨v, c⟩) s =
      .next (refusePeer { s with grants := Map.set s.grants k { g with refusals := g.refusals + 1 } } off)) ∧
    (∀ peer off n op v c, peer < 2 ^ 23 → g.state = 0 → 0 < n → off + n ≤ g.len → (g.base + off) % 64 + n ≤ 64 → regionOf (g.base + off) = .ordinary →
      regionOf (g.base + off + n - 1) = .ordinary → let h := homeSlice s g.bolt (g.base + off)
      ∃ t r, exec (.fabricExportRequest ⟨peer, k⟩ off n op ⟨v, c⟩) s = .next t ∧ (t.slice h).chan = (s.slice h).chan ++ [r] ∧ r.bolt = g.bolt ∧ r.va = g.base + off ∧ r.n = n ∧
        r.peer = true ∧ r.op = (if op = 0 then .load false else if op = 1 then .store v false else .atom (op % 16) (8 * n) (v.setWidth 128) c (decide (op < 32))) ∧
        t.dram = s.dram ∧ t.threads = s.threads ∧ ∀ j, j ≠ h → t.slice j = s.slice j) ∧
    (∀ peer off n op v c, g.state = 0 → n = 0 ∨ 64 < n ∨ g.len < off + n ∨ regionOf (g.base + off) ≠ .ordinary ∨ regionOf (g.base + off + n - 1) ≠ .ordinary →
      exec (.fabricExportRequest ⟨peer, k⟩ off n op ⟨v, c⟩) s = .next (refusePeer s off)) ∧
    (g.state = 0 → exec (.grantRecall k) s = .next { s with grants := Map.set s.grants k { g with state := 1, tick := s.gtime } }) ∧
    (g.state = 1 → s.gtime ≤ g.tick + 100000 → exec (.recallAck 0 k) s = .next { s with grants := Map.set s.grants k { g with state := 3 } }) ∧
    (g.state = 1 → g.tick + 100000 < s.gtime → exec (.recallAck 0 k) s = .next told) ∧
    (g.state = 1 → g.tick + 100000 ≤ s.gtime → exec (.recallTimeout k) s = .next told) ∧
    (g.state = 1 → s.gtime < g.tick + 100000 → exec (.recallTimeout k) s = .next s)) ∧
  (∀ (s : State) k off peer n op v c, Map.find s.grants k = none → exec (.fabricExportRequest ⟨peer, k⟩ off n op ⟨v, c⟩) s = .next (refusePeer s off)) ∧
  (∀ (s : State) off, ∃ y, (refusePeer s off).peerReplies = s.peerReplies ++ [y] ∧ y.off = off ∧ y.fault = some (.page, pageTval 0 6 off)) ∧
  (∀ (s : State) b slot i, b ≠ 0 → Map.find (s.bolt b).imports slot = some i →
    let f := fun (r : Req) => decide (r.bolt = b) && decide (regionOf r.va = .fabric) && decide (bits r.va 47 40 = slot)
    (onTheWay s f = false → exec (.recallAck b slot) s = .next (s.setBolt b { s.bolt b with imports := Map.set (s.bolt b).imports slot { i with bound := false } })) ∧
    (onTheWay s f = true → exec (.recallAck b slot) s = .next s)) ∧
  (∀ (s : State) l flit, l < 1536 → flitType flit = 3 → flitStart flit = true → due s l flit →
    (∀ k b base len, (s.bolt b).live = true → Map.find s.grants k = none → ∃ t, exec (.grantOrRecallFlit l ⟨flit, .make k b base len⟩) s = .next t ∧
      Map.find t.grants k = some { bolt := b, base := base, len := len } ∧ t.bolts = s.bolts ∧ t.dram = s.dram) ∧
    ∀ b slot p k len rd w at_, (s.bolt b).live = true → slot < 256 → (Map.get (s.bolt b).imports slot {}).bound = false →
      ∃ t, exec (.grantOrRecallFlit l ⟨flit, .bind b slot p k len rd w at_⟩) s = .next t ∧
        Map.find (t.bolt b).imports slot = some { bound := true, peer := p, grant := k, len := len, rd := rd, w := w, at_ := at_ } ∧ t.grants = s.grants ∧ t.dram = s.dram)

/-! ## Boot, the fabric -/

namespace Sys2Proof.Claims

/-- Words pushed by a router towards its neighbours, on their way (R172, R382). -/
def pushed (core : Nat) (l : List (BitVec 2 × W64)) : List PWord :=
  l.filterMap (fun p => (neighbour core p.1).map (fun n => { core := n, side := opposite p.1, word := p.2 }))

/-- A router of the boot state whose next word is `w` on `side`, with room for what it pushes (R382). -/
def served (s : State) (core : Nat) (side : BitVec 2) (w : W64) (rest : List W64) : Prop :=
  core < 2048 ∧ bootRouter s core = true ∧ portWords s core side = w :: rest ∧ bootSide s core = some side

/-- The word is taken and `out` pushed; the router holds `r`. -/
def took (s t : State) (core : Nat) (side : BitVec 2) (rest : List W64) (out : List (BitVec 2 × W64)) (r : Router) : Prop :=
  portWords t core side = rest ∧ t.pwords = s.pwords ++ pushed core out ∧ (t.core core).router = r ∧ t.threads = s.threads ∧ t.dram = s.dram

/-- A flit row and a type it receives. -/
def flitRow (f : Nat → BitVec 256 → Instr) (ty : Nat) : Prop := (f = .memoryRequestFlit ∧ ty = 1) ∨ (f = .memoryReplyFlit ∧ ty = 2) ∨
  (f = (fun l x => .grantOrRecallFlit l ⟨x, .none⟩) ∧ ty = 3) ∨ (f = .checkpointDataFlit ∧ ty = 5) ∨ (f = .resendRequest ∧ ty = 6) ∨ (f = .discardedFlit ∧ (ty = 0 ∨ 7 ≤ ty))

/-- The system cores run Rolnis's threads, in supervisor mode, from where its entry capability stands (R371, R372). -/
def rolnisRuns (t : State) : Prop := ∀ c ∈ systemCores, (t.core c).live = true ∧ (t.thread (c * 4)).occ = .resident ∧ (t.thread (c * 4)).bolt = 0 ∧
  (t.thread (c * 4)).mode = true ∧ (t.thread (c * 4)).pc = t.rolnisEntry.lo

/-- What step 4 of the boot leaves: with a verified discovery image its thread runs on slot 0 of core (0, 0) of each die, at the entry of the record before
it; else the module is in recovery and has reported the stage and the digest (R372, R373, R381). -/
def discoveryTried (t : State) : Prop :=
  t.bootDigest = some (Config.digest t.discovery) ∧
  (Config.verifies t.discovery = true → t.boot = .discovery ∧ t.bootFailed = none ∧ (t.cluster 0).permt = [4] ∧ (t.cluster 128).permt = [132] ∧ ∀ d, d < 2 →
    (t.core (1024 * d)).live = true ∧ (t.thread (4096 * d)).occ = .resident ∧ (t.thread (4096 * d)).bolt = 0 ∧
    (t.thread (4096 * d)).pc = (recordOf (bytesToNat (t.discovery.take 64)) true).entry.lo ∧ 8 ∈ (t.thread (8192 + 4096 * d)).pending) ∧
  (Config.verifies t.discovery = false → t.boot = .recovery ∧ t.bootFailed = some .discovery ∧ (.discovery, Config.digest t.discovery) ∈ t.bootReports)

/-- What steps 2 to 4 leave, the hypervisor image given. -/
def bootTried (t : State) (image : List (BitVec 8)) : Prop :=
  (Config.verifies image = true → t.hypervisor = image ∧ rolnisRuns t ∧ discoveryTried t) ∧
  (Config.verifies image = false → t.boot = .recovery ∧ t.bootFailed = some .hypervisor ∧ t.bootDigest = some (Config.digest image) ∧
    (.hypervisor, Config.digest image) ∈ t.bootReports)

end Sys2Proof.Claims

/-- R372, R373, R381: MODULE_RESET leaves no bolt, every unit free and GTIME 0; with verified images Rolnis runs on the system cores and the discovery program
on core (0, 0) of each die, without one the module is in recovery until a new image takes the place of the one that failed; with both dies reported the
self-test runs on every core that received it, and ends with its result words read, every compute core in reset and every unit scrubbed.
What the rules leave open is the model's choice here: assumptions 48, 78, 8. -/
def Obligations.BootSteps : Prop :=
  (∀ (s : State) image disc mem root entry, ∃ t, exec (.moduleReset ⟨image, disc, mem, root, entry⟩) s = .next t ∧ (∀ b, (t.bolt b).live = false) ∧ t.slices = [] ∧ t.gtime = 0 ∧
    t.fused = s.fused ∧ t.discovery = disc ∧ t.rolnisRoot = root ∧ t.rolnisEntry = { bits := entry, tag := true } ∧ t.dram = { cells := mem.foldl (fun m c => Memory.write m c.1 c.2) [] } ∧
    (∀ c, (t.cluster c).owner = .free) ∧ bootTried t image ∧ (Config.verifies image = false → ∀ k, (t.core k).live = false) ∧
    (Config.verifies image = true → Config.verifies disc = true → ∀ k, k < 2048 → ((t.core k).live = true ↔ k = 0 ∨ k = 1024))) ∧
  (∀ (s : State) image,
    (s.boot = .recovery → s.bootFailed = some .hypervisor → ∃ t, exec (.recoveryNewImage image) s = .next t ∧ bootTried t image) ∧
    (s.boot = .recovery → s.bootFailed = some .discovery → ∃ t, exec (.recoveryNewImage image) s = .next t ∧ t.discovery = image ∧ discoveryTried t) ∧
    (s.boot ≠ .recovery → exec (.recoveryNewImage image) s = .next s)) ∧
  (∀ (s : State),
    (s.boot = .discovery → (∃ p ∈ s.launches, p.2.bolt = 0) → exec .selfTestRelease s = .next s) ∧
    (s.boot = .discovery → (∀ p ∈ s.launches, p.2.bolt ≠ 0) → ∃ t, exec .selfTestRelease s = .next t ∧ t.boot = .selfTest ∧ t.dram = s.dram ∧
      ∀ k, k < 2048 → if imaged s k then (t.core k).live = true ∧ t.thread (k * 4) = testThread k else t.core k = s.core k) ∧
    (s.boot = .selfTest → (∃ p ∈ s.threads, p.1 < 8192 ∧ p.2.occ ≠ .empty ∧ p.2.occ ≠ .stopped ∧ p.2.wait ≠ .idle) → exec .selfTestRelease s = .next s) ∧
    (s.boot = .selfTest → (∀ p ∈ s.threads, p.1 < 8192 → p.2.occ = .empty ∨ p.2.occ = .stopped ∨ p.2.wait = .idle) → ∃ t, exec .selfTestRelease s = .next t ∧
      t.boot = .scrubbed ∧ t.dram = s.dram ∧ (∀ k, k < 2048 → (t.core k).live = false) ∧ (∀ k, k < 8192 → (t.thread k).occ = .empty) ∧
      (∀ h, t.slice h = keepSystem (s.slice h)) ∧ (∀ c, c < 256 → t.cluster c = scrubbedCluster (s.cluster c)) ∧
      ∀ p ∈ s.threads, p.1 < 8192 → p.2.occ ≠ .empty → (coreOf p.1, BitVec.ofNat 64 (bytesToNat
        (Memory.readN (s.cluster (clusterOf (coreOf p.1))).mem.cells (0x1E0000 + 0x4000 * (coreOf p.1 % 8)) 8))) ∈ t.selfTest) ∧
    (s.boot ≠ .discovery → s.boot ≠ .selfTest → exec .selfTestRelease s = .next s))

/-- R382 to R385: a router in the boot state takes the word of the side it serves next: a probe gives it its coordinates and goes on E and S to the neighbours within the region, a reply
and an ACK go to the parent, an image header and its data go E and S, the data into the boot area of a core that is not fused, the last with an ACK in the
holder; anything else is discarded: a probe or an image header from E or S, a probe where the coordinates are set, a header where they are not or with a
COUNT of 0 or above 2,048, other words; core (0, 0) of a die takes none. -/
def Obligations.BootRouters : Prop :=
  (∀ (s : State) core side, core < 2048 → core % 1024 = 0 → exec (.imageData core side) s = .next s ∧ exec (.imageHeader core side) s = .next s ∧ exec (.probe core side) s = .next s) ∧
  ∀ (s : State) core side w rest, served s core side w rest →
    let r := (s.core core).router
    let r' := { r with served := some side }
    let op := bits w.toNat 63 60
    let x := bits w.toNat 4 0
    let y := bits w.toNat 9 5
    let nw := bits w.toNat 15 11 + 1
    let nh := bits w.toNat 20 16 + 1
    let onward := (if r.x + 1 < r.w then [((1 : BitVec 2), w)] else []) ++ (if side = 0 ∧ r.y + 1 < r.hgt then [(2, w)] else [])
    (r.img = none → op = 1 → side = 0 ∨ side = 3 → r.coord = false → ∃ t, exec (.probe core side) s = .next t ∧
      took s t core side rest
        ((if x + 1 < nw ∧ y < nh then [(1, BitVec.ofNat 64 (1 * 2 ^ 60 + (bits w.toNat 20 11 * 2 ^ 11 + y * 32 + (x + 1))))] else []) ++
         (if y + 1 < nh ∧ x < nw then [(2, BitVec.ofNat 64 (1 * 2 ^ 60 + (bits w.toNat 20 11 * 2 ^ 11 + (y + 1) * 32 + x)))] else []) ++
         [(side, BitVec.ofNat 64 (2 * 2 ^ 60 + ((s.fused.contains core).toNat * 2 ^ 21 + y * 32 + x)))])
        { r' with coord := true, x := x, y := y, w := nw, hgt := nh, parent := side }) ∧
    (r.img = none → op = 2 → r.coord = true → ∃ t, exec (.reply core side) s = .next t ∧ took s t core side rest [(r.parent, w)] r') ∧
    (r.img = none → op = 4 → r.coord = true → ∃ t, exec (.ack core side) s = .next t ∧ took s t core side rest [(r.parent, w)] r') ∧
    (r.img = none → op = 3 → side = 0 ∨ side = 3 → r.coord = true → 1 ≤ bits w.toNat 47 32 → bits w.toNat 47 32 ≤ 2048 → ∃ t, exec (.imageHeader core side) s = .next t ∧
      took s t core side rest onward { r' with img := some (side, bits w.toNat 47 32, 0) }) ∧
    (∀ n i, r.img = some (side, n, i) → ∃ t, exec (.imageData core side) s = .next t ∧
      portWords t core side = rest ∧ t.pwords = s.pwords ++ pushed core onward ∧
      (t.core core).router = (if i + 1 = n then { r' with img := none, holder := if s.fused.contains core then r.holder else some (BitVec.ofNat 64 (4 * 2 ^ 60 + (r.y * 32 + r.x))) }
        else { r' with img := some (side, n, i + 1) }) ∧
      (s.fused.contains core = true → (t.cluster (clusterOf core)).mem = (s.cluster (clusterOf core)).mem) ∧
      (s.fused.contains core = false → Memory.wf (s.cluster (clusterOf core)).mem.cells = true → ∀ a, Memory.read (t.cluster (clusterOf core)).mem.cells a =
        let o := 0x1E0000 + 0x4000 * (core % 8) + 8 * i
        if o ≤ a ∧ a < o + 8 then BitVec.ofNat 8 (w.toNat / 2 ^ (8 * (a - o))) else Memory.read (s.cluster (clusterOf core)).mem.cells a)) ∧
    (r.img = none → (op = 1 ∧ (r.coord = true ∨ side = 1 ∨ side = 2)) ∨ (op = 2 ∧ r.coord = false) ∨ (op = 4 ∧ r.coord = false) ∨ op = 0 ∨ 4 < op ∨
      (op = 3 ∧ (side = 1 ∨ side = 2 ∨ r.coord = false ∨ bits w.toNat 47 32 = 0 ∨ 2048 < bits w.toNat 47 32)) → ∃ t, exec (.discardedWord core side) s = .next t ∧
      took s t core side rest [] r') ∧
    (∀ h n, r.holder = some h → neighbour core r.parent = some n → 0 < portFree s n (opposite r.parent) → ∃ t, exec (.ackHolderPush core) s = .next t ∧
      (t.core core).router = { r with holder := none } ∧ t.pwords = s.pwords ++ [{ core := n, side := opposite r.parent, word := h }])

/-- A lane that asks with a resend request for the flit due, `b` being the lane `a` with what it has noted. -/
def Sys2Proof.Claims.asksDue (a b : Lane) : Lane :=
  { b with asking := true, sent := a.sent ++ [makeFlit 6 true 0 a.outSeq (a.seq.setWidth 224)], outSeq := a.outSeq + 1, asked := Map.erase a.asked a.outSeq.toNat }

/-- R375, R376: a flit whose CRC holds and whose SEQ is due is delivered: it begins a packet, or goes on with the last one, or ends it; one that comes early is
held, one that comes again dropped; a bad CRC is answered with a resend request for the flit due, and the third of one flit retires the lane; a resend request is
obeyed, and the third for one flit retires its lane; types without meaning are counted.
What the rules leave open is the model's choice here: assumption 49. -/
def Sys2Proof.Claims.FlitRows : Prop := ∀ f ty, flitRow f ty → ∀ (s : State) l flit, l < 1536 → let a := s.lane l
  (1 ≤ ty → ty ≤ 6 → flitType flit ≠ ty → exec (f l flit) s = .next s) ∧
  (flitType flit = ty →
    (a.retired = true → exec (f l flit) s = .next s) ∧
    (a.retired = false → a.outRetired = false → crc16 flit ≠ flitCrc flit → let later : Bool := a.asking && decide (flitSeq flit ≠ a.seq); let n := Map.get a.fails a.seq.toNat 0 + (!later).toNat
      let told := asksDue a { a with fails := Map.set a.fails a.seq.toNat n, unheard := a.unheard + later.toNat }
      (n < 3 → exec (f l flit) s = .next (s.setLane l told)) ∧
      (3 ≤ n → ∃ t, exec (f l flit) s = .next t ∧ t.lane l = { told with retired := true, held := [], acts := [] } ∧ l ∈ t.lanesTold ∧ ∀ j, j ≠ l → t.lane j = s.lane j)) ∧
    (a.retired = false → crc16 flit = flitCrc flit → flitSeq flit ≠ a.seq → let again := 128 ≤ (flitSeq flit - a.seq).toNat ∨ ∃ x ∈ a.held, flitSeq x = flitSeq flit
      let kept := { a with held := a.held ++ [flit], acts := if ty = 3 ∧ flitStart flit = true then a.acts ++ [(flitSeq flit, .none)] else a.acts }
      (again → exec (f l flit) s = .next s) ∧ (¬ again → a.asking = true → exec (f l flit) s = .next (s.setLane l kept)) ∧
      (¬ again → a.asking = false → a.outRetired = false → exec (f l flit) s = .next (s.setLane l (asksDue a { kept with unheard := a.unheard - 1 })))) ∧
    (due s l flit → let n := { a with seq := a.seq + 1, asking := false, fails := Map.erase a.fails a.seq.toNat }
      (1 ≤ ty → ty ≤ 5 → flitStart flit = true → exec (f l flit) s =
        .next (s.setLane l { n with delivered := a.delivered ++ [{ type := ty, cls := flitClass flit, words := [flitPayload flit] }], joined := true })) ∧
      (∀ ps p, 1 ≤ ty → ty ≤ 5 → flitStart flit = false → a.joined = true → a.delivered = ps ++ [p] → exec (f l flit) s =
        .next (s.setLane l { n with delivered := ps ++ [{ p with words := p.words ++ [flitPayload flit] }], joined := decide (p.words.length + 1 < 4) })) ∧
      (∀ pre x post, ty = 6 → a.outRetired = false → a.sent = pre ++ x :: post → flitSeq x = (flitPayload flit).setWidth 8 →
        (∀ y ∈ post, flitSeq y ≠ flitSeq x) → let k := Map.get a.asked (flitSeq x).toNat 0 + 1
        ∃ t, exec (f l flit) s = .next t ∧ (k < 3 → (t.lane l).resent = a.resent ++ [x] ∧ (t.lane l).outRetired = false ∧ (t.lane l).sent = a.sent) ∧
          (3 ≤ k → (t.lane l).outRetired = true ∧ l ∈ t.lanesTold)) ∧
      (ty = 0 → exec (f l flit) s = .next (s.setLane l { n with joined := false })) ∧
      (7 ≤ ty → exec (f l flit) s = .next (s.setLane l { n with joined := false, discarded := a.discarded + 1 }))))

/-- R377: with a time-sync flit the reference answers with its own GTIME, and another module finds how far it is from the reference; every 2^20 ticks a
module that has joined sends its own to the reference; a tick is slewed at most once in 1,024; a module that owns no bolt steps GTIME once.
What the rules leave open is the model's choice here: assumption 50. -/
def Sys2Proof.Claims.TimeRows : Prop :=
  (∀ (s : State) l flit, l < 1536 → flitType flit = 4 → flitStart flit = true → due s l flit → (s.lane l).outRetired = false →
    let mine := makeFlit 4 true 0 (s.lane l).outSeq (BitVec.ofNat 224 s.gtime)
    ∃ t, exec (.timeSync (some (l, flit))) s = .next t ∧ t.gtime = s.gtime ∧ t.syncAt = s.syncAt ∧
      (s.reference = true → (t.lane l).sent = (s.lane l).sent ++ [mine] ∧ t.behindBy = s.behindBy) ∧
      (s.reference = false → (t.lane l).sent = (s.lane l).sent ∧ t.behindBy = ((bits (flitPayload flit).toNat 63 0 : Nat) : Int) - ((s.gtime : Nat) : Int))) ∧
  (∀ (s : State), let exchange := s.joined = true ∧ s.reference = false ∧ ∀ x, s.syncAt = some x → x + 2 ^ 20 ≤ s.gtime
    ∃ t, exec (.timeSync none) s = .next t ∧ t.threads = s.threads ∧ t.dram = s.dram ∧
      (exchange → (s.lane s.refLane).outRetired = false → t.syncAt = some s.gtime ∧
        (t.lane s.refLane).sent = (s.lane s.refLane).sent ++ [makeFlit 4 true 0 (s.lane s.refLane).outSeq (BitVec.ofNat 224 s.gtime)]) ∧
      (¬ exchange → t.syncAt = s.syncAt ∧ t.lanes = s.lanes) ∧
      (0 < s.behindBy → s.slewAt + 1024 ≤ s.gtime → t.gtime = s.gtime + 1 ∧ t.slewAt = s.gtime + 1 ∧ t.behindBy = s.behindBy - 1) ∧
      (s.behindBy < 0 → s.slewAt + 1024 ≤ s.gtime → t.gtime = s.gtime ∧ t.slewAt = s.gtime ∧ t.behindBy = s.behindBy + 1) ∧
      (s.behindBy = 0 ∨ s.gtime < s.slewAt + 1024 → t.gtime = s.gtime ∧ t.slewAt = s.slewAt ∧ t.behindBy = s.behindBy)) ∧
  (∀ (s : State) n ref l, l < 1536 →
    (s.joined = false → (∀ p ∈ s.bolts, p.2.live = false) → exec (.fabricJoin ⟨n, ref, l⟩) s =
      .next { s with joined := true, reference := ref, refLane := l, gtime := s.gtime + n }) ∧
    (s.joined = false → (∃ p ∈ s.bolts, p.2.live = true) → exec (.fabricJoin ⟨n, ref, l⟩) s = .next { s with joined := true, reference := ref, refLane := l }) ∧
    (s.joined = true → exec (.fabricJoin ⟨n, ref, l⟩) s = .next s))

/-- R378, R379: a checkpoint presses the bolts, streams their swatches, the contexts in their reserved memory among them, with a signed manifest of digests and
resumes them; a bolt comes back only from a manifest whose signature and digests all verify, with its units, contexts and swatches; a power limit below
2,400 W throttles regions, and the sideband answers the dies' temperatures.
What the rules leave open is the model's choice here: assumptions 50, 94, 95. -/
def Sys2Proof.Claims.CheckpointRows : Prop :=
  (∀ (s : State) n, ∃ t, exec (.powerLimitSet n) s = .next t ∧ t.powerLimit = n ∧ t.dieTemps.length = Config.dies ∧ t.threads = s.threads ∧ t.dram = s.dram ∧
    (2400 ≤ n → t.clusters = s.clusters) ∧ (n < 2400 → ∀ c, c < 256 → (t.cluster c).throttle = min (s.cluster c).throttle (powerCap t c) ∧ powerCap t c ≤ 16)) ∧
  (∀ (s : State) bs, (∀ b ∈ bs, (s.bolt b).live = true ∧ (s.bolt b).stopped = false ∧ ∀ p ∈ s.parked, p.bolt ≠ b) → Rising s.threads →
    (∀ b ∈ bs, ∀ c ∈ (s.bolt b).clusters, movable s c = true ∧ ∀ p ∈ s.threads, clusterOf (coreOf p.1) = c → p.2.occ = .resident → p.2.bolt = b ∧ p.1 < 8192) →
    ∃ t c, exec (.checkpoint (.save bs)) s = .next t ∧ t.checkpoints = s.checkpoints ++ [c] ∧
      c.digests = bs.flatMap (fun b => (s.bolt b).swatches.map (fun w => (w, Config.digest (swatchBytes (withReserved c.saved (writtenBack s).cells) w)))) ∧
      c.sig = (List.range 4627).map (Config.signature (manifestBytes c.digests)) ∧ t.dram = s.dram ∧
      (∀ b, (t.bolt b).pressed = ((s.bolt b).pressed && decide (b ∉ bs))) ∧
      (∀ k, (t.thread k).regs = (s.thread k).regs) ∧ (s.pwords = [] → (∀ p ∈ s.threads, p.2.seam = none) → ∀ k, (t.thread k).pc = (s.thread k).pc) ∧
      ((s.lane 0).outRetired = false → (s.lane 0).sent.length < (t.lane 0).sent.length)) ∧
  (∀ (s : State) k m sys, s.checkpoints[k]? = none → exec (.checkpoint (.restore k m sys)) s = .next s) ∧
  (∀ (s : State) k m sys c, s.checkpoints[k]? = some c →
    let ok := Config.verifiesManifest (manifestBytes c.digests) c.sig && c.digests.all (fun p => decide (Config.digest (swatchBytes m p.1) = p.2))
    (ok = false ∨ checkpointFits s c.saved sys = false → exec (.checkpoint (.restore k m sys)) s = .next s) ∧
    (ok = true → (∀ x ∈ Config.reservedCells c.saved, Memory.read m x.1 = x.2) → checkpointFits s c.saved sys = true → Memory.wf m = true →
      Memory.wf s.dram.cells = true → Rising s.bolts → Rising c.saved.bolts → ∃ t, exec (.checkpoint (.restore k m sys)) s = .next t ∧
      (∀ a, Memory.read t.dram.cells a = if c.digests.any (fun p => decide (p.1 = a / 2 ^ 30)) then Memory.read m a else Memory.read s.dram.cells a) ∧
      (∀ x ∈ sys, Map.find t.sysBolt x.2 = some x.1) ∧
      ∀ p ∈ c.saved.bolts, (t.bolt p.1).live = p.2.live ∧ (t.bolt p.1).clusters = p.2.clusters ∧ (t.bolt p.1).slices = p.2.slices ∧ (t.bolt p.1).swatches = p.2.swatches))

/-- R375, R376: a flit whose CRC holds and whose SEQ is due is delivered: it begins a packet, or goes on with the last one, or ends it; one that comes early is
held, one that comes again dropped; a bad CRC is answered with a resend request, and the third of one flit retires the lane; a resend request is obeyed,
and the third for one flit retires its lane; types without meaning are counted. R377: with a time-sync flit the reference answers with its own GTIME, and
another module finds how far it is from the reference; every 2^20 ticks it sends its own; a tick is slewed at most once in 1,024; a module that owns no bolt
steps GTIME once. R378, R379: a checkpoint presses the bolts, streams their swatches with a signed manifest of digests and resumes them; a bolt comes back
only from a manifest whose signature and digests all verify, with its units, contexts and swatches; a power limit below 2,400 W throttles regions.
What the rules leave open is the model's choice here: assumptions 49, 50, 94, 95. -/
def Obligations.FabricLinks : Prop := Sys2Proof.Claims.FlitRows ∧ Sys2Proof.Claims.TimeRows ∧ Sys2Proof.Claims.CheckpointRows

/-! ## The machine as a whole -/

namespace Sys2Proof.Claims

/-- A result of a register that counts have not reached (R55). -/
def early (q : Pre) (s : State) (r : Reg) : Prop := ∃ e ∈ s.t.due, e.what = r.toNat ∧ countAt q s < e.cnt

/-- The lowest of some registers that satisfy `p`. -/
def lowest (p : Reg → Prop) (l : List Reg) (r : Reg) : Prop := r ∈ l ∧ p r ∧ ∀ x ∈ l, p x → r.toNat ≤ x.toNat

/-- Prefixes that are absent. -/
def plain : Pre := {}

end Sys2Proof.Claims

/-- R52, R50, R55, R56, R57, R151, R302, R388, R2: the checks of an instruction in their order, on the rows of R202: ILLEGAL in an exchange phase, ALLOT
with the lowest register at or above the allotment, a disabled instruction that only passes, a wait for a pending register, STALLCOUNT with the lowest
register read too early; PERM and GROUP on the rows that have them, whatever the guard. A row that names a unit the module does not have is no step.
What the rules leave open is the model's choice here: assumptions 12, 15. -/
def Obligations.ChecksInOrder : Prop :=
  (∀ e ∈ arithmetic, ∀ q d x y s, Ready s → let i := e.1 q d x y; let regs := [x, y, d]
    (s.t.xchg = true → Traps i s .illegal (illTval q (baseParcel i))) ∧
    (s.t.xchg = false →
      (∀ r, lowest (fun r => s.t.allot ≤ r.toNat) regs r → Traps i s .allot (BitVec.ofNat 64 r.toNat)) ∧
      ((∀ r ∈ regs, r.toNat < s.t.allot) →
        (¬ Guarded q s → ReadyRegs q [] [] s → Gives i s (afterT q s s.t)) ∧
        (Guarded q s → (∃ r ∈ regs, r.toNat ∈ s.t.pending) → exec i s = .next (setWait s s.cur .operand)) ∧
        (∀ r, Guarded q s → (∀ r ∈ regs, r.toNat ∉ s.t.pending) → s.t.check = true → lowest (early q s) regs r →
          Traps i s .stallcount (BitVec.ofNat 64 r.toNat))))) ∧
  (∀ (i : Instr) q d r s, i = .xinv q d r ∨ i = .tret q ∨ i = .idle q → Ready s → s.t.xchg = false → s.t.mode = false → Traps i s .perm ((baseParcel i).setWidth 64)) ∧
  (∀ q r s, Ready s → s.t.xchg = false → s.t.seamed = false → r.toNat % 4 ≠ 0 → Traps (.fork q r) s .group (BitVec.ofNat 64 r.toNat)) ∧
  (∀ (s : State) n (side : BitVec 2), 2048 ≤ n → ∀ i ∈ [Instr.mfmtContextChange n, .wstatAtHead n, .matrixRequestComplete n, .sorterAccept n, .probe n side, .ackHolderPush n],
    exec i s = .fault .noSuchUnit) ∧
  (∀ (s : State) n, 4096 ≤ n → exec (.phaseComplete n) s = .fault .noSuchUnit) ∧
  (∀ (s : State) n k, 256 ≤ n → ∀ i ∈ [Instr.localBankGrant ⟨n, k⟩, .arrayGrant n, .scrub (some n) none, .throttleChange n 8], exec i s = .fault .noSuchUnit) ∧
  (∀ (s : State) n z, 256 ≤ n → n ∉ [256, 384, 512, 640] → exec (.channelPacketSend ⟨n, z⟩) s = .fault .noSuchUnit) ∧
  (∀ (s : State) n l, 128 ≤ n → ∀ i ∈ [Instr.homeRequest n, .retryReissue n, .shadowFetch n l, .sweeper n l, .scrub none (some n)], exec i s = .fault .noSuchUnit)

/-- R41, R52: the parcels at the pc, each read through the execute capability and its translation, decode to an instruction, and that is what the fetch
answers. -/
def Sys2Proof.Claims.FetchRuns : Prop :=
  ∀ (s : State) ps used rest i (f : Nat → State), isSystem s.curCore = false → decode ps = .ok (i, rest) → ps = used ++ rest → f 0 = s →
    (∀ j, j < used.length → let a := (s.t.pc + BitVec.ofNat 64 (2 * j)).toNat
      derefCheck 0 true s.t.ecap (!capLoc s.t.ecap && !capDam s.t.ecap) [permX] a 2 = .ok () ∧ fetchParcel (f j) s.t.bolt s.curCore a = .ok (f (j + 1), used.getD j 0)) →
    fetch s = .ok (f used.length, i)

/-- R41, R52, R8: what a thread does in its turn, with no late fault to take first and nothing of a stream to wait for, is the meaning of the instruction fetched,
in the state so fetched; a fetch that fails is its precise fault; a follower of a seam runs the instruction that its head has forwarded (R309). -/
def Sys2Proof.Claims.ThreadRuns : Prop := ∀ (s : State) tid, let s1 := { s with cur := tid }
  (follows (s.thread tid) = false → (s.thread tid).late = [] → (s.thread tid).acqDue = false → (∀ sc, (s.thread tid).wait ≠ .streamRelease sc) →
  (∀ s2 i u, fetch s1 = .ok (s2, i) → exec i s2 = .next u → (u.thread tid).seam = none → attempt tid s = .next u) ∧
  ∀ x, fetch s1 = .error x → attempt tid s = .next (stopped s1 x)) ∧
  ∀ m i g n u, follows (s.thread tid) = true → (s.thread tid).seam = some m → forwarded s m.head m.next = some (i, g, n) → (s.thread tid).acqDue = false →
    (∀ sc, (s.thread tid).wait ≠ .streamRelease sc) → exec i (atIndex { s1 with forward := some (tid, m.next, i, g) } tid m.next) = .next u →
    attempt tid s = .next (afterMember { u with forward := none } tid)

/-- R296: a core's turn with one thread that may go on, which issues in its cycle `n`, is what that thread does; with several, of those ready in the first cycle
in which one is ready, the one picked issues, the shortfalls of the others counted up to that cycle (R368). -/
def Sys2Proof.Claims.CoreRuns : Prop := ∀ (s : State) c,
  (∀ tid n u, candidates s c = [tid] → attempt tid s = .next u → issuedAt s c (.next u) = some n → coreStep c s = .next (wakeOuts (passOver s c [tid] n tid u) c)) ∧
  (∀ tid u, candidates s c = [tid] → attempt tid s = .next u → issuedAt s c (.next u) = none → coreStep c s = .next (wakeOuts u c)) ∧
  (candidates s c = [] → coreStep c s = .next s) ∧
  ((∀ x ∈ candidates s c, ∃ n, issuedAt s c (attempt x s) = some n) → candidates s c ≠ [] → ∃ n tid, tid ∈ candidates s c ∧
    (∃ x ∈ candidates s c, issuedAt s c (attempt x s) = some n) ∧ (∀ x ∈ candidates s c, ∀ m, issuedAt s c (attempt x s) = some m → n ≤ m) ∧
    issuedAt s c (attempt tid s) = some n ∧
    let l := (candidates s c).filter (fun x => decide (issuedAt s c (attempt x s) = some n))
    Sys2Proof.Machine.pick s c l n = some tid ∧
    ∀ u, attempt tid (countShort s c (s.core c).cycle n (some tid)) = .next u → coreStep c s = .next (wakeOuts (passOver s c l n tid u) c))

/-- R296, R309: a step makes the move that the plan names, or by default the first of what is due and of the cores that can issue, at the new time; a seam
member named before comes first, where no thread of its core is ready earlier or overdue. -/
def Sys2Proof.Claims.MovesRun : Prop :=
  let after := fun (u : State) => traceTick (noteWakes (unstall u))
  (∀ (s : State) c rest u, s.forward = none → stopDueBolt (passTime s) = none → s.sched = .core c :: rest → coreStep c { passTime s with sched := rest } = .next u →
    step s = .next (after u)) ∧
  (∀ (s : State) c u, s.forward = none → stopDueBolt (passTime s) = none → s.sched = [] → eventStep (passTime s) = none → nextCore (passTime s) = some c →
    coreStep c (passTime s) = .next u → step s = .next (after u)) ∧
  (∀ (s : State) tid idx i g, s.forward = some (tid, idx, i, g) → let s1 := { passTime s with forward := none }; let c := coreOf tid
    (mayGo s1 tid = false → step s = .next (after s1)) ∧
    (∀ u, mayGo s1 tid = true → attempt tid s1 = .next u → issuedAt s1 c (.next u) = none → step s = .next (after (wakeOuts u c))) ∧
    ∀ n, mayGo s1 tid = true → issuedAt s1 c (attempt tid s1) = some n → let at_ := fun (x : Nat) => issuedAt s1 c (attempt x s1)
      let l := (candidates s1 c).filter (fun x => (at_ x).any (· ≤ n))
      ((∃ x ∈ l, ∃ m, at_ x = some m ∧ m < n) ∨ (∃ x, passedMost s1 l = some x ∧ x ≠ tid) → step s = .next (after s1)) ∧
      ∀ u, (∀ x ∈ l, ∀ m, at_ x = some m → n ≤ m) → (∀ x, passedMost s1 l = some x → x = tid) → attempt tid (countShort s1 c (s1.core c).cycle n (some tid)) = .next u →
        step s = .next (after (wakeOuts (passOver s1 c l n tid u) c))) ∧
  (∀ (s : State) i rest u, s.forward = none → stopDueBolt (passTime s) = none → s.sched = .event i :: rest → encode i = [] →
    exec i { passTime s with sched := rest } = .next u → step s = .next (after u)) ∧
  (∀ (s : State), (passTime s).gtime = s.gtime + 1 + s.delays.headD 0 ∧ (passTime s).threads = s.threads ∧ (passTime s).dram = s.dram)

/-- R41, R52, R296, R309: A STEP RUNS THE DECODED INSTRUCTION. The parcels at the pc, each read through the execute capability and its translation, decode
to an instruction, and that is what the fetch answers; a thread in its turn, with no late fault due, runs that instruction's meaning in the state so fetched;
a core's turn is that of a thread of its that may go on; a step is the move that is due, at the new time; a fetch that fails is its precise fault. The order
of moves is the model's (assumption 5), and so is how much time passes at each (assumption 7). -/
def Obligations.StepRuns : Prop :=
  Sys2Proof.Claims.FetchRuns ∧ Sys2Proof.Claims.ThreadRuns ∧ Sys2Proof.Claims.CoreRuns ∧ Sys2Proof.Claims.MovesRun

/-- R41 to R45: words of the spec's listings decode to the instructions they stand for. -/
def Obligations.DecodeWords : Prop :=
  decode [0x2943] = .ok (.addi plain 5 3, []) ∧
  decode [0xF001, 0x2964] = .ok (.addi { nxi := 1 } 5 100, []) ∧
  decode [0xFCF4, 0x2943] = .ok (.addi { xq := true, h := 3, gen := true, inv := true, flag := 2 } 5 3, []) ∧
  decode [0xF500, 0x1D0C] = .ok (.mov { xr := true } 20 3, []) ∧
  decode [0xFCC0, 0xF853, 0xF406, 0x0514] = .ok (.fma { xq := true, h := 3, xp := true, xr := true } 19 4 5 6, []) ∧
  decode [0xF883, 0x1001] = .ok (.rel { xp := true } 3, []) ∧
  decode [0xF80B, 0xF010, 0x754C] = .ok (.ldg { xp := true, nxi := 1 } 11 5 3 16, []) ∧
  decode [0xF880, 0xF406, 0x014D] = .ok (.atomAdd { xp := true, xr := true } 1 5 3 6, []) ∧
  decode [0xF8C0, 0x081C] = .ok (.dseal { xp := true } 7, []) ∧
  decode [0xF004, 0xF000, 0x8154] = .ok (.csetb { nxi := 2 } 5 5 4096, []) ∧
  decode [0xF940, 0x0645] = .ok (.bindp { xp := true } 9 1 false, []) ∧
  decode [0xF004, 0x6540] = .ok (.rdc { nxi := 1 } 5 0x100, []) ∧
  decode [0x5D81] = .ok (.loop plain 6 1, []) ∧
  decode [0xF900, 0xF440, 0x0700] = .ok (.mm { xp := true, xr := true } 12 16, []) ∧
  decode [0xF9C0, 0x0005] = .ok (.trap { xp := true } 5, [])

/-- R41 to R51: DECODE AND ENCODE AGREE: the words of every well-formed instruction, with every operand at every value the encoding admits, decode to it,
whatever follows them, and take at most five parcels; an event row has no words. -/
def Obligations.RoundTrip : Prop :=
  (∀ (i : Instr) rest, i.wellFormed = true → decode (encode i ++ rest) = .ok (i, rest)) ∧ (∀ i : Instr, i.wellFormed = true → 1 ≤ (encode i).length ∧ (encode i).length ≤ 5) ∧
  ∀ i : Instr, i.isEvent = true → encode i = [] ∧ i.wellFormed = false

namespace Sys2Proof.Claims

/-- DRAM in canonical form: addresses rising, no byte listed at the value an unlisted one has, and so its tags, also those that a checkpoint keeps. -/
def DramForm (s : State) : Prop :=
  Memory.wf s.dram.cells = true ∧ Map.canon false none s.dram.tags = true ∧ ∀ c ∈ s.checkpoints, Map.canon false none c.saved.tags = true

/-- A local memory and a Damask slice in canonical form. -/
def ClusterForm (c : Cluster) : Prop := Memory.wf c.mem.cells = true ∧ Map.canon false none c.mem.tags = true ∧ Memory.wf c.damask = true

/-- What is saved of a cluster in canonical form. -/
def ParkedForm (p : Parked) : Prop := ClusterForm p.image ∧ ∀ c ∈ p.cores, Map.canon 0 none c.2.tile = true

/-- The Damask templates of some bolts in canonical form. -/
def TemplateForm (l : Map Bolt) : Prop := ∀ p ∈ l, ∀ m n, p.2.template = some (m, n) → Memory.wf m = true

/-- Every store of the module apart from DRAM in canonical form: local memories, Damask slices and templates, tiles, also of what a press or a checkpoint has
saved. -/
def StoreForm (s : State) : Prop :=
  (∀ p ∈ s.clusters, ClusterForm p.2) ∧ (∀ p ∈ s.cores, Map.canon 0 none p.2.tile = true) ∧ TemplateForm s.bolts ∧ (∀ p ∈ s.parked, ParkedForm p) ∧
  ∀ c ∈ s.checkpoints, TemplateForm c.saved.bolts ∧ ∀ p ∈ c.saved.parked, ParkedForm p

/-- Bolts whose clusters and slices are of the module (R2, R344). -/
def BoltForm (l : Map Bolt) : Prop := ∀ p ∈ l, (∀ c ∈ p.2.clusters, c < 256) ∧ (∀ h ∈ p.2.slices, h < 128) ∧ ∀ x, p.2.newSlices = some x → ∀ h ∈ x, h < 128

/-- Every unit is listed once, in order; a bolt's clusters and slices are of the module; so what a checkpoint has saved (R2, R344). -/
def UnitForm (s : State) : Prop :=
  Rising s.threads ∧ Rising s.cores ∧ Rising s.clusters ∧ Rising s.slices ∧ Rising s.bolts ∧ (∀ p ∈ s.slices, rising p.2.ways) ∧ BoltForm s.bolts ∧
  ∀ c ∈ s.checkpoints, BoltForm c.saved.bolts ∧ ∀ p ∈ c.saved.slices, rising p.2.ways

end Sys2Proof.Claims

/-- R107, R92: every step keeps DRAM, its bytes and its tags, in canonical form, from every state that has it. -/
def Obligations.DramInvariant : Prop := ∀ s t : State, DramForm s → step s = .next t → DramForm t

/-- R107, R117, R224, R346: every step keeps the local memories, the Damask slices and templates and the tiles in canonical form, saved ones too; and it keeps
every unit listed once, in order, and every bolt's clusters and slices units of the module. -/
def Obligations.StoresInvariant : Prop :=
  (∀ s t : State, StoreForm s → step s = .next t → StoreForm t) ∧ ∀ s t : State, UnitForm s → step s = .next t → UnitForm t

/-- R372: what reset leaves: no bolt, no thread, every cluster and slice free, every core in reset, GTIME 0, nothing in memory; with it the three forms that
every step keeps. The registers' values of 0 where R372 is silent are the model's (assumption 6), and so is the 0 that DRAM reads as (assumption 2). -/
def Obligations.ResetState : Prop :=
  let z := State.reset
  z.gtime = 0 ∧ z.bolts = [] ∧ z.launches = [] ∧ z.blocks = [] ∧ (∀ k, (z.thread k).occ = .empty ∧ ∀ r, (z.thread k).reg r = {}) ∧
  (∀ c, (z.core c).live = false) ∧ (∀ c, (z.cluster c).owner = .free ∧ ∀ a, Memory.read (z.cluster c).mem.cells a = 0) ∧ (∀ h, (z.slice h).owner = .free) ∧
  (∀ a, Memory.read z.dram.cells a = 0) ∧ z.boot = .reset ∧ DramForm z ∧ StoreForm z ∧ UnitForm z
end

