-- ==== Sys2Proof/Laws/Memory.lean ====
section
/-!
SUPPORT. Laws of sparse maps and byte memories: a read after a write, what a write leaves alone, and that every memory operation keeps
the canonical form.
-/
namespace Sys2Proof.Laws

open Sys2Proof.Machine

/-! ## Reading what was set -/

theorem get_set {α : Type} (m : Map α) (k j : Nat) (v d : α) :
    Map.get (Map.set m k v) j d = if j = k then v else Map.get m j d := by
  induction m with
  | nil =>
    by_cases h : j = k
    · subst h; simp [Map.set, Map.get]
    · simp [Map.set, Map.get, h, Ne.symm h]
  | cons p r ih =>
    obtain ⟨a, u⟩ := p
    simp only [Map.set]
    split
    · by_cases h : j = k
      · subst h; simp [Map.get]
      · simp [Map.get, h, Ne.symm h]
    · split
      · rename_i h1 h2; subst h2
        by_cases h : j = k
        · subst h; simp [Map.get]
        · simp [Map.get, h, Ne.symm h]
      · rename_i h1 h2
        simp only [Map.get, ih]
        by_cases h : a = j
        · subst h; simp [Ne.symm h2]
        · simp [h]

@[simp] theorem get_set_self {α : Type} (m : Map α) (k : Nat) (v d : α) : Map.get (Map.set m k v) k d = v := by
  simp [get_set]

theorem get_set_ne {α : Type} (m : Map α) {k j : Nat} (v d : α) (h : j ≠ k) :
    Map.get (Map.set m k v) j d = Map.get m j d := by simp [get_set, h]

theorem set_set {α : Type} (m : Map α) (k : Nat) (u v : α) : Map.set (Map.set m k u) k v = Map.set m k v := by
  induction m with
  | nil => simp [Map.set]
  | cons p r ih =>
    obtain ⟨a, w⟩ := p
    simp only [Map.set]
    split
    · simp [Map.set]
    · split
      · simp [Map.set]
      · rename_i h1 h2; simp [Map.set, h1, h2, ih]

theorem find_set {α : Type} (m : Map α) (k j : Nat) (v : α) :
    Map.find (Map.set m k v) j = if j = k then some v else Map.find m j := by
  induction m with
  | nil =>
    by_cases h : j = k
    · subst h; simp [Map.set, Map.find]
    · simp [Map.set, Map.find, h, Ne.symm h]
  | cons p r ih =>
    obtain ⟨a, u⟩ := p
    simp only [Map.set]
    split
    · by_cases h : j = k
      · subst h; simp [Map.find]
      · simp [Map.find, h, Ne.symm h]
    · split
      · rename_i h1 h2; subst h2
        by_cases h : j = k
        · subst h; simp [Map.find]
        · simp [Map.find, h, Ne.symm h]
      · rename_i h1 h2
        simp only [Map.find, ih]
        by_cases h : a = j
        · subst h; simp [Ne.symm h2]
        · simp [h]

/-! ## The canonical form -/

/-- A lower bound below which the first key of a canonical map does not lie. -/
def above : Option Nat → Nat → Bool
  | none, _ => true
  | some b, k => decide (b < k)

theorem canon_cons {α : Type} [DecidableEq α] (d : α) (lo : Option Nat) (j : Nat) (v : α) (r : Map α) :
    Map.canon d lo ((j, v) :: r) = (above lo j && decide (v ≠ d) && Map.canon d (some j) r) := by
  cases lo <;> simp [Map.canon, above]

theorem canon_weaken {α : Type} [DecidableEq α] (d : α) (lo : Option Nat) (k : Nat) (m : Map α)
    (ha : above lo k = true) (h : Map.canon d (some k) m = true) : Map.canon d lo m = true := by
  cases m with
  | nil => rfl
  | cons p r =>
    obtain ⟨j, v⟩ := p
    simp only [canon_cons, Bool.and_eq_true, above, decide_eq_true_eq] at h ⊢
    refine ⟨⟨?_, h.1.2⟩, h.2⟩
    cases lo with
    | none => rfl
    | some b => simp only [above, decide_eq_true_eq] at ha ⊢; omega

theorem canon_set {α : Type} [DecidableEq α] (d : α) (m : Map α) (k : Nat) (v : α) (hv : v ≠ d) :
    ∀ lo, above lo k = true → Map.canon d lo m = true → Map.canon d lo (Map.set m k v) = true := by
  induction m with
  | nil => intro lo ha _; simp [Map.set, canon_cons, ha, hv, Map.canon]
  | cons p r ih =>
    obtain ⟨j, u⟩ := p
    intro lo ha h
    rw [canon_cons] at h
    simp only [Bool.and_eq_true, decide_eq_true_eq] at h
    simp only [Map.set]
    split
    · rename_i hlt
      rw [canon_cons, canon_cons, ha]
      simp [above, hv, h.1.2, h.2, hlt]
    · split
      · rename_i _ he; subst he
        simp [canon_cons, ha, hv, h.2]
      · rename_i h1 h2
        rw [canon_cons]
        simp only [Bool.and_eq_true, decide_eq_true_eq]
        refine ⟨⟨h.1.1, h.1.2⟩, ih (some j) ?_ h.2⟩
        simp only [above, decide_eq_true_eq]; omega

theorem canon_erase {α : Type} [DecidableEq α] (d : α) (m : Map α) (k : Nat) :
    ∀ lo, Map.canon d lo m = true → Map.canon d lo (Map.erase m k) = true := by
  induction m with
  | nil => intro lo _; rfl
  | cons p r ih =>
    obtain ⟨j, u⟩ := p
    intro lo h
    rw [canon_cons] at h
    simp only [Bool.and_eq_true, decide_eq_true_eq] at h
    simp only [Map.erase]
    split
    · exact canon_weaken d lo j r h.1.1 h.2
    · rw [canon_cons]; simp [h.1.1, h.1.2, ih (some j) h.2]

/-- A value put keeps the canonical form. -/
theorem canon_put {α : Type} [DecidableEq α] (d : α) (m : Map α) (k : Nat) (v : α)
    (h : Map.canon d none m = true) : Map.canon d none (Map.put d m k v) = true := by
  unfold Map.put
  split
  · exact canon_erase d m k none h
  · rename_i hv; exact canon_set d m k v hv none rfl h

theorem canon_get_above {α : Type} [DecidableEq α] (d : α) (m : Map α) (k : Nat) :
    ∀ b, Map.canon d (some b) m = true → k ≤ b → Map.get m k d = d := by
  induction m with
  | nil => intro b _ _; rfl
  | cons p r ih =>
    obtain ⟨j, u⟩ := p
    intro b h hk
    rw [canon_cons] at h
    simp only [Bool.and_eq_true, decide_eq_true_eq, above] at h
    have : j ≠ k := by omega
    simp only [Map.get, this, if_false]
    exact ih j h.2 (by omega)

theorem get_erase {α : Type} [DecidableEq α] (d : α) (m : Map α) (k j : Nat) :
    ∀ lo, Map.canon d lo m = true → Map.get (Map.erase m k) j d = if j = k then d else Map.get m j d := by
  induction m with
  | nil => intro lo _; simp [Map.erase, Map.get]
  | cons p r ih =>
    obtain ⟨a, u⟩ := p
    intro lo h
    rw [canon_cons] at h
    simp only [Bool.and_eq_true, decide_eq_true_eq] at h
    simp only [Map.erase]
    split
    · rename_i he; subst he
      by_cases hj : j = k
      · subst hj; simp only [if_true]; exact canon_get_above d r j j h.2 (by omega)
      · simp [Map.get, hj, Ne.symm hj]
    · rename_i he
      simp only [Map.get]
      by_cases ha : a = j
      · subst ha; simp [Ne.symm he]
      · simp [ha, ih (some a) h.2]

/-- A read after a put, in a canonical map. -/
theorem get_put {α : Type} [DecidableEq α] (d : α) (m : Map α) (k j : Nat) (v : α)
    (h : Map.canon d none m = true) : Map.get (Map.put d m k v) j d = if j = k then v else Map.get m j d := by
  unfold Map.put
  split
  · rename_i hv; rw [get_erase d m k j none h, hv]
  · exact get_set m k j v d

/-! ## Byte memories -/

theorem wf_write (m : List Host.Cell) (a : Nat) (b : BitVec 8) (h : Memory.wf m = true) : Memory.wf (Memory.write m a b) = true :=
  canon_put Memory.unlisted m a b h

theorem wf_writeN (bs : List (BitVec 8)) : ∀ (m : List Host.Cell) (a : Nat), Memory.wf m = true → Memory.wf (Memory.writeN m a bs) = true := by
  induction bs with
  | nil => intro m a h; exact h
  | cons b r ih => intro m a h; exact ih _ _ (wf_write m a b h)

/-- A byte read after a write. -/
theorem read_write (m : List Host.Cell) (a c : Nat) (b : BitVec 8) (h : Memory.wf m = true) :
    Memory.read (Memory.write m a b) c = if c = a then b else Memory.read m c :=
  get_put Memory.unlisted m a c b h

/-- Bytes outside a wide write read as before. -/
theorem read_writeN_outside (bs : List (BitVec 8)) : ∀ (m : List Host.Cell) (a c : Nat), Memory.wf m = true →
    (c < a ∨ a + bs.length ≤ c) → Memory.read (Memory.writeN m a bs) c = Memory.read m c := by
  induction bs with
  | nil => intro m a c _ _; rfl
  | cons b r ih =>
    intro m a c h hc
    simp only [List.length_cons] at hc
    rw [Memory.writeN, ih _ _ _ (wf_write m a b h) (by omega), read_write m a c b h, if_neg (by omega)]

/-- A byte inside a wide write reads as it was written. -/
theorem read_writeN_inside (bs : List (BitVec 8)) : ∀ (m : List Host.Cell) (a c : Nat), Memory.wf m = true →
    a ≤ c → c < a + bs.length → Memory.read (Memory.writeN m a bs) c = bs.getD (c - a) 0 := by
  induction bs with
  | nil => intro m a c _ h1 h2; simp only [List.length_nil] at h2; omega
  | cons b r ih =>
    intro m a c h h1 h2
    simp only [List.length_cons] at h2
    rw [Memory.writeN]
    by_cases hc : c = a
    · subst hc
      rw [read_writeN_outside r _ _ _ (wf_write m c b h) (by omega), read_write m c c b h, if_pos rfl]
      simp
    · rw [ih _ _ _ (wf_write m a b h) (by omega) (by omega)]
      obtain ⟨k, hk⟩ : ∃ k, c - a = k + 1 := ⟨c - a - 1, by omega⟩
      rw [hk, show c - (a + 1) = k by omega]
      simp

/-! ## Memories with tags: both lists in canonical form -/

/-- The canonical form of a memory with tags. -/
def memForm (m : Mem) : Prop := Memory.wf m.cells = true ∧ Map.canon false none m.tags = true

theorem canon_foldl_put (f : Nat → Nat) (l : List Nat) : ∀ (t : Map Bool), Map.canon false none t = true →
    Map.canon false none (l.foldl (fun t i => Map.put false t (f i) false) t) = true := by
  induction l with
  | nil => intro t h; exact h
  | cons i r ih => intro t h; exact ih _ (canon_put false t (f i) false h)

theorem memForm_clearTags (m : Mem) (a n : Nat) (h : memForm m) : memForm (m.clearTags a n) := by
  unfold Mem.clearTags
  split
  · exact h
  · exact ⟨h.1, canon_foldl_put (fun i => a / 16 + i) _ _ h.2⟩

theorem memForm_writeN (m : Mem) (a : Nat) (bs : List (BitVec 8)) (h : memForm m) : memForm (m.writeN a bs) := by
  have h1 := memForm_clearTags m a bs.length h
  exact ⟨wf_writeN bs _ a h1.1, h1.2⟩

theorem memForm_writeTagged (m : Mem) (a : Nat) (bs : List (BitVec 8)) (tag : Bool) (h : memForm m) : memForm (m.writeTagged a bs tag) := by
  have h1 := memForm_writeN m a bs h
  unfold Mem.writeTagged
  split
  · exact ⟨h1.1, canon_put false _ (a / 16) true h1.2⟩
  · exact h1

theorem cells_clearTags (m : Mem) (a n : Nat) : (m.clearTags a n).cells = m.cells := by
  unfold Mem.clearTags
  split <;> rfl

/-- What a write of bytes leaves alone. -/
theorem read_mem_writeN_outside (m : Mem) (a c : Nat) (bs : List (BitVec 8)) (h : memForm m) (hc : c < a ∨ a + bs.length ≤ c) :
    Memory.read (m.writeN a bs).cells c = Memory.read m.cells c := by
  show Memory.read (Memory.writeN (m.clearTags a bs.length).cells a bs) c = _
  rw [cells_clearTags, read_writeN_outside bs _ _ _ h.1 hc]

theorem memForm_ringWords (l : List Nat) : ∀ (c : Cluster), memForm c.mem → memForm (ringWords c l).mem := by
  induction l with
  | nil => intro c h; exact h
  | cons w r ih => intro c h; exact ih _ (memForm_writeN c.mem _ _ h)

theorem reset_wf : Memory.wf State.reset.dram.cells = true := rfl
theorem reset_form : memForm State.reset.dram := ⟨rfl, rfl⟩

end Sys2Proof.Laws
end

