-- ==== Sys2Proof/Laws/Issue.lean ====
section
/-!
SUPPORT. What issuing an instruction does when its checks pass: the operation runs in the state in which the instruction has issued,
and that state differs from the one before it only in the pc and in what an issue keeps of time.
-/
namespace Sys2Proof.Laws

open Sys2Proof.Machine

/-! ## Units of the state -/

@[simp] theorem thread_setThread_self (s : State) (i : Nat) (t : Thread) : (s.setThread i t).thread i = t := by
  simp [State.setThread, State.thread]

theorem thread_setThread (s : State) (i j : Nat) (t : Thread) :
    (s.setThread i t).thread j = if j = i then t else s.thread j := by
  simp [State.setThread, State.thread, get_set]

theorem core_setCore (s : State) (i j : Nat) (c : Machine.Core) : (s.setCore i c).core j = if j = i then c else s.core j := by
  simp [State.setCore, State.core, get_set]

theorem bolt_setBolt (s : State) (i j : Nat) (b : Bolt) : (s.setBolt i b).bolt j = if j = i then b else s.bolt j := by
  simp [State.setBolt, State.bolt, get_set]

theorem cluster_setCluster (s : State) (i j : Nat) (c : Cluster) : (s.setCluster i c).cluster j = if j = i then c else s.cluster j := by
  simp [State.setCluster, State.cluster, get_set]

theorem slice_setSlice (s : State) (i j : Nat) (x : Slice) : (s.setSlice i x).slice j = if j = i then x else s.slice j := by
  simp [State.setSlice, State.slice, get_set]

@[simp] theorem cur_setThread (s : State) (i : Nat) (t : Thread) : (s.setThread i t).cur = s.cur := rfl
@[simp] theorem cur_setT (s : State) (t : Thread) : (s.setT t).cur = s.cur := rfl
@[simp] theorem cur_setCore (s : State) (i : Nat) (c : Machine.Core) : (s.setCore i c).cur = s.cur := rfl
@[simp] theorem cur_setC (s : State) (c : Machine.Core) : (s.setC c).cur = s.cur := rfl
@[simp] theorem cur_setBolt (s : State) (i : Nat) (b : Bolt) : (s.setBolt i b).cur = s.cur := rfl
@[simp] theorem cur_setB (s : State) (b : Bolt) : (s.setB b).cur = s.cur := rfl
@[simp] theorem cur_setCluster (s : State) (i : Nat) (c : Cluster) : (s.setCluster i c).cur = s.cur := rfl
@[simp] theorem t_setT (s : State) (t : Thread) : (s.setT t).t = t := by simp [State.t, State.setT]
@[simp] theorem thread_setCore (s : State) (i j : Nat) (c : Machine.Core) : (s.setCore i c).thread j = s.thread j := rfl
@[simp] theorem thread_setBolt (s : State) (i j : Nat) (b : Bolt) : (s.setBolt i b).thread j = s.thread j := rfl
@[simp] theorem thread_setCluster (s : State) (i j : Nat) (c : Cluster) : (s.setCluster i c).thread j = s.thread j := rfl
@[simp] theorem core_setThread (s : State) (i j : Nat) (t : Thread) : (s.setThread i t).core j = s.core j := rfl
@[simp] theorem core_setBolt (s : State) (i j : Nat) (b : Bolt) : (s.setBolt i b).core j = s.core j := rfl
@[simp] theorem core_setCluster (s : State) (i j : Nat) (c : Cluster) : (s.setCluster i c).core j = s.core j := rfl
@[simp] theorem bolt_setThread (s : State) (i j : Nat) (t : Thread) : (s.setThread i t).bolt j = s.bolt j := rfl
@[simp] theorem bolt_setCore (s : State) (i j : Nat) (c : Machine.Core) : (s.setCore i c).bolt j = s.bolt j := rfl
@[simp] theorem bolt_setCluster (s : State) (i j : Nat) (c : Cluster) : (s.setCluster i c).bolt j = s.bolt j := rfl
@[simp] theorem cluster_setThread (s : State) (i j : Nat) (t : Thread) : (s.setThread i t).cluster j = s.cluster j := rfl
@[simp] theorem cluster_setCore (s : State) (i j : Nat) (c : Machine.Core) : (s.setCore i c).cluster j = s.cluster j := rfl
@[simp] theorem cluster_setBolt (s : State) (i j : Nat) (b : Bolt) : (s.setBolt i b).cluster j = s.cluster j := rfl

/-! ## Event counters change nothing else -/

theorem count_same (c : Machine.Core) (source slot n : Nat) : SameCore c (c.count source slot n) := by
  unfold Machine.Core.count
  split
  · rfl
  · generalize List.range 16 = l
    suffices h : ∀ x : Machine.Core, SameCore c x → SameCore c (l.foldl
        (fun c i => if evSelects c i source slot then { c with evc := Map.set c.evc i (evcAdd (Map.get c.evc i 0) n) } else c) x) from h c rfl
    induction l with
    | nil => intro x hx; exact hx
    | cons a r ih =>
      intro x hx
      simp only [List.foldl_cons]
      apply ih
      split
      · unfold SameCore at hx ⊢; rw [hx]
      · exact hx

theorem sameCore_trans {a b c : Machine.Core} (h : SameCore a b) (k : SameCore b c) : SameCore a c := by
  unfold SameCore at h k ⊢; rw [k, h]

/-! ## A state that matches -/

theorem matches_refl_thread (a : Thread) (h : a.passed = 0) : SameThread a a := by
  unfold SameThread; rw [← h]

/-- The state in which the operation of an executing instruction runs. -/
def begun (q : Pre) (k : Spec) (s : State) : State :=
  issued s q k (issueCycle s s.t q k.watched (guardFlags q ++ k.rflags)).1 (issueCycle s s.t q k.watched (guardFlags q ++ k.rflags)).2.1
    (issueCycle s s.t q k.watched (guardFlags q ++ k.rflags)).2.2

/-- What follows the operation: its result settles, or its fault or wait is taken in the state before the instruction (R8). -/
def settle (k : Spec) (s : State) : Res State → State
  | .ok s' => issueEnd s s' k
  | .error x => stopped s x

theorem earlyBy_nil (t : Thread) (cnt : Nat) (regs : List Reg) (flags : List Flag)
    (h : ∀ e ∈ t.due, cnt < e.cnt → (∀ r ∈ regs, r.toNat ≠ e.what) ∧ (∀ f ∈ flags, 64 + f.toNat ≠ e.what)) :
    earlyBy t cnt regs flags = [] := by
  unfold earlyBy
  simp only [List.map_eq_nil_iff, List.filter_eq_nil_iff, Bool.and_eq_true, decide_eq_true_eq, Bool.or_eq_true, List.any_eq_true, not_and, not_or,
    not_exists]
  intro e he hc
  obtain ⟨h1, h2⟩ := h e he hc
  exact ⟨fun r hr => h1 r hr, fun f hf => h2 f hf⟩

/-- An instruction whose checks pass runs its operation. -/
theorem issue_runs (q : Pre) (k : Spec) (op : State → Res State) (s : State)
    (hr : Ready s) (hx : s.t.xchg = true → (if k.named.any (portBound s.t) then k.xport else k.xok) = true) (hg : Guarded q s) (hd : ReadyRegs q k.watched k.rflags s)
    (hok : k.ok = true) (hp : k.priv = true → s.t.mode = true) (hm : misaligned k = []) (hb : beyondAllot s.t k = [])
    (hu : k.ownGroup = false → ∀ r ∈ (k.rgroups ++ k.wgroups).flatMap groupRegs, Map.find s.t.binds r.toNat = none)
    (hs : k.noSeam = true → s.t.seamed = false) :
    issue q k op s = .next (settle k s (op (begun q k s))) := by
  have hon : guardOn s.t q = true := by
    unfold guardOn; unfold Guarded at hg
    by_cases h : q.gen = true
    · simp [h, hg h]
    · simp [h]
  have hdec : decodeChecks s.t q k = none := by
    unfold decodeChecks
    have h1 : (!k.ok || (s.t.xchg && !(if k.named.any (portBound s.t) then k.xport else k.xok)) || (s.t.seamed && k.noSeam && guardOn s.t q)) = false := by
      rw [hok]
      by_cases h : s.t.xchg = true
      · by_cases h2 : k.noSeam = true
        · rw [h, hx h, hs h2]; rfl
        · rw [h, hx h]; simp [h2]
      · by_cases h2 : k.noSeam = true
        · simp [h, hs h2]
        · simp [h, h2]
    have h2 : (k.priv && !s.t.mode) = false := by
      by_cases h : k.priv = true
      · simp [hp h]
      · simp [h]
    rw [h1, h2, hm, hb]; simp [leastNat]
  have hpend : (k.watched.any fun r => s.t.pending.contains r.toNat) = false := by
    rw [List.any_eq_false]; intro r hr'
    have := (hd.1 r hr').2
    simpa using this
  have hearly : s.t.check = true → earlyBy s.t (countAt q s) k.watched (guardFlags q ++ k.rflags) = [] := by
    intro hc
    apply earlyBy_nil
    intro e he hcnt
    obtain ⟨a, b, c⟩ := hd.2 hc e he hcnt
    refine ⟨a, ?_⟩
    intro f hf
    simp only [List.mem_append] at hf
    rcases hf with hf | hf
    · unfold guardFlags at hf
      split at hf
      · rename_i hq; simp only [List.mem_singleton] at hf; subst hf; exact c hq
      · simp at hf
    · exact b f hf
  have hst := hr.2.2
  have hcount : (issueCycle s s.t q k.watched (guardFlags q ++ k.rflags)).1 = countAt q s := rfl
  have hgrp : (!k.ownGroup && ((k.rgroups ++ k.wgroups).flatMap groupRegs).any (fun r => (Map.find s.t.binds r.toNat).isSome)) = false := by
    by_cases h : k.ownGroup = true
    · simp [h]
    · have h' : k.ownGroup = false := by simpa using h
      rw [h']; simp only [Bool.not_false, Bool.true_and]
      rw [List.any_eq_false]; intro r hr'
      rw [hu h' r hr']; simp
  unfold issue
  simp only [hdec, hon, if_true, hpend, Bool.false_eq_true, if_false, hst, beq_self_eq_true, Bool.and_true, Bool.not_true, hgrp]
  have hcond : (s.t.check && !(earlyBy s.t (issueCycle s s.t q k.watched (guardFlags q ++ k.rflags)).1 k.watched (guardFlags q ++ k.rflags)).isEmpty) = false := by
    rw [hcount]
    by_cases h : s.t.check = true
    · simp [hearly h]
    · simp [h]
  simp only [hcond, Bool.false_eq_true, if_false]
  unfold settle begun
  cases op (issued s q k _ _ _) <;> rfl

/-! ## The state in which the operation runs -/

@[simp] theorem thread_countEvent (s : State) (tid a n j : Nat) : (countEvent s tid a n).thread j = s.thread j := rfl
@[simp] theorem bolt_countEvent (s : State) (tid a n j : Nat) : (countEvent s tid a n).bolt j = s.bolt j := rfl
@[simp] theorem cluster_countEvent (s : State) (tid a n j : Nat) : (countEvent s tid a n).cluster j = s.cluster j := rfl
@[simp] theorem cur_countEvent (s : State) (tid a n : Nat) : (countEvent s tid a n).cur = s.cur := rfl

theorem core_countEvent (s : State) (tid a n j : Nat) :
    (countEvent s tid a n).core j = if j = coreOf tid then (s.core j).count a (slotOf tid) n else s.core j := by
  unfold countEvent
  rw [core_setCore]
  split
  · rename_i h; rw [h]
  · rfl

/-- Cycles counted change the core's event counters alone (R368). -/
theorem countCycles_frame (s : State) (core n : Nat) (tid : Option Nat) :
    countCycles s core n tid = { s with cores := (countCycles s core n tid).cores } ∧
    (∀ j, j ≠ core → (countCycles s core n tid).core j = s.core j) ∧ SameCore (s.core core) ((countCycles s core n tid).core core) := by
  unfold countCycles
  split
  · exact ⟨rfl, fun _ _ => rfl, rfl⟩
  · refine ⟨rfl, fun j hj => by rw [core_setCore, if_neg hj], ?_⟩
    rw [core_setCore, if_pos rfl]
    generalize List.range 4 = l
    suffices h : ∀ (g : Machine.Core → Nat → Machine.Core), (∀ c i, SameCore c (g c i)) → ∀ c, SameCore (s.core core) c →
        SameCore (s.core core) (l.foldl g c) from h _ (fun c i => by
          split
          · rfl
          · split <;> first | exact count_same _ _ _ _ | rfl) _ (count_same _ _ _ _)
    intro g hg
    induction l with
    | nil => intro c hc; exact hc
    | cons i r ih => intro c hc; exact ih _ (sameCore_trans hc (hg c i))

/-- The state in which the operation runs is the state before with the pc past the instruction, but for time. -/
theorem begun_starts (q : Pre) (k : Spec) (s : State) (hr : Ready s) : Starts (afterT q s s.t) (begun q k s) := by
  obtain ⟨_, hw, hst⟩ := hr
  unfold begun issued
  generalize hcyc : (issueCycle s s.t q k.watched (guardFlags q ++ k.rflags)).2.1 = cyc
  generalize (issueCycle s s.t q k.watched (guardFlags q ++ k.rflags)).1 = cnt
  generalize (issueCycle s s.t q k.watched (guardFlags q ++ k.rflags)).2.2 = short
  obtain ⟨h1, h2, h3⟩ := countCycles_frame s s.curCore (cyc - s.c.cycle) (some s.cur)
  generalize countCycles s s.curCore (cyc - s.c.cycle) (some s.cur) = x at h1 h2 h3
  obtain ⟨m, rfl⟩ : ∃ m, x = { s with cores := m } := ⟨x.cores, h1⟩
  have hc : ∀ j, j ≠ s.curCore → Map.get m j {} = s.core j := h2
  refine ⟨rfl, ?_, ?_, ?_, ?_⟩
  · intro j hj
    have hj' : j ≠ s.cur := hj
    simp only [thread_countEvent, State.setT, thread_setThread, afterT]
    show (if j = s.cur then _ else s.thread j) = (if j = s.cur then _ else s.thread j)
    rw [if_neg hj', if_neg hj']
  · show SameThread (afterT q s s.t).t _
    simp [State.t, State.setT, State.setC, State.setThread, State.setCore, countEvent, afterT, State.thread, SameThread, past]
    exact hw.symm
  · intro j hj
    have hj' : j ≠ coreOf s.cur := hj
    simp only [core_countEvent, State.setT, core_setThread, State.setC, core_setCore, afterT]
    show (if j = coreOf s.cur then _ else if j = coreOf s.cur then _ else if j = coreOf s.cur then _ else Map.get m j {}) = _
    rw [if_neg hj', if_neg hj', if_neg hj', hc j hj']
  · show SameCore s.c _
    unfold State.c
    simp only [core_countEvent, State.setT, core_setThread, State.setC, core_setCore]
    show SameCore (s.core s.curCore) (if s.curCore = s.curCore then _ else _)
    rw [if_pos rfl]
    refine sameCore_trans ?_ (count_same _ _ _ _)
    show SameCore (s.core s.curCore) (if s.curCore = s.curCore then _ else _)
    rw [if_pos rfl]
    refine sameCore_trans ?_ (count_same _ _ _ _)
    show SameCore (s.core s.curCore) (if s.curCore = s.curCore then _ else _)
    rw [if_pos rfl]
    exact sameCore_trans h3 rfl

theorem starts_cur {e t : State} (h : Starts e t) : t.cur = e.cur := by rw [h.1]
theorem matches_cur {e t : State} (h : Matches e t) : t.cur = e.cur := by
  rw [starts_cur h]; split <;> rfl

theorem setThread_get (s : State) (i : Nat) (t : Thread) (h : t = s.thread i) : ∀ j, (s.setThread i t).thread j = s.thread j := by
  intro j; rw [thread_setThread]; split
  · rename_i hj; rw [hj, h]
  · rfl

theorem scoreboard_same (t : Thread) (k : Spec) : scoreboard t k = { t with due := (scoreboard t k).due } := by
  unfold scoreboard; split <;> rfl

/-- When the operation succeeds and its state is `e` but for time, the instruction gives `e`. -/
theorem settle_matches (k : Spec) (s s' e : State) (hm : Starts e s') (hc : e.cur = s.cur) (hbo : e.t.bolt = s.t.bolt)
    (hw : e.t.wait = .none) (hst : e.t.stage = 0) : Matches e (settle k s (.ok s')) := by
  have hcur : s'.cur = s.cur := by rw [starts_cur hm, hc]
  obtain ⟨h1, h2, h3, h4, h5⟩ := hm
  have ht' : s'.thread s.cur = s'.t := by unfold State.t; rw [hcur]
  have hse : SameThread e.t (scoreboard { s'.thread s.cur with stage := if (s'.thread s.cur).wait = .none then 0 else (s'.thread s.cur).stage } k) := by
    rw [scoreboard_same, ht']
    unfold SameThread at h3 ⊢
    rw [h3]; simp [hw, ← hst]
  generalize hu : scoreboard { s'.thread s.cur with stage := if (s'.thread s.cur).wait = .none then 0 else (s'.thread s.cur).stage } k = u at hse
  have hwt : (s'.thread s.cur).wait = .none := by rw [ht', h3, hw]
  have hset : settle k s (.ok s') = commit (s'.setThread s.cur u) s.t.bolt := by
    unfold settle issueEnd
    simp only [hu]
    rw [if_pos hwt]
  rw [hset, ← hbo]
  unfold Matches
  rw [if_pos hw]
  refine ⟨?_, ?_, ?_, ?_, ?_⟩
  · have hb : s'.bolts = e.bolts := by rw [h1]
    show commit (s'.setThread s.cur u) e.t.bolt = _
    unfold commit State.setBolt
    simp only [State.setThread]
    rw [h1]
    rfl
  · intro j hj
    have : j ≠ s.cur := by rw [← hc]; exact hj
    show (s'.setThread s.cur u).thread j = e.thread j
    rw [thread_setThread, if_neg this]; exact h2 j hj
  · show SameThread e.t (s'.setThread s.cur u).t
    have : (s'.setThread s.cur u).t = u := by unfold State.t; rw [cur_setThread, hcur, thread_setThread_self]
    rw [this]; exact hse
  · intro c hcc; exact h4 c hcc
  · exact h5

theorem gives_of_issue (i : Instr) (q : Pre) (k : Spec) (op : State → Res State) (s s' e : State)
    (hexec : exec i s = issue q k op s)
    (hr : Ready s) (hx : s.t.xchg = true → (if k.named.any (portBound s.t) then k.xport else k.xok) = true) (hg : Guarded q s) (hd : ReadyRegs q k.watched k.rflags s)
    (hok : k.ok = true) (hp : k.priv = true → s.t.mode = true) (hmis : misaligned k = []) (hb : beyondAllot s.t k = [])
    (hu : k.ownGroup = false → ∀ r ∈ (k.rgroups ++ k.wgroups).flatMap groupRegs, Map.find s.t.binds r.toNat = none)
    (hs : k.noSeam = true → s.t.seamed = false)
    (hop : op (begun q k s) = .ok s') (hm : Starts e s')
    (hc : e.cur = s.cur) (hbo : e.t.bolt = s.t.bolt) (hw : e.t.wait = .none) (hst : e.t.stage = 0) : Gives i s e := by
  refine ⟨settle k s (.ok s'), ?_, settle_matches k s s' e hm hc hbo hw hst⟩
  rw [hexec, issue_runs q k op s hr hx hg hd hok hp hmis hb hu hs, hop]

/-! ## States that differ in time alone stay so under one more update -/

theorem starts_setT {e t : State} (h : Starts e t) {u v : Thread} (huv : SameThread u v) :
    Starts (e.setT u) (t.setT v) := by
  have hcur := starts_cur h
  obtain ⟨h1, h2, _, h4, h5⟩ := h
  refine ⟨?_, ?_, ?_, ?_, ?_⟩
  · rw [h1]; rfl
  · intro j hj
    have hj' : j ≠ e.cur := hj
    simp only [State.setT, thread_setThread, hcur, if_neg hj']
    exact h2 j hj
  · simpa using huv
  · intro c hc; exact h4 c hc
  · exact h5

theorem starts_t {e t : State} (h : Starts e t) : SameThread e.t t.t := h.2.2.1
theorem matches_t {e t : State} (h : Matches e t) : SameThread e.t t.t := by
  have := starts_t h; split at this <;> exact this

theorem same_reg {a b : Thread} (h : SameThread a b) (r : Reg) : b.reg r = a.reg r := by rw [h]; rfl
theorem same_flag {a b : Thread} (h : SameThread a b) (f : Flag) : b.flag f = a.flag f := by rw [h]; rfl
theorem same_binds {a b : Thread} (h : SameThread a b) : b.binds = a.binds := by rw [h]
theorem same_pc {a b : Thread} (h : SameThread a b) : b.pc = a.pc := by rw [h]

theorem same_setReg {a b : Thread} (h : SameThread a b) (d : Reg) (v : Val) : SameThread (a.setReg d v) (b.setReg d v) := by
  unfold SameThread Thread.setReg at *
  split
  · exact h
  · rw [h]

theorem same_setFlag {a b : Thread} (h : SameThread a b) (f : Flag) (v : Bool) : SameThread (a.setFlag f v) (b.setFlag f v) := by
  unfold SameThread Thread.setFlag at *; rw [h]

theorem same_setPc {a b : Thread} (h : SameThread a b) (w : W64) : SameThread { a with pc := w } { b with pc := w } := by
  unfold SameThread at *; rw [h]

@[simp] theorem setReg_pc (t : Thread) (d : Reg) (v : Val) : (t.setReg d v).pc = t.pc := by unfold Thread.setReg; split <;> rfl
@[simp] theorem setReg_bolt (t : Thread) (d : Reg) (v : Val) : (t.setReg d v).bolt = t.bolt := by unfold Thread.setReg; split <;> rfl
@[simp] theorem setReg_occ (t : Thread) (d : Reg) (v : Val) : (t.setReg d v).occ = t.occ := by unfold Thread.setReg; split <;> rfl
@[simp] theorem setReg_wait (t : Thread) (d : Reg) (v : Val) : (t.setReg d v).wait = t.wait := by unfold Thread.setReg; split <;> rfl
@[simp] theorem setReg_stage (t : Thread) (d : Reg) (v : Val) : (t.setReg d v).stage = t.stage := by unfold Thread.setReg; split <;> rfl
@[simp] theorem setReg_traced (t : Thread) (d : Reg) (v : Val) : (t.setReg d v).traced = t.traced := by unfold Thread.setReg; split <;> rfl
@[simp] theorem setReg_flags (t : Thread) (d : Reg) (v : Val) : (t.setReg d v).flags = t.flags := by unfold Thread.setReg; split <;> rfl
@[simp] theorem setReg_binds (t : Thread) (d : Reg) (v : Val) : (t.setReg d v).binds = t.binds := by unfold Thread.setReg; split <;> rfl
@[simp] theorem setFlag_bolt (t : Thread) (d : Flag) (v : Bool) : (t.setFlag d v).bolt = t.bolt := rfl
@[simp] theorem setFlag_occ (t : Thread) (d : Flag) (v : Bool) : (t.setFlag d v).occ = t.occ := rfl
@[simp] theorem setFlag_wait (t : Thread) (d : Flag) (v : Bool) : (t.setFlag d v).wait = t.wait := rfl
@[simp] theorem setFlag_stage (t : Thread) (d : Flag) (v : Bool) : (t.setFlag d v).stage = t.stage := rfl
@[simp] theorem setFlag_traced (t : Thread) (d : Flag) (v : Bool) : (t.setFlag d v).traced = t.traced := rfl
@[simp] theorem setFlag_pc (t : Thread) (d : Flag) (v : Bool) : (t.setFlag d v).pc = t.pc := rfl

theorem setReg_setPc (t : Thread) (d : Reg) (v : Val) (w : W64) : { t.setReg d v with pc := w } = Thread.setReg { t with pc := w } d v := by
  unfold Thread.setReg; split <;> rfl

/-- A register read after a register written: g0 stays 0 (R152). -/
theorem reg_setReg (t : Thread) (d r : Reg) (v : Val) : (t.setReg d v).reg r = if r = d ∧ d ≠ 0 then v else t.reg r := by
  unfold Thread.setReg
  by_cases hd : d = 0
  · rw [if_pos hd, if_neg (fun h => h.2 hd)]
  · rw [if_neg hd]
    unfold Thread.reg
    by_cases hr : r = 0
    · have hn : ¬(r = d ∧ d ≠ 0) := fun h => hd (h.1 ▸ hr)
      rw [if_pos hr, if_pos hr, if_neg hn]
    · rw [if_neg hr, if_neg hr, get_set]
      by_cases he : r = d
      · subst he; rw [if_pos rfl, if_pos ⟨rfl, hd⟩]
      · have : r.toNat ≠ d.toNat := fun h => he (BitVec.eq_of_toNat_eq h)
        rw [if_neg this, if_neg (fun h => he h.1)]

end Sys2Proof.Laws
end

