-- ==== Sys2Proof/Laws/State.lean ====
section
/-!
SUPPORT. The state's updates, field by field: what each of them leaves as it was, and what it writes.
-/
namespace Sys2Proof.Laws

open Sys2Proof.Machine

/-! ## `setThread` -/

@[simp] theorem cores_setThread (s : State) (i : Nat) (x : Thread) : (s.setThread i x).cores = s.cores := rfl
@[simp] theorem clusters_setThread (s : State) (i : Nat) (x : Thread) : (s.setThread i x).clusters = s.clusters := rfl
@[simp] theorem slices_setThread (s : State) (i : Nat) (x : Thread) : (s.setThread i x).slices = s.slices := rfl
@[simp] theorem dies_setThread (s : State) (i : Nat) (x : Thread) : (s.setThread i x).dies = s.dies := rfl
@[simp] theorem bolts_setThread (s : State) (i : Nat) (x : Thread) : (s.setThread i x).bolts = s.bolts := rfl
@[simp] theorem blocks_setThread (s : State) (i : Nat) (x : Thread) : (s.setThread i x).blocks = s.blocks := rfl
@[simp] theorem launches_setThread (s : State) (i : Nat) (x : Thread) : (s.setThread i x).launches = s.launches := rfl
@[simp] theorem saved_setThread (s : State) (i : Nat) (x : Thread) : (s.setThread i x).saved = s.saved := rfl
@[simp] theorem dram_setThread (s : State) (i : Nat) (x : Thread) : (s.setThread i x).dram = s.dram := rfl
@[simp] theorem claims_setThread (s : State) (i : Nat) (x : Thread) : (s.setThread i x).claims = s.claims := rfl
@[simp] theorem fused_setThread (s : State) (i : Nat) (x : Thread) : (s.setThread i x).fused = s.fused := rfl
@[simp] theorem gtime_setThread (s : State) (i : Nat) (x : Thread) : (s.setThread i x).gtime = s.gtime := rfl
@[simp] theorem completions_setThread (s : State) (i : Nat) (x : Thread) : (s.setThread i x).completions = s.completions := rfl
@[simp] theorem replies_setThread (s : State) (i : Nat) (x : Thread) : (s.setThread i x).replies = s.replies := rfl
@[simp] theorem msgs_setThread (s : State) (i : Nat) (x : Thread) : (s.setThread i x).msgs = s.msgs := rfl
@[simp] theorem pwords_setThread (s : State) (i : Nat) (x : Thread) : (s.setThread i x).pwords = s.pwords := rfl
@[simp] theorem xwords_setThread (s : State) (i : Nat) (x : Thread) : (s.setThread i x).xwords = s.xwords := rfl
@[simp] theorem storeFaults_setThread (s : State) (i : Nat) (x : Thread) : (s.setThread i x).storeFaults = s.storeFaults := rfl
@[simp] theorem reports_setThread (s : State) (i : Nat) (x : Thread) : (s.setThread i x).reports = s.reports := rfl
@[simp] theorem lanes_setThread (s : State) (i : Nat) (x : Thread) : (s.setThread i x).lanes = s.lanes := rfl
@[simp] theorem grants_setThread (s : State) (i : Nat) (x : Thread) : (s.setThread i x).grants = s.grants := rfl
@[simp] theorem boot_setThread (s : State) (i : Nat) (x : Thread) : (s.setThread i x).boot = s.boot := rfl
@[simp] theorem bootDigest_setThread (s : State) (i : Nat) (x : Thread) : (s.setThread i x).bootDigest = s.bootDigest := rfl
@[simp] theorem hypervisor_setThread (s : State) (i : Nat) (x : Thread) : (s.setThread i x).hypervisor = s.hypervisor := rfl
@[simp] theorem powerLimit_setThread (s : State) (i : Nat) (x : Thread) : (s.setThread i x).powerLimit = s.powerLimit := rfl
@[simp] theorem dieTemps_setThread (s : State) (i : Nat) (x : Thread) : (s.setThread i x).dieTemps = s.dieTemps := rfl
@[simp] theorem refLane_setThread (s : State) (i : Nat) (x : Thread) : (s.setThread i x).refLane = s.refLane := rfl
@[simp] theorem joined_setThread (s : State) (i : Nat) (x : Thread) : (s.setThread i x).joined = s.joined := rfl
@[simp] theorem checkpoints_setThread (s : State) (i : Nat) (x : Thread) : (s.setThread i x).checkpoints = s.checkpoints := rfl
@[simp] theorem slewAt_setThread (s : State) (i : Nat) (x : Thread) : (s.setThread i x).slewAt = s.slewAt := rfl
@[simp] theorem parked_setThread (s : State) (i : Nat) (x : Thread) : (s.setThread i x).parked = s.parked := rfl
@[simp] theorem forward_setThread (s : State) (i : Nat) (x : Thread) : (s.setThread i x).forward = s.forward := rfl
@[simp] theorem sched_setThread (s : State) (i : Nat) (x : Thread) : (s.setThread i x).sched = s.sched := rfl
@[simp] theorem delays_setThread (s : State) (i : Nat) (x : Thread) : (s.setThread i x).delays = s.delays := rfl
@[simp] theorem accs_setThread (s : State) (i : Nat) (x : Thread) : (s.setThread i x).accs = s.accs := rfl
@[simp] theorem peerReplies_setThread (s : State) (i : Nat) (x : Thread) : (s.setThread i x).peerReplies = s.peerReplies := rfl
@[simp] theorem bootFailed_setThread (s : State) (i : Nat) (x : Thread) : (s.setThread i x).bootFailed = s.bootFailed := rfl
@[simp] theorem bootReports_setThread (s : State) (i : Nat) (x : Thread) : (s.setThread i x).bootReports = s.bootReports := rfl
@[simp] theorem discovery_setThread (s : State) (i : Nat) (x : Thread) : (s.setThread i x).discovery = s.discovery := rfl
@[simp] theorem selfTest_setThread (s : State) (i : Nat) (x : Thread) : (s.setThread i x).selfTest = s.selfTest := rfl
@[simp] theorem rolnisRoot_setThread (s : State) (i : Nat) (x : Thread) : (s.setThread i x).rolnisRoot = s.rolnisRoot := rfl
@[simp] theorem rolnisEntry_setThread (s : State) (i : Nat) (x : Thread) : (s.setThread i x).rolnisEntry = s.rolnisEntry := rfl
@[simp] theorem sysBolt_setThread (s : State) (i : Nat) (x : Thread) : (s.setThread i x).sysBolt = s.sysBolt := rfl
@[simp] theorem reference_setThread (s : State) (i : Nat) (x : Thread) : (s.setThread i x).reference = s.reference := rfl
@[simp] theorem behindBy_setThread (s : State) (i : Nat) (x : Thread) : (s.setThread i x).behindBy = s.behindBy := rfl
@[simp] theorem syncAt_setThread (s : State) (i : Nat) (x : Thread) : (s.setThread i x).syncAt = s.syncAt := rfl
@[simp] theorem crcFails_setThread (s : State) (i : Nat) (x : Thread) : (s.setThread i x).crcFails = s.crcFails := rfl
@[simp] theorem lanesTold_setThread (s : State) (i : Nat) (x : Thread) : (s.setThread i x).lanesTold = s.lanesTold := rfl
@[simp] theorem recallsTold_setThread (s : State) (i : Nat) (x : Thread) : (s.setThread i x).recallsTold = s.recallsTold := rfl
@[simp] theorem traces_setThread (s : State) (i : Nat) (x : Thread) : (s.setThread i x).traces = s.traces := rfl
@[simp] theorem pkts_setThread (s : State) (i : Nat) (x : Thread) : (s.setThread i x).pkts = s.pkts := rfl
@[simp] theorem free_setThread (s : State) (i : Nat) (x : Thread) : (s.setThread i x).free = s.free := rfl
@[simp] theorem slice_setThread (s : State) (i : Nat) (x : Thread) (j : Nat) : (s.setThread i x).slice j = s.slice j := rfl
@[simp] theorem die_setThread (s : State) (i : Nat) (x : Thread) (j : Nat) : (s.setThread i x).die j = s.die j := rfl

/-! ## `setCore` -/

@[simp] theorem threads_setCore (s : State) (i : Nat) (x : Machine.Core) : (s.setCore i x).threads = s.threads := rfl
@[simp] theorem clusters_setCore (s : State) (i : Nat) (x : Machine.Core) : (s.setCore i x).clusters = s.clusters := rfl
@[simp] theorem slices_setCore (s : State) (i : Nat) (x : Machine.Core) : (s.setCore i x).slices = s.slices := rfl
@[simp] theorem dies_setCore (s : State) (i : Nat) (x : Machine.Core) : (s.setCore i x).dies = s.dies := rfl
@[simp] theorem bolts_setCore (s : State) (i : Nat) (x : Machine.Core) : (s.setCore i x).bolts = s.bolts := rfl
@[simp] theorem blocks_setCore (s : State) (i : Nat) (x : Machine.Core) : (s.setCore i x).blocks = s.blocks := rfl
@[simp] theorem launches_setCore (s : State) (i : Nat) (x : Machine.Core) : (s.setCore i x).launches = s.launches := rfl
@[simp] theorem saved_setCore (s : State) (i : Nat) (x : Machine.Core) : (s.setCore i x).saved = s.saved := rfl
@[simp] theorem dram_setCore (s : State) (i : Nat) (x : Machine.Core) : (s.setCore i x).dram = s.dram := rfl
@[simp] theorem claims_setCore (s : State) (i : Nat) (x : Machine.Core) : (s.setCore i x).claims = s.claims := rfl
@[simp] theorem fused_setCore (s : State) (i : Nat) (x : Machine.Core) : (s.setCore i x).fused = s.fused := rfl
@[simp] theorem gtime_setCore (s : State) (i : Nat) (x : Machine.Core) : (s.setCore i x).gtime = s.gtime := rfl
@[simp] theorem completions_setCore (s : State) (i : Nat) (x : Machine.Core) : (s.setCore i x).completions = s.completions := rfl
@[simp] theorem replies_setCore (s : State) (i : Nat) (x : Machine.Core) : (s.setCore i x).replies = s.replies := rfl
@[simp] theorem msgs_setCore (s : State) (i : Nat) (x : Machine.Core) : (s.setCore i x).msgs = s.msgs := rfl
@[simp] theorem pwords_setCore (s : State) (i : Nat) (x : Machine.Core) : (s.setCore i x).pwords = s.pwords := rfl
@[simp] theorem xwords_setCore (s : State) (i : Nat) (x : Machine.Core) : (s.setCore i x).xwords = s.xwords := rfl
@[simp] theorem storeFaults_setCore (s : State) (i : Nat) (x : Machine.Core) : (s.setCore i x).storeFaults = s.storeFaults := rfl
@[simp] theorem reports_setCore (s : State) (i : Nat) (x : Machine.Core) : (s.setCore i x).reports = s.reports := rfl
@[simp] theorem lanes_setCore (s : State) (i : Nat) (x : Machine.Core) : (s.setCore i x).lanes = s.lanes := rfl
@[simp] theorem grants_setCore (s : State) (i : Nat) (x : Machine.Core) : (s.setCore i x).grants = s.grants := rfl
@[simp] theorem boot_setCore (s : State) (i : Nat) (x : Machine.Core) : (s.setCore i x).boot = s.boot := rfl
@[simp] theorem bootDigest_setCore (s : State) (i : Nat) (x : Machine.Core) : (s.setCore i x).bootDigest = s.bootDigest := rfl
@[simp] theorem hypervisor_setCore (s : State) (i : Nat) (x : Machine.Core) : (s.setCore i x).hypervisor = s.hypervisor := rfl
@[simp] theorem powerLimit_setCore (s : State) (i : Nat) (x : Machine.Core) : (s.setCore i x).powerLimit = s.powerLimit := rfl
@[simp] theorem dieTemps_setCore (s : State) (i : Nat) (x : Machine.Core) : (s.setCore i x).dieTemps = s.dieTemps := rfl
@[simp] theorem refLane_setCore (s : State) (i : Nat) (x : Machine.Core) : (s.setCore i x).refLane = s.refLane := rfl
@[simp] theorem joined_setCore (s : State) (i : Nat) (x : Machine.Core) : (s.setCore i x).joined = s.joined := rfl
@[simp] theorem checkpoints_setCore (s : State) (i : Nat) (x : Machine.Core) : (s.setCore i x).checkpoints = s.checkpoints := rfl
@[simp] theorem slewAt_setCore (s : State) (i : Nat) (x : Machine.Core) : (s.setCore i x).slewAt = s.slewAt := rfl
@[simp] theorem parked_setCore (s : State) (i : Nat) (x : Machine.Core) : (s.setCore i x).parked = s.parked := rfl
@[simp] theorem forward_setCore (s : State) (i : Nat) (x : Machine.Core) : (s.setCore i x).forward = s.forward := rfl
@[simp] theorem sched_setCore (s : State) (i : Nat) (x : Machine.Core) : (s.setCore i x).sched = s.sched := rfl
@[simp] theorem delays_setCore (s : State) (i : Nat) (x : Machine.Core) : (s.setCore i x).delays = s.delays := rfl
@[simp] theorem accs_setCore (s : State) (i : Nat) (x : Machine.Core) : (s.setCore i x).accs = s.accs := rfl
@[simp] theorem peerReplies_setCore (s : State) (i : Nat) (x : Machine.Core) : (s.setCore i x).peerReplies = s.peerReplies := rfl
@[simp] theorem bootFailed_setCore (s : State) (i : Nat) (x : Machine.Core) : (s.setCore i x).bootFailed = s.bootFailed := rfl
@[simp] theorem bootReports_setCore (s : State) (i : Nat) (x : Machine.Core) : (s.setCore i x).bootReports = s.bootReports := rfl
@[simp] theorem discovery_setCore (s : State) (i : Nat) (x : Machine.Core) : (s.setCore i x).discovery = s.discovery := rfl
@[simp] theorem selfTest_setCore (s : State) (i : Nat) (x : Machine.Core) : (s.setCore i x).selfTest = s.selfTest := rfl
@[simp] theorem rolnisRoot_setCore (s : State) (i : Nat) (x : Machine.Core) : (s.setCore i x).rolnisRoot = s.rolnisRoot := rfl
@[simp] theorem rolnisEntry_setCore (s : State) (i : Nat) (x : Machine.Core) : (s.setCore i x).rolnisEntry = s.rolnisEntry := rfl
@[simp] theorem sysBolt_setCore (s : State) (i : Nat) (x : Machine.Core) : (s.setCore i x).sysBolt = s.sysBolt := rfl
@[simp] theorem reference_setCore (s : State) (i : Nat) (x : Machine.Core) : (s.setCore i x).reference = s.reference := rfl
@[simp] theorem behindBy_setCore (s : State) (i : Nat) (x : Machine.Core) : (s.setCore i x).behindBy = s.behindBy := rfl
@[simp] theorem syncAt_setCore (s : State) (i : Nat) (x : Machine.Core) : (s.setCore i x).syncAt = s.syncAt := rfl
@[simp] theorem crcFails_setCore (s : State) (i : Nat) (x : Machine.Core) : (s.setCore i x).crcFails = s.crcFails := rfl
@[simp] theorem lanesTold_setCore (s : State) (i : Nat) (x : Machine.Core) : (s.setCore i x).lanesTold = s.lanesTold := rfl
@[simp] theorem recallsTold_setCore (s : State) (i : Nat) (x : Machine.Core) : (s.setCore i x).recallsTold = s.recallsTold := rfl
@[simp] theorem traces_setCore (s : State) (i : Nat) (x : Machine.Core) : (s.setCore i x).traces = s.traces := rfl
@[simp] theorem pkts_setCore (s : State) (i : Nat) (x : Machine.Core) : (s.setCore i x).pkts = s.pkts := rfl
@[simp] theorem free_setCore (s : State) (i : Nat) (x : Machine.Core) : (s.setCore i x).free = s.free := rfl
@[simp] theorem slice_setCore (s : State) (i : Nat) (x : Machine.Core) (j : Nat) : (s.setCore i x).slice j = s.slice j := rfl
@[simp] theorem die_setCore (s : State) (i : Nat) (x : Machine.Core) (j : Nat) : (s.setCore i x).die j = s.die j := rfl

/-! ## `setCluster` -/

@[simp] theorem threads_setCluster (s : State) (i : Nat) (x : Cluster) : (s.setCluster i x).threads = s.threads := rfl
@[simp] theorem cores_setCluster (s : State) (i : Nat) (x : Cluster) : (s.setCluster i x).cores = s.cores := rfl
@[simp] theorem slices_setCluster (s : State) (i : Nat) (x : Cluster) : (s.setCluster i x).slices = s.slices := rfl
@[simp] theorem dies_setCluster (s : State) (i : Nat) (x : Cluster) : (s.setCluster i x).dies = s.dies := rfl
@[simp] theorem bolts_setCluster (s : State) (i : Nat) (x : Cluster) : (s.setCluster i x).bolts = s.bolts := rfl
@[simp] theorem blocks_setCluster (s : State) (i : Nat) (x : Cluster) : (s.setCluster i x).blocks = s.blocks := rfl
@[simp] theorem launches_setCluster (s : State) (i : Nat) (x : Cluster) : (s.setCluster i x).launches = s.launches := rfl
@[simp] theorem saved_setCluster (s : State) (i : Nat) (x : Cluster) : (s.setCluster i x).saved = s.saved := rfl
@[simp] theorem dram_setCluster (s : State) (i : Nat) (x : Cluster) : (s.setCluster i x).dram = s.dram := rfl
@[simp] theorem claims_setCluster (s : State) (i : Nat) (x : Cluster) : (s.setCluster i x).claims = s.claims := rfl
@[simp] theorem fused_setCluster (s : State) (i : Nat) (x : Cluster) : (s.setCluster i x).fused = s.fused := rfl
@[simp] theorem gtime_setCluster (s : State) (i : Nat) (x : Cluster) : (s.setCluster i x).gtime = s.gtime := rfl
@[simp] theorem completions_setCluster (s : State) (i : Nat) (x : Cluster) : (s.setCluster i x).completions = s.completions := rfl
@[simp] theorem replies_setCluster (s : State) (i : Nat) (x : Cluster) : (s.setCluster i x).replies = s.replies := rfl
@[simp] theorem msgs_setCluster (s : State) (i : Nat) (x : Cluster) : (s.setCluster i x).msgs = s.msgs := rfl
@[simp] theorem pwords_setCluster (s : State) (i : Nat) (x : Cluster) : (s.setCluster i x).pwords = s.pwords := rfl
@[simp] theorem xwords_setCluster (s : State) (i : Nat) (x : Cluster) : (s.setCluster i x).xwords = s.xwords := rfl
@[simp] theorem storeFaults_setCluster (s : State) (i : Nat) (x : Cluster) : (s.setCluster i x).storeFaults = s.storeFaults := rfl
@[simp] theorem reports_setCluster (s : State) (i : Nat) (x : Cluster) : (s.setCluster i x).reports = s.reports := rfl
@[simp] theorem lanes_setCluster (s : State) (i : Nat) (x : Cluster) : (s.setCluster i x).lanes = s.lanes := rfl
@[simp] theorem grants_setCluster (s : State) (i : Nat) (x : Cluster) : (s.setCluster i x).grants = s.grants := rfl
@[simp] theorem boot_setCluster (s : State) (i : Nat) (x : Cluster) : (s.setCluster i x).boot = s.boot := rfl
@[simp] theorem bootDigest_setCluster (s : State) (i : Nat) (x : Cluster) : (s.setCluster i x).bootDigest = s.bootDigest := rfl
@[simp] theorem hypervisor_setCluster (s : State) (i : Nat) (x : Cluster) : (s.setCluster i x).hypervisor = s.hypervisor := rfl
@[simp] theorem powerLimit_setCluster (s : State) (i : Nat) (x : Cluster) : (s.setCluster i x).powerLimit = s.powerLimit := rfl
@[simp] theorem dieTemps_setCluster (s : State) (i : Nat) (x : Cluster) : (s.setCluster i x).dieTemps = s.dieTemps := rfl
@[simp] theorem refLane_setCluster (s : State) (i : Nat) (x : Cluster) : (s.setCluster i x).refLane = s.refLane := rfl
@[simp] theorem joined_setCluster (s : State) (i : Nat) (x : Cluster) : (s.setCluster i x).joined = s.joined := rfl
@[simp] theorem checkpoints_setCluster (s : State) (i : Nat) (x : Cluster) : (s.setCluster i x).checkpoints = s.checkpoints := rfl
@[simp] theorem slewAt_setCluster (s : State) (i : Nat) (x : Cluster) : (s.setCluster i x).slewAt = s.slewAt := rfl
@[simp] theorem parked_setCluster (s : State) (i : Nat) (x : Cluster) : (s.setCluster i x).parked = s.parked := rfl
@[simp] theorem forward_setCluster (s : State) (i : Nat) (x : Cluster) : (s.setCluster i x).forward = s.forward := rfl
@[simp] theorem sched_setCluster (s : State) (i : Nat) (x : Cluster) : (s.setCluster i x).sched = s.sched := rfl
@[simp] theorem delays_setCluster (s : State) (i : Nat) (x : Cluster) : (s.setCluster i x).delays = s.delays := rfl
@[simp] theorem accs_setCluster (s : State) (i : Nat) (x : Cluster) : (s.setCluster i x).accs = s.accs := rfl
@[simp] theorem peerReplies_setCluster (s : State) (i : Nat) (x : Cluster) : (s.setCluster i x).peerReplies = s.peerReplies := rfl
@[simp] theorem bootFailed_setCluster (s : State) (i : Nat) (x : Cluster) : (s.setCluster i x).bootFailed = s.bootFailed := rfl
@[simp] theorem bootReports_setCluster (s : State) (i : Nat) (x : Cluster) : (s.setCluster i x).bootReports = s.bootReports := rfl
@[simp] theorem discovery_setCluster (s : State) (i : Nat) (x : Cluster) : (s.setCluster i x).discovery = s.discovery := rfl
@[simp] theorem selfTest_setCluster (s : State) (i : Nat) (x : Cluster) : (s.setCluster i x).selfTest = s.selfTest := rfl
@[simp] theorem rolnisRoot_setCluster (s : State) (i : Nat) (x : Cluster) : (s.setCluster i x).rolnisRoot = s.rolnisRoot := rfl
@[simp] theorem rolnisEntry_setCluster (s : State) (i : Nat) (x : Cluster) : (s.setCluster i x).rolnisEntry = s.rolnisEntry := rfl
@[simp] theorem sysBolt_setCluster (s : State) (i : Nat) (x : Cluster) : (s.setCluster i x).sysBolt = s.sysBolt := rfl
@[simp] theorem reference_setCluster (s : State) (i : Nat) (x : Cluster) : (s.setCluster i x).reference = s.reference := rfl
@[simp] theorem behindBy_setCluster (s : State) (i : Nat) (x : Cluster) : (s.setCluster i x).behindBy = s.behindBy := rfl
@[simp] theorem syncAt_setCluster (s : State) (i : Nat) (x : Cluster) : (s.setCluster i x).syncAt = s.syncAt := rfl
@[simp] theorem crcFails_setCluster (s : State) (i : Nat) (x : Cluster) : (s.setCluster i x).crcFails = s.crcFails := rfl
@[simp] theorem lanesTold_setCluster (s : State) (i : Nat) (x : Cluster) : (s.setCluster i x).lanesTold = s.lanesTold := rfl
@[simp] theorem recallsTold_setCluster (s : State) (i : Nat) (x : Cluster) : (s.setCluster i x).recallsTold = s.recallsTold := rfl
@[simp] theorem traces_setCluster (s : State) (i : Nat) (x : Cluster) : (s.setCluster i x).traces = s.traces := rfl
@[simp] theorem pkts_setCluster (s : State) (i : Nat) (x : Cluster) : (s.setCluster i x).pkts = s.pkts := rfl
@[simp] theorem free_setCluster (s : State) (i : Nat) (x : Cluster) : (s.setCluster i x).free = s.free := rfl
@[simp] theorem slice_setCluster (s : State) (i : Nat) (x : Cluster) (j : Nat) : (s.setCluster i x).slice j = s.slice j := rfl
@[simp] theorem die_setCluster (s : State) (i : Nat) (x : Cluster) (j : Nat) : (s.setCluster i x).die j = s.die j := rfl

/-! ## `setSlice` -/

@[simp] theorem threads_setSlice (s : State) (i : Nat) (x : Slice) : (s.setSlice i x).threads = s.threads := rfl
@[simp] theorem cores_setSlice (s : State) (i : Nat) (x : Slice) : (s.setSlice i x).cores = s.cores := rfl
@[simp] theorem clusters_setSlice (s : State) (i : Nat) (x : Slice) : (s.setSlice i x).clusters = s.clusters := rfl
@[simp] theorem dies_setSlice (s : State) (i : Nat) (x : Slice) : (s.setSlice i x).dies = s.dies := rfl
@[simp] theorem bolts_setSlice (s : State) (i : Nat) (x : Slice) : (s.setSlice i x).bolts = s.bolts := rfl
@[simp] theorem blocks_setSlice (s : State) (i : Nat) (x : Slice) : (s.setSlice i x).blocks = s.blocks := rfl
@[simp] theorem launches_setSlice (s : State) (i : Nat) (x : Slice) : (s.setSlice i x).launches = s.launches := rfl
@[simp] theorem saved_setSlice (s : State) (i : Nat) (x : Slice) : (s.setSlice i x).saved = s.saved := rfl
@[simp] theorem dram_setSlice (s : State) (i : Nat) (x : Slice) : (s.setSlice i x).dram = s.dram := rfl
@[simp] theorem claims_setSlice (s : State) (i : Nat) (x : Slice) : (s.setSlice i x).claims = s.claims := rfl
@[simp] theorem fused_setSlice (s : State) (i : Nat) (x : Slice) : (s.setSlice i x).fused = s.fused := rfl
@[simp] theorem gtime_setSlice (s : State) (i : Nat) (x : Slice) : (s.setSlice i x).gtime = s.gtime := rfl
@[simp] theorem completions_setSlice (s : State) (i : Nat) (x : Slice) : (s.setSlice i x).completions = s.completions := rfl
@[simp] theorem replies_setSlice (s : State) (i : Nat) (x : Slice) : (s.setSlice i x).replies = s.replies := rfl
@[simp] theorem msgs_setSlice (s : State) (i : Nat) (x : Slice) : (s.setSlice i x).msgs = s.msgs := rfl
@[simp] theorem pwords_setSlice (s : State) (i : Nat) (x : Slice) : (s.setSlice i x).pwords = s.pwords := rfl
@[simp] theorem xwords_setSlice (s : State) (i : Nat) (x : Slice) : (s.setSlice i x).xwords = s.xwords := rfl
@[simp] theorem storeFaults_setSlice (s : State) (i : Nat) (x : Slice) : (s.setSlice i x).storeFaults = s.storeFaults := rfl
@[simp] theorem reports_setSlice (s : State) (i : Nat) (x : Slice) : (s.setSlice i x).reports = s.reports := rfl
@[simp] theorem lanes_setSlice (s : State) (i : Nat) (x : Slice) : (s.setSlice i x).lanes = s.lanes := rfl
@[simp] theorem grants_setSlice (s : State) (i : Nat) (x : Slice) : (s.setSlice i x).grants = s.grants := rfl
@[simp] theorem boot_setSlice (s : State) (i : Nat) (x : Slice) : (s.setSlice i x).boot = s.boot := rfl
@[simp] theorem bootDigest_setSlice (s : State) (i : Nat) (x : Slice) : (s.setSlice i x).bootDigest = s.bootDigest := rfl
@[simp] theorem hypervisor_setSlice (s : State) (i : Nat) (x : Slice) : (s.setSlice i x).hypervisor = s.hypervisor := rfl
@[simp] theorem powerLimit_setSlice (s : State) (i : Nat) (x : Slice) : (s.setSlice i x).powerLimit = s.powerLimit := rfl
@[simp] theorem dieTemps_setSlice (s : State) (i : Nat) (x : Slice) : (s.setSlice i x).dieTemps = s.dieTemps := rfl
@[simp] theorem refLane_setSlice (s : State) (i : Nat) (x : Slice) : (s.setSlice i x).refLane = s.refLane := rfl
@[simp] theorem joined_setSlice (s : State) (i : Nat) (x : Slice) : (s.setSlice i x).joined = s.joined := rfl
@[simp] theorem checkpoints_setSlice (s : State) (i : Nat) (x : Slice) : (s.setSlice i x).checkpoints = s.checkpoints := rfl
@[simp] theorem slewAt_setSlice (s : State) (i : Nat) (x : Slice) : (s.setSlice i x).slewAt = s.slewAt := rfl
@[simp] theorem parked_setSlice (s : State) (i : Nat) (x : Slice) : (s.setSlice i x).parked = s.parked := rfl
@[simp] theorem cur_setSlice (s : State) (i : Nat) (x : Slice) : (s.setSlice i x).cur = s.cur := rfl
@[simp] theorem forward_setSlice (s : State) (i : Nat) (x : Slice) : (s.setSlice i x).forward = s.forward := rfl
@[simp] theorem sched_setSlice (s : State) (i : Nat) (x : Slice) : (s.setSlice i x).sched = s.sched := rfl
@[simp] theorem delays_setSlice (s : State) (i : Nat) (x : Slice) : (s.setSlice i x).delays = s.delays := rfl
@[simp] theorem accs_setSlice (s : State) (i : Nat) (x : Slice) : (s.setSlice i x).accs = s.accs := rfl
@[simp] theorem peerReplies_setSlice (s : State) (i : Nat) (x : Slice) : (s.setSlice i x).peerReplies = s.peerReplies := rfl
@[simp] theorem bootFailed_setSlice (s : State) (i : Nat) (x : Slice) : (s.setSlice i x).bootFailed = s.bootFailed := rfl
@[simp] theorem bootReports_setSlice (s : State) (i : Nat) (x : Slice) : (s.setSlice i x).bootReports = s.bootReports := rfl
@[simp] theorem discovery_setSlice (s : State) (i : Nat) (x : Slice) : (s.setSlice i x).discovery = s.discovery := rfl
@[simp] theorem selfTest_setSlice (s : State) (i : Nat) (x : Slice) : (s.setSlice i x).selfTest = s.selfTest := rfl
@[simp] theorem rolnisRoot_setSlice (s : State) (i : Nat) (x : Slice) : (s.setSlice i x).rolnisRoot = s.rolnisRoot := rfl
@[simp] theorem rolnisEntry_setSlice (s : State) (i : Nat) (x : Slice) : (s.setSlice i x).rolnisEntry = s.rolnisEntry := rfl
@[simp] theorem sysBolt_setSlice (s : State) (i : Nat) (x : Slice) : (s.setSlice i x).sysBolt = s.sysBolt := rfl
@[simp] theorem reference_setSlice (s : State) (i : Nat) (x : Slice) : (s.setSlice i x).reference = s.reference := rfl
@[simp] theorem behindBy_setSlice (s : State) (i : Nat) (x : Slice) : (s.setSlice i x).behindBy = s.behindBy := rfl
@[simp] theorem syncAt_setSlice (s : State) (i : Nat) (x : Slice) : (s.setSlice i x).syncAt = s.syncAt := rfl
@[simp] theorem crcFails_setSlice (s : State) (i : Nat) (x : Slice) : (s.setSlice i x).crcFails = s.crcFails := rfl
@[simp] theorem lanesTold_setSlice (s : State) (i : Nat) (x : Slice) : (s.setSlice i x).lanesTold = s.lanesTold := rfl
@[simp] theorem recallsTold_setSlice (s : State) (i : Nat) (x : Slice) : (s.setSlice i x).recallsTold = s.recallsTold := rfl
@[simp] theorem traces_setSlice (s : State) (i : Nat) (x : Slice) : (s.setSlice i x).traces = s.traces := rfl
@[simp] theorem pkts_setSlice (s : State) (i : Nat) (x : Slice) : (s.setSlice i x).pkts = s.pkts := rfl
@[simp] theorem free_setSlice (s : State) (i : Nat) (x : Slice) : (s.setSlice i x).free = s.free := rfl
@[simp] theorem thread_setSlice (s : State) (i : Nat) (x : Slice) (j : Nat) : (s.setSlice i x).thread j = s.thread j := rfl
@[simp] theorem core_setSlice (s : State) (i : Nat) (x : Slice) (j : Nat) : (s.setSlice i x).core j = s.core j := rfl
@[simp] theorem cluster_setSlice (s : State) (i : Nat) (x : Slice) (j : Nat) : (s.setSlice i x).cluster j = s.cluster j := rfl
@[simp] theorem die_setSlice (s : State) (i : Nat) (x : Slice) (j : Nat) : (s.setSlice i x).die j = s.die j := rfl
@[simp] theorem bolt_setSlice (s : State) (i : Nat) (x : Slice) (j : Nat) : (s.setSlice i x).bolt j = s.bolt j := rfl

/-! ## `setDie` -/

@[simp] theorem threads_setDie (s : State) (i : Nat) (x : Die) : (s.setDie i x).threads = s.threads := rfl
@[simp] theorem cores_setDie (s : State) (i : Nat) (x : Die) : (s.setDie i x).cores = s.cores := rfl
@[simp] theorem clusters_setDie (s : State) (i : Nat) (x : Die) : (s.setDie i x).clusters = s.clusters := rfl
@[simp] theorem slices_setDie (s : State) (i : Nat) (x : Die) : (s.setDie i x).slices = s.slices := rfl
@[simp] theorem bolts_setDie (s : State) (i : Nat) (x : Die) : (s.setDie i x).bolts = s.bolts := rfl
@[simp] theorem blocks_setDie (s : State) (i : Nat) (x : Die) : (s.setDie i x).blocks = s.blocks := rfl
@[simp] theorem launches_setDie (s : State) (i : Nat) (x : Die) : (s.setDie i x).launches = s.launches := rfl
@[simp] theorem saved_setDie (s : State) (i : Nat) (x : Die) : (s.setDie i x).saved = s.saved := rfl
@[simp] theorem dram_setDie (s : State) (i : Nat) (x : Die) : (s.setDie i x).dram = s.dram := rfl
@[simp] theorem claims_setDie (s : State) (i : Nat) (x : Die) : (s.setDie i x).claims = s.claims := rfl
@[simp] theorem fused_setDie (s : State) (i : Nat) (x : Die) : (s.setDie i x).fused = s.fused := rfl
@[simp] theorem gtime_setDie (s : State) (i : Nat) (x : Die) : (s.setDie i x).gtime = s.gtime := rfl
@[simp] theorem completions_setDie (s : State) (i : Nat) (x : Die) : (s.setDie i x).completions = s.completions := rfl
@[simp] theorem replies_setDie (s : State) (i : Nat) (x : Die) : (s.setDie i x).replies = s.replies := rfl
@[simp] theorem msgs_setDie (s : State) (i : Nat) (x : Die) : (s.setDie i x).msgs = s.msgs := rfl
@[simp] theorem pwords_setDie (s : State) (i : Nat) (x : Die) : (s.setDie i x).pwords = s.pwords := rfl
@[simp] theorem xwords_setDie (s : State) (i : Nat) (x : Die) : (s.setDie i x).xwords = s.xwords := rfl
@[simp] theorem storeFaults_setDie (s : State) (i : Nat) (x : Die) : (s.setDie i x).storeFaults = s.storeFaults := rfl
@[simp] theorem reports_setDie (s : State) (i : Nat) (x : Die) : (s.setDie i x).reports = s.reports := rfl
@[simp] theorem lanes_setDie (s : State) (i : Nat) (x : Die) : (s.setDie i x).lanes = s.lanes := rfl
@[simp] theorem grants_setDie (s : State) (i : Nat) (x : Die) : (s.setDie i x).grants = s.grants := rfl
@[simp] theorem boot_setDie (s : State) (i : Nat) (x : Die) : (s.setDie i x).boot = s.boot := rfl
@[simp] theorem bootDigest_setDie (s : State) (i : Nat) (x : Die) : (s.setDie i x).bootDigest = s.bootDigest := rfl
@[simp] theorem hypervisor_setDie (s : State) (i : Nat) (x : Die) : (s.setDie i x).hypervisor = s.hypervisor := rfl
@[simp] theorem powerLimit_setDie (s : State) (i : Nat) (x : Die) : (s.setDie i x).powerLimit = s.powerLimit := rfl
@[simp] theorem dieTemps_setDie (s : State) (i : Nat) (x : Die) : (s.setDie i x).dieTemps = s.dieTemps := rfl
@[simp] theorem refLane_setDie (s : State) (i : Nat) (x : Die) : (s.setDie i x).refLane = s.refLane := rfl
@[simp] theorem joined_setDie (s : State) (i : Nat) (x : Die) : (s.setDie i x).joined = s.joined := rfl
@[simp] theorem checkpoints_setDie (s : State) (i : Nat) (x : Die) : (s.setDie i x).checkpoints = s.checkpoints := rfl
@[simp] theorem slewAt_setDie (s : State) (i : Nat) (x : Die) : (s.setDie i x).slewAt = s.slewAt := rfl
@[simp] theorem parked_setDie (s : State) (i : Nat) (x : Die) : (s.setDie i x).parked = s.parked := rfl
@[simp] theorem cur_setDie (s : State) (i : Nat) (x : Die) : (s.setDie i x).cur = s.cur := rfl
@[simp] theorem forward_setDie (s : State) (i : Nat) (x : Die) : (s.setDie i x).forward = s.forward := rfl
@[simp] theorem sched_setDie (s : State) (i : Nat) (x : Die) : (s.setDie i x).sched = s.sched := rfl
@[simp] theorem delays_setDie (s : State) (i : Nat) (x : Die) : (s.setDie i x).delays = s.delays := rfl
@[simp] theorem accs_setDie (s : State) (i : Nat) (x : Die) : (s.setDie i x).accs = s.accs := rfl
@[simp] theorem peerReplies_setDie (s : State) (i : Nat) (x : Die) : (s.setDie i x).peerReplies = s.peerReplies := rfl
@[simp] theorem bootFailed_setDie (s : State) (i : Nat) (x : Die) : (s.setDie i x).bootFailed = s.bootFailed := rfl
@[simp] theorem bootReports_setDie (s : State) (i : Nat) (x : Die) : (s.setDie i x).bootReports = s.bootReports := rfl
@[simp] theorem discovery_setDie (s : State) (i : Nat) (x : Die) : (s.setDie i x).discovery = s.discovery := rfl
@[simp] theorem selfTest_setDie (s : State) (i : Nat) (x : Die) : (s.setDie i x).selfTest = s.selfTest := rfl
@[simp] theorem rolnisRoot_setDie (s : State) (i : Nat) (x : Die) : (s.setDie i x).rolnisRoot = s.rolnisRoot := rfl
@[simp] theorem rolnisEntry_setDie (s : State) (i : Nat) (x : Die) : (s.setDie i x).rolnisEntry = s.rolnisEntry := rfl
@[simp] theorem sysBolt_setDie (s : State) (i : Nat) (x : Die) : (s.setDie i x).sysBolt = s.sysBolt := rfl
@[simp] theorem reference_setDie (s : State) (i : Nat) (x : Die) : (s.setDie i x).reference = s.reference := rfl
@[simp] theorem behindBy_setDie (s : State) (i : Nat) (x : Die) : (s.setDie i x).behindBy = s.behindBy := rfl
@[simp] theorem syncAt_setDie (s : State) (i : Nat) (x : Die) : (s.setDie i x).syncAt = s.syncAt := rfl
@[simp] theorem crcFails_setDie (s : State) (i : Nat) (x : Die) : (s.setDie i x).crcFails = s.crcFails := rfl
@[simp] theorem lanesTold_setDie (s : State) (i : Nat) (x : Die) : (s.setDie i x).lanesTold = s.lanesTold := rfl
@[simp] theorem recallsTold_setDie (s : State) (i : Nat) (x : Die) : (s.setDie i x).recallsTold = s.recallsTold := rfl
@[simp] theorem traces_setDie (s : State) (i : Nat) (x : Die) : (s.setDie i x).traces = s.traces := rfl
@[simp] theorem pkts_setDie (s : State) (i : Nat) (x : Die) : (s.setDie i x).pkts = s.pkts := rfl
@[simp] theorem free_setDie (s : State) (i : Nat) (x : Die) : (s.setDie i x).free = s.free := rfl
@[simp] theorem thread_setDie (s : State) (i : Nat) (x : Die) (j : Nat) : (s.setDie i x).thread j = s.thread j := rfl
@[simp] theorem core_setDie (s : State) (i : Nat) (x : Die) (j : Nat) : (s.setDie i x).core j = s.core j := rfl
@[simp] theorem cluster_setDie (s : State) (i : Nat) (x : Die) (j : Nat) : (s.setDie i x).cluster j = s.cluster j := rfl
@[simp] theorem slice_setDie (s : State) (i : Nat) (x : Die) (j : Nat) : (s.setDie i x).slice j = s.slice j := rfl
@[simp] theorem bolt_setDie (s : State) (i : Nat) (x : Die) (j : Nat) : (s.setDie i x).bolt j = s.bolt j := rfl

/-! ## `setBolt` -/

@[simp] theorem threads_setBolt (s : State) (i : Nat) (x : Bolt) : (s.setBolt i x).threads = s.threads := rfl
@[simp] theorem cores_setBolt (s : State) (i : Nat) (x : Bolt) : (s.setBolt i x).cores = s.cores := rfl
@[simp] theorem clusters_setBolt (s : State) (i : Nat) (x : Bolt) : (s.setBolt i x).clusters = s.clusters := rfl
@[simp] theorem slices_setBolt (s : State) (i : Nat) (x : Bolt) : (s.setBolt i x).slices = s.slices := rfl
@[simp] theorem dies_setBolt (s : State) (i : Nat) (x : Bolt) : (s.setBolt i x).dies = s.dies := rfl
@[simp] theorem blocks_setBolt (s : State) (i : Nat) (x : Bolt) : (s.setBolt i x).blocks = s.blocks := rfl
@[simp] theorem launches_setBolt (s : State) (i : Nat) (x : Bolt) : (s.setBolt i x).launches = s.launches := rfl
@[simp] theorem saved_setBolt (s : State) (i : Nat) (x : Bolt) : (s.setBolt i x).saved = s.saved := rfl
@[simp] theorem dram_setBolt (s : State) (i : Nat) (x : Bolt) : (s.setBolt i x).dram = s.dram := rfl
@[simp] theorem claims_setBolt (s : State) (i : Nat) (x : Bolt) : (s.setBolt i x).claims = s.claims := rfl
@[simp] theorem fused_setBolt (s : State) (i : Nat) (x : Bolt) : (s.setBolt i x).fused = s.fused := rfl
@[simp] theorem gtime_setBolt (s : State) (i : Nat) (x : Bolt) : (s.setBolt i x).gtime = s.gtime := rfl
@[simp] theorem completions_setBolt (s : State) (i : Nat) (x : Bolt) : (s.setBolt i x).completions = s.completions := rfl
@[simp] theorem replies_setBolt (s : State) (i : Nat) (x : Bolt) : (s.setBolt i x).replies = s.replies := rfl
@[simp] theorem msgs_setBolt (s : State) (i : Nat) (x : Bolt) : (s.setBolt i x).msgs = s.msgs := rfl
@[simp] theorem pwords_setBolt (s : State) (i : Nat) (x : Bolt) : (s.setBolt i x).pwords = s.pwords := rfl
@[simp] theorem xwords_setBolt (s : State) (i : Nat) (x : Bolt) : (s.setBolt i x).xwords = s.xwords := rfl
@[simp] theorem storeFaults_setBolt (s : State) (i : Nat) (x : Bolt) : (s.setBolt i x).storeFaults = s.storeFaults := rfl
@[simp] theorem reports_setBolt (s : State) (i : Nat) (x : Bolt) : (s.setBolt i x).reports = s.reports := rfl
@[simp] theorem lanes_setBolt (s : State) (i : Nat) (x : Bolt) : (s.setBolt i x).lanes = s.lanes := rfl
@[simp] theorem grants_setBolt (s : State) (i : Nat) (x : Bolt) : (s.setBolt i x).grants = s.grants := rfl
@[simp] theorem boot_setBolt (s : State) (i : Nat) (x : Bolt) : (s.setBolt i x).boot = s.boot := rfl
@[simp] theorem bootDigest_setBolt (s : State) (i : Nat) (x : Bolt) : (s.setBolt i x).bootDigest = s.bootDigest := rfl
@[simp] theorem hypervisor_setBolt (s : State) (i : Nat) (x : Bolt) : (s.setBolt i x).hypervisor = s.hypervisor := rfl
@[simp] theorem powerLimit_setBolt (s : State) (i : Nat) (x : Bolt) : (s.setBolt i x).powerLimit = s.powerLimit := rfl
@[simp] theorem dieTemps_setBolt (s : State) (i : Nat) (x : Bolt) : (s.setBolt i x).dieTemps = s.dieTemps := rfl
@[simp] theorem refLane_setBolt (s : State) (i : Nat) (x : Bolt) : (s.setBolt i x).refLane = s.refLane := rfl
@[simp] theorem joined_setBolt (s : State) (i : Nat) (x : Bolt) : (s.setBolt i x).joined = s.joined := rfl
@[simp] theorem checkpoints_setBolt (s : State) (i : Nat) (x : Bolt) : (s.setBolt i x).checkpoints = s.checkpoints := rfl
@[simp] theorem slewAt_setBolt (s : State) (i : Nat) (x : Bolt) : (s.setBolt i x).slewAt = s.slewAt := rfl
@[simp] theorem parked_setBolt (s : State) (i : Nat) (x : Bolt) : (s.setBolt i x).parked = s.parked := rfl
@[simp] theorem forward_setBolt (s : State) (i : Nat) (x : Bolt) : (s.setBolt i x).forward = s.forward := rfl
@[simp] theorem sched_setBolt (s : State) (i : Nat) (x : Bolt) : (s.setBolt i x).sched = s.sched := rfl
@[simp] theorem delays_setBolt (s : State) (i : Nat) (x : Bolt) : (s.setBolt i x).delays = s.delays := rfl
@[simp] theorem accs_setBolt (s : State) (i : Nat) (x : Bolt) : (s.setBolt i x).accs = s.accs := rfl
@[simp] theorem peerReplies_setBolt (s : State) (i : Nat) (x : Bolt) : (s.setBolt i x).peerReplies = s.peerReplies := rfl
@[simp] theorem bootFailed_setBolt (s : State) (i : Nat) (x : Bolt) : (s.setBolt i x).bootFailed = s.bootFailed := rfl
@[simp] theorem bootReports_setBolt (s : State) (i : Nat) (x : Bolt) : (s.setBolt i x).bootReports = s.bootReports := rfl
@[simp] theorem discovery_setBolt (s : State) (i : Nat) (x : Bolt) : (s.setBolt i x).discovery = s.discovery := rfl
@[simp] theorem selfTest_setBolt (s : State) (i : Nat) (x : Bolt) : (s.setBolt i x).selfTest = s.selfTest := rfl
@[simp] theorem rolnisRoot_setBolt (s : State) (i : Nat) (x : Bolt) : (s.setBolt i x).rolnisRoot = s.rolnisRoot := rfl
@[simp] theorem rolnisEntry_setBolt (s : State) (i : Nat) (x : Bolt) : (s.setBolt i x).rolnisEntry = s.rolnisEntry := rfl
@[simp] theorem sysBolt_setBolt (s : State) (i : Nat) (x : Bolt) : (s.setBolt i x).sysBolt = s.sysBolt := rfl
@[simp] theorem reference_setBolt (s : State) (i : Nat) (x : Bolt) : (s.setBolt i x).reference = s.reference := rfl
@[simp] theorem behindBy_setBolt (s : State) (i : Nat) (x : Bolt) : (s.setBolt i x).behindBy = s.behindBy := rfl
@[simp] theorem syncAt_setBolt (s : State) (i : Nat) (x : Bolt) : (s.setBolt i x).syncAt = s.syncAt := rfl
@[simp] theorem crcFails_setBolt (s : State) (i : Nat) (x : Bolt) : (s.setBolt i x).crcFails = s.crcFails := rfl
@[simp] theorem lanesTold_setBolt (s : State) (i : Nat) (x : Bolt) : (s.setBolt i x).lanesTold = s.lanesTold := rfl
@[simp] theorem recallsTold_setBolt (s : State) (i : Nat) (x : Bolt) : (s.setBolt i x).recallsTold = s.recallsTold := rfl
@[simp] theorem traces_setBolt (s : State) (i : Nat) (x : Bolt) : (s.setBolt i x).traces = s.traces := rfl
@[simp] theorem pkts_setBolt (s : State) (i : Nat) (x : Bolt) : (s.setBolt i x).pkts = s.pkts := rfl
@[simp] theorem free_setBolt (s : State) (i : Nat) (x : Bolt) : (s.setBolt i x).free = s.free := rfl
@[simp] theorem slice_setBolt (s : State) (i : Nat) (x : Bolt) (j : Nat) : (s.setBolt i x).slice j = s.slice j := rfl
@[simp] theorem die_setBolt (s : State) (i : Nat) (x : Bolt) (j : Nat) : (s.setBolt i x).die j = s.die j := rfl

/-! ## `setT` -/

@[simp] theorem cores_setT (s : State) (x : Thread) : (s.setT x).cores = s.cores := rfl
@[simp] theorem clusters_setT (s : State) (x : Thread) : (s.setT x).clusters = s.clusters := rfl
@[simp] theorem slices_setT (s : State) (x : Thread) : (s.setT x).slices = s.slices := rfl
@[simp] theorem dies_setT (s : State) (x : Thread) : (s.setT x).dies = s.dies := rfl
@[simp] theorem bolts_setT (s : State) (x : Thread) : (s.setT x).bolts = s.bolts := rfl
@[simp] theorem blocks_setT (s : State) (x : Thread) : (s.setT x).blocks = s.blocks := rfl
@[simp] theorem launches_setT (s : State) (x : Thread) : (s.setT x).launches = s.launches := rfl
@[simp] theorem saved_setT (s : State) (x : Thread) : (s.setT x).saved = s.saved := rfl
@[simp] theorem dram_setT (s : State) (x : Thread) : (s.setT x).dram = s.dram := rfl
@[simp] theorem claims_setT (s : State) (x : Thread) : (s.setT x).claims = s.claims := rfl
@[simp] theorem fused_setT (s : State) (x : Thread) : (s.setT x).fused = s.fused := rfl
@[simp] theorem gtime_setT (s : State) (x : Thread) : (s.setT x).gtime = s.gtime := rfl
@[simp] theorem completions_setT (s : State) (x : Thread) : (s.setT x).completions = s.completions := rfl
@[simp] theorem replies_setT (s : State) (x : Thread) : (s.setT x).replies = s.replies := rfl
@[simp] theorem msgs_setT (s : State) (x : Thread) : (s.setT x).msgs = s.msgs := rfl
@[simp] theorem pwords_setT (s : State) (x : Thread) : (s.setT x).pwords = s.pwords := rfl
@[simp] theorem xwords_setT (s : State) (x : Thread) : (s.setT x).xwords = s.xwords := rfl
@[simp] theorem storeFaults_setT (s : State) (x : Thread) : (s.setT x).storeFaults = s.storeFaults := rfl
@[simp] theorem reports_setT (s : State) (x : Thread) : (s.setT x).reports = s.reports := rfl
@[simp] theorem lanes_setT (s : State) (x : Thread) : (s.setT x).lanes = s.lanes := rfl
@[simp] theorem grants_setT (s : State) (x : Thread) : (s.setT x).grants = s.grants := rfl
@[simp] theorem boot_setT (s : State) (x : Thread) : (s.setT x).boot = s.boot := rfl
@[simp] theorem bootDigest_setT (s : State) (x : Thread) : (s.setT x).bootDigest = s.bootDigest := rfl
@[simp] theorem hypervisor_setT (s : State) (x : Thread) : (s.setT x).hypervisor = s.hypervisor := rfl
@[simp] theorem powerLimit_setT (s : State) (x : Thread) : (s.setT x).powerLimit = s.powerLimit := rfl
@[simp] theorem dieTemps_setT (s : State) (x : Thread) : (s.setT x).dieTemps = s.dieTemps := rfl
@[simp] theorem refLane_setT (s : State) (x : Thread) : (s.setT x).refLane = s.refLane := rfl
@[simp] theorem joined_setT (s : State) (x : Thread) : (s.setT x).joined = s.joined := rfl
@[simp] theorem checkpoints_setT (s : State) (x : Thread) : (s.setT x).checkpoints = s.checkpoints := rfl
@[simp] theorem slewAt_setT (s : State) (x : Thread) : (s.setT x).slewAt = s.slewAt := rfl
@[simp] theorem parked_setT (s : State) (x : Thread) : (s.setT x).parked = s.parked := rfl
@[simp] theorem forward_setT (s : State) (x : Thread) : (s.setT x).forward = s.forward := rfl
@[simp] theorem sched_setT (s : State) (x : Thread) : (s.setT x).sched = s.sched := rfl
@[simp] theorem delays_setT (s : State) (x : Thread) : (s.setT x).delays = s.delays := rfl
@[simp] theorem accs_setT (s : State) (x : Thread) : (s.setT x).accs = s.accs := rfl
@[simp] theorem peerReplies_setT (s : State) (x : Thread) : (s.setT x).peerReplies = s.peerReplies := rfl
@[simp] theorem bootFailed_setT (s : State) (x : Thread) : (s.setT x).bootFailed = s.bootFailed := rfl
@[simp] theorem bootReports_setT (s : State) (x : Thread) : (s.setT x).bootReports = s.bootReports := rfl
@[simp] theorem discovery_setT (s : State) (x : Thread) : (s.setT x).discovery = s.discovery := rfl
@[simp] theorem selfTest_setT (s : State) (x : Thread) : (s.setT x).selfTest = s.selfTest := rfl
@[simp] theorem rolnisRoot_setT (s : State) (x : Thread) : (s.setT x).rolnisRoot = s.rolnisRoot := rfl
@[simp] theorem rolnisEntry_setT (s : State) (x : Thread) : (s.setT x).rolnisEntry = s.rolnisEntry := rfl
@[simp] theorem sysBolt_setT (s : State) (x : Thread) : (s.setT x).sysBolt = s.sysBolt := rfl
@[simp] theorem reference_setT (s : State) (x : Thread) : (s.setT x).reference = s.reference := rfl
@[simp] theorem behindBy_setT (s : State) (x : Thread) : (s.setT x).behindBy = s.behindBy := rfl
@[simp] theorem syncAt_setT (s : State) (x : Thread) : (s.setT x).syncAt = s.syncAt := rfl
@[simp] theorem crcFails_setT (s : State) (x : Thread) : (s.setT x).crcFails = s.crcFails := rfl
@[simp] theorem lanesTold_setT (s : State) (x : Thread) : (s.setT x).lanesTold = s.lanesTold := rfl
@[simp] theorem recallsTold_setT (s : State) (x : Thread) : (s.setT x).recallsTold = s.recallsTold := rfl
@[simp] theorem traces_setT (s : State) (x : Thread) : (s.setT x).traces = s.traces := rfl
@[simp] theorem pkts_setT (s : State) (x : Thread) : (s.setT x).pkts = s.pkts := rfl
@[simp] theorem free_setT (s : State) (x : Thread) : (s.setT x).free = s.free := rfl
@[simp] theorem core_setT (s : State) (x : Thread) (j : Nat) : (s.setT x).core j = s.core j := rfl
@[simp] theorem cluster_setT (s : State) (x : Thread) (j : Nat) : (s.setT x).cluster j = s.cluster j := rfl
@[simp] theorem slice_setT (s : State) (x : Thread) (j : Nat) : (s.setT x).slice j = s.slice j := rfl
@[simp] theorem die_setT (s : State) (x : Thread) (j : Nat) : (s.setT x).die j = s.die j := rfl
@[simp] theorem bolt_setT (s : State) (x : Thread) (j : Nat) : (s.setT x).bolt j = s.bolt j := rfl

/-! ## `setC` -/

@[simp] theorem threads_setC (s : State) (x : Machine.Core) : (s.setC x).threads = s.threads := rfl
@[simp] theorem clusters_setC (s : State) (x : Machine.Core) : (s.setC x).clusters = s.clusters := rfl
@[simp] theorem slices_setC (s : State) (x : Machine.Core) : (s.setC x).slices = s.slices := rfl
@[simp] theorem dies_setC (s : State) (x : Machine.Core) : (s.setC x).dies = s.dies := rfl
@[simp] theorem bolts_setC (s : State) (x : Machine.Core) : (s.setC x).bolts = s.bolts := rfl
@[simp] theorem blocks_setC (s : State) (x : Machine.Core) : (s.setC x).blocks = s.blocks := rfl
@[simp] theorem launches_setC (s : State) (x : Machine.Core) : (s.setC x).launches = s.launches := rfl
@[simp] theorem saved_setC (s : State) (x : Machine.Core) : (s.setC x).saved = s.saved := rfl
@[simp] theorem dram_setC (s : State) (x : Machine.Core) : (s.setC x).dram = s.dram := rfl
@[simp] theorem claims_setC (s : State) (x : Machine.Core) : (s.setC x).claims = s.claims := rfl
@[simp] theorem fused_setC (s : State) (x : Machine.Core) : (s.setC x).fused = s.fused := rfl
@[simp] theorem gtime_setC (s : State) (x : Machine.Core) : (s.setC x).gtime = s.gtime := rfl
@[simp] theorem completions_setC (s : State) (x : Machine.Core) : (s.setC x).completions = s.completions := rfl
@[simp] theorem replies_setC (s : State) (x : Machine.Core) : (s.setC x).replies = s.replies := rfl
@[simp] theorem msgs_setC (s : State) (x : Machine.Core) : (s.setC x).msgs = s.msgs := rfl
@[simp] theorem pwords_setC (s : State) (x : Machine.Core) : (s.setC x).pwords = s.pwords := rfl
@[simp] theorem xwords_setC (s : State) (x : Machine.Core) : (s.setC x).xwords = s.xwords := rfl
@[simp] theorem storeFaults_setC (s : State) (x : Machine.Core) : (s.setC x).storeFaults = s.storeFaults := rfl
@[simp] theorem reports_setC (s : State) (x : Machine.Core) : (s.setC x).reports = s.reports := rfl
@[simp] theorem lanes_setC (s : State) (x : Machine.Core) : (s.setC x).lanes = s.lanes := rfl
@[simp] theorem grants_setC (s : State) (x : Machine.Core) : (s.setC x).grants = s.grants := rfl
@[simp] theorem boot_setC (s : State) (x : Machine.Core) : (s.setC x).boot = s.boot := rfl
@[simp] theorem bootDigest_setC (s : State) (x : Machine.Core) : (s.setC x).bootDigest = s.bootDigest := rfl
@[simp] theorem hypervisor_setC (s : State) (x : Machine.Core) : (s.setC x).hypervisor = s.hypervisor := rfl
@[simp] theorem powerLimit_setC (s : State) (x : Machine.Core) : (s.setC x).powerLimit = s.powerLimit := rfl
@[simp] theorem dieTemps_setC (s : State) (x : Machine.Core) : (s.setC x).dieTemps = s.dieTemps := rfl
@[simp] theorem refLane_setC (s : State) (x : Machine.Core) : (s.setC x).refLane = s.refLane := rfl
@[simp] theorem joined_setC (s : State) (x : Machine.Core) : (s.setC x).joined = s.joined := rfl
@[simp] theorem checkpoints_setC (s : State) (x : Machine.Core) : (s.setC x).checkpoints = s.checkpoints := rfl
@[simp] theorem slewAt_setC (s : State) (x : Machine.Core) : (s.setC x).slewAt = s.slewAt := rfl
@[simp] theorem parked_setC (s : State) (x : Machine.Core) : (s.setC x).parked = s.parked := rfl
@[simp] theorem forward_setC (s : State) (x : Machine.Core) : (s.setC x).forward = s.forward := rfl
@[simp] theorem sched_setC (s : State) (x : Machine.Core) : (s.setC x).sched = s.sched := rfl
@[simp] theorem delays_setC (s : State) (x : Machine.Core) : (s.setC x).delays = s.delays := rfl
@[simp] theorem accs_setC (s : State) (x : Machine.Core) : (s.setC x).accs = s.accs := rfl
@[simp] theorem peerReplies_setC (s : State) (x : Machine.Core) : (s.setC x).peerReplies = s.peerReplies := rfl
@[simp] theorem bootFailed_setC (s : State) (x : Machine.Core) : (s.setC x).bootFailed = s.bootFailed := rfl
@[simp] theorem bootReports_setC (s : State) (x : Machine.Core) : (s.setC x).bootReports = s.bootReports := rfl
@[simp] theorem discovery_setC (s : State) (x : Machine.Core) : (s.setC x).discovery = s.discovery := rfl
@[simp] theorem selfTest_setC (s : State) (x : Machine.Core) : (s.setC x).selfTest = s.selfTest := rfl
@[simp] theorem rolnisRoot_setC (s : State) (x : Machine.Core) : (s.setC x).rolnisRoot = s.rolnisRoot := rfl
@[simp] theorem rolnisEntry_setC (s : State) (x : Machine.Core) : (s.setC x).rolnisEntry = s.rolnisEntry := rfl
@[simp] theorem sysBolt_setC (s : State) (x : Machine.Core) : (s.setC x).sysBolt = s.sysBolt := rfl
@[simp] theorem reference_setC (s : State) (x : Machine.Core) : (s.setC x).reference = s.reference := rfl
@[simp] theorem behindBy_setC (s : State) (x : Machine.Core) : (s.setC x).behindBy = s.behindBy := rfl
@[simp] theorem syncAt_setC (s : State) (x : Machine.Core) : (s.setC x).syncAt = s.syncAt := rfl
@[simp] theorem crcFails_setC (s : State) (x : Machine.Core) : (s.setC x).crcFails = s.crcFails := rfl
@[simp] theorem lanesTold_setC (s : State) (x : Machine.Core) : (s.setC x).lanesTold = s.lanesTold := rfl
@[simp] theorem recallsTold_setC (s : State) (x : Machine.Core) : (s.setC x).recallsTold = s.recallsTold := rfl
@[simp] theorem traces_setC (s : State) (x : Machine.Core) : (s.setC x).traces = s.traces := rfl
@[simp] theorem pkts_setC (s : State) (x : Machine.Core) : (s.setC x).pkts = s.pkts := rfl
@[simp] theorem free_setC (s : State) (x : Machine.Core) : (s.setC x).free = s.free := rfl
@[simp] theorem thread_setC (s : State) (x : Machine.Core) (j : Nat) : (s.setC x).thread j = s.thread j := rfl
@[simp] theorem cluster_setC (s : State) (x : Machine.Core) (j : Nat) : (s.setC x).cluster j = s.cluster j := rfl
@[simp] theorem slice_setC (s : State) (x : Machine.Core) (j : Nat) : (s.setC x).slice j = s.slice j := rfl
@[simp] theorem die_setC (s : State) (x : Machine.Core) (j : Nat) : (s.setC x).die j = s.die j := rfl
@[simp] theorem bolt_setC (s : State) (x : Machine.Core) (j : Nat) : (s.setC x).bolt j = s.bolt j := rfl

/-! ## `setCl` -/

@[simp] theorem threads_setCl (s : State) (x : Cluster) : (s.setCl x).threads = s.threads := rfl
@[simp] theorem cores_setCl (s : State) (x : Cluster) : (s.setCl x).cores = s.cores := rfl
@[simp] theorem slices_setCl (s : State) (x : Cluster) : (s.setCl x).slices = s.slices := rfl
@[simp] theorem dies_setCl (s : State) (x : Cluster) : (s.setCl x).dies = s.dies := rfl
@[simp] theorem bolts_setCl (s : State) (x : Cluster) : (s.setCl x).bolts = s.bolts := rfl
@[simp] theorem blocks_setCl (s : State) (x : Cluster) : (s.setCl x).blocks = s.blocks := rfl
@[simp] theorem launches_setCl (s : State) (x : Cluster) : (s.setCl x).launches = s.launches := rfl
@[simp] theorem saved_setCl (s : State) (x : Cluster) : (s.setCl x).saved = s.saved := rfl
@[simp] theorem dram_setCl (s : State) (x : Cluster) : (s.setCl x).dram = s.dram := rfl
@[simp] theorem claims_setCl (s : State) (x : Cluster) : (s.setCl x).claims = s.claims := rfl
@[simp] theorem fused_setCl (s : State) (x : Cluster) : (s.setCl x).fused = s.fused := rfl
@[simp] theorem gtime_setCl (s : State) (x : Cluster) : (s.setCl x).gtime = s.gtime := rfl
@[simp] theorem completions_setCl (s : State) (x : Cluster) : (s.setCl x).completions = s.completions := rfl
@[simp] theorem replies_setCl (s : State) (x : Cluster) : (s.setCl x).replies = s.replies := rfl
@[simp] theorem msgs_setCl (s : State) (x : Cluster) : (s.setCl x).msgs = s.msgs := rfl
@[simp] theorem pwords_setCl (s : State) (x : Cluster) : (s.setCl x).pwords = s.pwords := rfl
@[simp] theorem xwords_setCl (s : State) (x : Cluster) : (s.setCl x).xwords = s.xwords := rfl
@[simp] theorem storeFaults_setCl (s : State) (x : Cluster) : (s.setCl x).storeFaults = s.storeFaults := rfl
@[simp] theorem reports_setCl (s : State) (x : Cluster) : (s.setCl x).reports = s.reports := rfl
@[simp] theorem lanes_setCl (s : State) (x : Cluster) : (s.setCl x).lanes = s.lanes := rfl
@[simp] theorem grants_setCl (s : State) (x : Cluster) : (s.setCl x).grants = s.grants := rfl
@[simp] theorem boot_setCl (s : State) (x : Cluster) : (s.setCl x).boot = s.boot := rfl
@[simp] theorem bootDigest_setCl (s : State) (x : Cluster) : (s.setCl x).bootDigest = s.bootDigest := rfl
@[simp] theorem hypervisor_setCl (s : State) (x : Cluster) : (s.setCl x).hypervisor = s.hypervisor := rfl
@[simp] theorem powerLimit_setCl (s : State) (x : Cluster) : (s.setCl x).powerLimit = s.powerLimit := rfl
@[simp] theorem dieTemps_setCl (s : State) (x : Cluster) : (s.setCl x).dieTemps = s.dieTemps := rfl
@[simp] theorem refLane_setCl (s : State) (x : Cluster) : (s.setCl x).refLane = s.refLane := rfl
@[simp] theorem joined_setCl (s : State) (x : Cluster) : (s.setCl x).joined = s.joined := rfl
@[simp] theorem checkpoints_setCl (s : State) (x : Cluster) : (s.setCl x).checkpoints = s.checkpoints := rfl
@[simp] theorem slewAt_setCl (s : State) (x : Cluster) : (s.setCl x).slewAt = s.slewAt := rfl
@[simp] theorem parked_setCl (s : State) (x : Cluster) : (s.setCl x).parked = s.parked := rfl
@[simp] theorem cur_setCl (s : State) (x : Cluster) : (s.setCl x).cur = s.cur := rfl
@[simp] theorem forward_setCl (s : State) (x : Cluster) : (s.setCl x).forward = s.forward := rfl
@[simp] theorem sched_setCl (s : State) (x : Cluster) : (s.setCl x).sched = s.sched := rfl
@[simp] theorem delays_setCl (s : State) (x : Cluster) : (s.setCl x).delays = s.delays := rfl
@[simp] theorem accs_setCl (s : State) (x : Cluster) : (s.setCl x).accs = s.accs := rfl
@[simp] theorem peerReplies_setCl (s : State) (x : Cluster) : (s.setCl x).peerReplies = s.peerReplies := rfl
@[simp] theorem bootFailed_setCl (s : State) (x : Cluster) : (s.setCl x).bootFailed = s.bootFailed := rfl
@[simp] theorem bootReports_setCl (s : State) (x : Cluster) : (s.setCl x).bootReports = s.bootReports := rfl
@[simp] theorem discovery_setCl (s : State) (x : Cluster) : (s.setCl x).discovery = s.discovery := rfl
@[simp] theorem selfTest_setCl (s : State) (x : Cluster) : (s.setCl x).selfTest = s.selfTest := rfl
@[simp] theorem rolnisRoot_setCl (s : State) (x : Cluster) : (s.setCl x).rolnisRoot = s.rolnisRoot := rfl
@[simp] theorem rolnisEntry_setCl (s : State) (x : Cluster) : (s.setCl x).rolnisEntry = s.rolnisEntry := rfl
@[simp] theorem sysBolt_setCl (s : State) (x : Cluster) : (s.setCl x).sysBolt = s.sysBolt := rfl
@[simp] theorem reference_setCl (s : State) (x : Cluster) : (s.setCl x).reference = s.reference := rfl
@[simp] theorem behindBy_setCl (s : State) (x : Cluster) : (s.setCl x).behindBy = s.behindBy := rfl
@[simp] theorem syncAt_setCl (s : State) (x : Cluster) : (s.setCl x).syncAt = s.syncAt := rfl
@[simp] theorem crcFails_setCl (s : State) (x : Cluster) : (s.setCl x).crcFails = s.crcFails := rfl
@[simp] theorem lanesTold_setCl (s : State) (x : Cluster) : (s.setCl x).lanesTold = s.lanesTold := rfl
@[simp] theorem recallsTold_setCl (s : State) (x : Cluster) : (s.setCl x).recallsTold = s.recallsTold := rfl
@[simp] theorem traces_setCl (s : State) (x : Cluster) : (s.setCl x).traces = s.traces := rfl
@[simp] theorem pkts_setCl (s : State) (x : Cluster) : (s.setCl x).pkts = s.pkts := rfl
@[simp] theorem free_setCl (s : State) (x : Cluster) : (s.setCl x).free = s.free := rfl
@[simp] theorem thread_setCl (s : State) (x : Cluster) (j : Nat) : (s.setCl x).thread j = s.thread j := rfl
@[simp] theorem core_setCl (s : State) (x : Cluster) (j : Nat) : (s.setCl x).core j = s.core j := rfl
@[simp] theorem slice_setCl (s : State) (x : Cluster) (j : Nat) : (s.setCl x).slice j = s.slice j := rfl
@[simp] theorem die_setCl (s : State) (x : Cluster) (j : Nat) : (s.setCl x).die j = s.die j := rfl
@[simp] theorem bolt_setCl (s : State) (x : Cluster) (j : Nat) : (s.setCl x).bolt j = s.bolt j := rfl

/-! ## `setB` -/

@[simp] theorem threads_setB (s : State) (x : Bolt) : (s.setB x).threads = s.threads := rfl
@[simp] theorem cores_setB (s : State) (x : Bolt) : (s.setB x).cores = s.cores := rfl
@[simp] theorem clusters_setB (s : State) (x : Bolt) : (s.setB x).clusters = s.clusters := rfl
@[simp] theorem slices_setB (s : State) (x : Bolt) : (s.setB x).slices = s.slices := rfl
@[simp] theorem dies_setB (s : State) (x : Bolt) : (s.setB x).dies = s.dies := rfl
@[simp] theorem blocks_setB (s : State) (x : Bolt) : (s.setB x).blocks = s.blocks := rfl
@[simp] theorem launches_setB (s : State) (x : Bolt) : (s.setB x).launches = s.launches := rfl
@[simp] theorem saved_setB (s : State) (x : Bolt) : (s.setB x).saved = s.saved := rfl
@[simp] theorem dram_setB (s : State) (x : Bolt) : (s.setB x).dram = s.dram := rfl
@[simp] theorem claims_setB (s : State) (x : Bolt) : (s.setB x).claims = s.claims := rfl
@[simp] theorem fused_setB (s : State) (x : Bolt) : (s.setB x).fused = s.fused := rfl
@[simp] theorem gtime_setB (s : State) (x : Bolt) : (s.setB x).gtime = s.gtime := rfl
@[simp] theorem completions_setB (s : State) (x : Bolt) : (s.setB x).completions = s.completions := rfl
@[simp] theorem replies_setB (s : State) (x : Bolt) : (s.setB x).replies = s.replies := rfl
@[simp] theorem msgs_setB (s : State) (x : Bolt) : (s.setB x).msgs = s.msgs := rfl
@[simp] theorem pwords_setB (s : State) (x : Bolt) : (s.setB x).pwords = s.pwords := rfl
@[simp] theorem xwords_setB (s : State) (x : Bolt) : (s.setB x).xwords = s.xwords := rfl
@[simp] theorem storeFaults_setB (s : State) (x : Bolt) : (s.setB x).storeFaults = s.storeFaults := rfl
@[simp] theorem reports_setB (s : State) (x : Bolt) : (s.setB x).reports = s.reports := rfl
@[simp] theorem lanes_setB (s : State) (x : Bolt) : (s.setB x).lanes = s.lanes := rfl
@[simp] theorem grants_setB (s : State) (x : Bolt) : (s.setB x).grants = s.grants := rfl
@[simp] theorem boot_setB (s : State) (x : Bolt) : (s.setB x).boot = s.boot := rfl
@[simp] theorem bootDigest_setB (s : State) (x : Bolt) : (s.setB x).bootDigest = s.bootDigest := rfl
@[simp] theorem hypervisor_setB (s : State) (x : Bolt) : (s.setB x).hypervisor = s.hypervisor := rfl
@[simp] theorem powerLimit_setB (s : State) (x : Bolt) : (s.setB x).powerLimit = s.powerLimit := rfl
@[simp] theorem dieTemps_setB (s : State) (x : Bolt) : (s.setB x).dieTemps = s.dieTemps := rfl
@[simp] theorem refLane_setB (s : State) (x : Bolt) : (s.setB x).refLane = s.refLane := rfl
@[simp] theorem joined_setB (s : State) (x : Bolt) : (s.setB x).joined = s.joined := rfl
@[simp] theorem checkpoints_setB (s : State) (x : Bolt) : (s.setB x).checkpoints = s.checkpoints := rfl
@[simp] theorem slewAt_setB (s : State) (x : Bolt) : (s.setB x).slewAt = s.slewAt := rfl
@[simp] theorem parked_setB (s : State) (x : Bolt) : (s.setB x).parked = s.parked := rfl
@[simp] theorem forward_setB (s : State) (x : Bolt) : (s.setB x).forward = s.forward := rfl
@[simp] theorem sched_setB (s : State) (x : Bolt) : (s.setB x).sched = s.sched := rfl
@[simp] theorem delays_setB (s : State) (x : Bolt) : (s.setB x).delays = s.delays := rfl
@[simp] theorem accs_setB (s : State) (x : Bolt) : (s.setB x).accs = s.accs := rfl
@[simp] theorem peerReplies_setB (s : State) (x : Bolt) : (s.setB x).peerReplies = s.peerReplies := rfl
@[simp] theorem bootFailed_setB (s : State) (x : Bolt) : (s.setB x).bootFailed = s.bootFailed := rfl
@[simp] theorem bootReports_setB (s : State) (x : Bolt) : (s.setB x).bootReports = s.bootReports := rfl
@[simp] theorem discovery_setB (s : State) (x : Bolt) : (s.setB x).discovery = s.discovery := rfl
@[simp] theorem selfTest_setB (s : State) (x : Bolt) : (s.setB x).selfTest = s.selfTest := rfl
@[simp] theorem rolnisRoot_setB (s : State) (x : Bolt) : (s.setB x).rolnisRoot = s.rolnisRoot := rfl
@[simp] theorem rolnisEntry_setB (s : State) (x : Bolt) : (s.setB x).rolnisEntry = s.rolnisEntry := rfl
@[simp] theorem sysBolt_setB (s : State) (x : Bolt) : (s.setB x).sysBolt = s.sysBolt := rfl
@[simp] theorem reference_setB (s : State) (x : Bolt) : (s.setB x).reference = s.reference := rfl
@[simp] theorem behindBy_setB (s : State) (x : Bolt) : (s.setB x).behindBy = s.behindBy := rfl
@[simp] theorem syncAt_setB (s : State) (x : Bolt) : (s.setB x).syncAt = s.syncAt := rfl
@[simp] theorem crcFails_setB (s : State) (x : Bolt) : (s.setB x).crcFails = s.crcFails := rfl
@[simp] theorem lanesTold_setB (s : State) (x : Bolt) : (s.setB x).lanesTold = s.lanesTold := rfl
@[simp] theorem recallsTold_setB (s : State) (x : Bolt) : (s.setB x).recallsTold = s.recallsTold := rfl
@[simp] theorem traces_setB (s : State) (x : Bolt) : (s.setB x).traces = s.traces := rfl
@[simp] theorem pkts_setB (s : State) (x : Bolt) : (s.setB x).pkts = s.pkts := rfl
@[simp] theorem free_setB (s : State) (x : Bolt) : (s.setB x).free = s.free := rfl
@[simp] theorem thread_setB (s : State) (x : Bolt) (j : Nat) : (s.setB x).thread j = s.thread j := rfl
@[simp] theorem core_setB (s : State) (x : Bolt) (j : Nat) : (s.setB x).core j = s.core j := rfl
@[simp] theorem cluster_setB (s : State) (x : Bolt) (j : Nat) : (s.setB x).cluster j = s.cluster j := rfl
@[simp] theorem slice_setB (s : State) (x : Bolt) (j : Nat) : (s.setB x).slice j = s.slice j := rfl
@[simp] theorem die_setB (s : State) (x : Bolt) (j : Nat) : (s.setB x).die j = s.die j := rfl

/-! ## The unit written -/

@[simp] theorem core_setCore_self (s : State) (i : Nat) (x : Machine.Core) : (s.setCore i x).core i = x := by simp [State.core, State.setCore]
@[simp] theorem cluster_setCluster_self (s : State) (i : Nat) (x : Cluster) : (s.setCluster i x).cluster i = x := by simp [State.cluster, State.setCluster]
@[simp] theorem slice_setSlice_self (s : State) (i : Nat) (x : Slice) : (s.setSlice i x).slice i = x := by simp [State.slice, State.setSlice]
@[simp] theorem die_setDie_self (s : State) (i : Nat) (x : Die) : (s.setDie i x).die i = x := by simp [State.die, State.setDie]
@[simp] theorem bolt_setBolt_self (s : State) (i : Nat) (x : Bolt) : (s.setBolt i x).bolt i = x := by simp [State.bolt, State.setBolt]
theorem die_setDie (s : State) (i j : Nat) (x : Die) : (s.setDie i x).die j = if j = i then x else s.die j := by
  simp [State.die, State.setDie, get_set]
@[simp] theorem c_setC (s : State) (x : Machine.Core) : (s.setC x).c = x := by simp [State.c, State.setC, State.curCore]
@[simp] theorem cl_setCl (s : State) (x : Cluster) : (s.setCl x).cl = x := by simp [State.cl, State.setCl, State.curCluster, State.curCore]

end Sys2Proof.Laws
end

