-- ==== Sys2Proof/Laws/Ops.lean ====
section
/-!
SUPPORT. What the shared operations can do, said once: taking an exception, waits, trace records, the writes of memory, the
event rows' units.
-/
namespace Sys2Proof.Laws

open Sys2Proof.Machine

/-! ## Taking an exception (R327, R335, R317) -/

/-- Outside a seam, with a handler installed and none running, the thread enters it. -/
theorem takeTrap_enters (s : State) (tid : Nat) (c : Cause) (tval tpc : W64) (late lost completed : Bool) (sub : BitVec 8)
    (h1 : (s.thread tid).seamed = false) (h2 : (s.thread tid).handler = false) (h3 : (s.thread tid).tvec ≠ 0) :
    takeTrap s tid c tval tpc late lost completed sub =
      s.setThread tid (enterHandler (s.thread tid) c tval tpc late lost sub) := by
  unfold takeTrap
  simp only [h1, h2, Bool.false_eq_true, false_and, false_or, if_false]
  rw [if_neg h3]

/-- Outside a seam, in a handler or with none installed, the trap escalates. -/
theorem takeTrap_escalates (s : State) (tid : Nat) (c : Cause) (tval tpc : W64) (late lost completed : Bool) (sub : BitVec 8)
    (h1 : (s.thread tid).seamed = false) (h2 : (s.thread tid).handler = true ∨ (s.thread tid).tvec = 0) :
    takeTrap s tid c tval tpc late lost completed sub = escalate s tid c tval tpc := by
  unfold takeTrap
  simp only [h1, Bool.false_eq_true, false_and, if_false]
  rw [if_pos h2]

/-- In a seam, but for the handler of its fray, a trap frays it. -/
theorem takeTrap_frays (s : State) (tid : Nat) (c : Cause) (tval tpc : W64) (late lost completed : Bool) (sub : BitVec 8)
    (h1 : (s.thread tid).seamed = true) (h2 : frayRuns (s.thread tid) = false) (h3 : c ≠ .seamfray) :
    takeTrap s tid c tval tpc late lost completed sub = fray s tid c tval late completed := by
  simp [takeTrap, h1, h2, h3]

/-- What the entry leaves of a thread as it was: registers, flags, bindings, z registers, its late faults. -/
theorem enterHandler_keeps (t : Thread) (c : Cause) (tval tpc : W64) (late lost : Bool) (sub : BitVec 8) :
    let u := enterHandler t c tval tpc late lost sub
    u.regs = t.regs ∧ u.flags = t.flags ∧ u.binds = t.binds ∧ u.z = t.z ∧ u.late = t.late ∧ u.occ = t.occ ∧ u.bolt = t.bolt :=
  ⟨rfl, rfl, rfl, rfl, rfl, rfl, rfl⟩

/-! ## Trace records and waits (R365 to R367) -/

/-- An instruction committed: its bolt's watchdog alone may change (R359). -/
theorem commit_frame (s : State) (b : Nat) :
    commit s b = { s with bolts := (commit s b).bolts } ∧ ∀ j, (commit s b).thread j = s.thread j :=
  ⟨rfl, fun _ => rfl⟩

/-- A wait entered or left changes one thread: what it waits for, and when it began to; and where an instruction ends with it, its bolt's watchdog. -/
theorem setWait_frame (s : State) (tid : Nat) (w : Wait) :
    setWait s tid w = { s with threads := (setWait s tid w).threads, bolts := (setWait s tid w).bolts } ∧
    ∀ j, (setWait s tid w).thread j = if j = tid then { s.thread tid with wait := w, blockedAt := ((setWait s tid w).thread tid).blockedAt } else s.thread j := by
  unfold setWait
  dsimp only
  by_cases h : (s.thread tid).wait = w
  · rw [if_pos h]
    refine ⟨rfl, fun j => ?_⟩
    split
    · rename_i hj; rw [hj, ← h]
    · rfl
  · rw [if_neg h]
    have base : ∀ j, (s.setThread tid { s.thread tid with wait := w, blockedAt := s.gtime }).thread j =
        if j = tid then { s.thread tid with wait := w, blockedAt := s.gtime } else s.thread j := fun j => thread_setThread s tid j _
    split
    · obtain ⟨f1, f2⟩ := commit_frame (s.setThread tid { s.thread tid with wait := w, blockedAt := s.gtime }) (s.thread tid).bolt
      refine ⟨by rw [f1]; rfl, fun j => ?_⟩
      rw [f2, f2, base, base, if_pos rfl]
    · refine ⟨rfl, fun j => ?_⟩
      rw [base, base, if_pos rfl]

/-- A record noted for the ring of a cluster waits for the tick's end: nothing else changes. -/
theorem traceNote_frame (s : State) (x : TraceRec) : traceNote s x = { s with traces := (traceNote s x).traces } := by
  unfold traceNote; split <;> rfl

/-- No record is noted for a cluster that does not capture. -/
theorem traceNote_quiet (s : State) (x : TraceRec) (h : capturing s x.cluster = false) : traceNote s x = s := by
  unfold traceNote; rw [h]; rfl

theorem get_map_of {α : Type} (f : α → α) (d : α) (m : Map α) (k : Nat) (h : f d = d) :
    Map.get (m.map (fun p => (p.1, f p.2))) k d = f (Map.get m k d) := by
  induction m with
  | nil => exact h.symm
  | cons p r ih =>
    simp only [List.map_cons, Map.get]
    split
    · rfl
    · exact ih

theorem foldClusters_frame {β : Type} (f : State → β → Nat) (g : State → β → Cluster) (l : List β) : ∀ s : State,
    l.foldl (fun s x => s.setCluster (f s x) (g s x)) s = { s with clusters := (l.foldl (fun s x => s.setCluster (f s x) (g s x)) s).clusters } := by
  induction l with
  | nil => intro s; rfl
  | cons x r ih => intro s; simp only [List.foldl_cons]; rw [ih]; rfl

/-- The end of a tick writes the rings of clusters and keeps every slot's state as the one last shown; nothing else changes. -/
theorem traceTick_frame (s : State) :
    traceTick s = { s with traces := (traceTick s).traces, threads := (traceTick s).threads, clusters := (traceTick s).clusters } ∧
    ∀ j, (traceTick s).thread j = { s.thread j with traced := ((traceTick s).thread j).traced } := by
  unfold traceTick
  simp only
  split
  · exact ⟨rfl, fun j => rfl⟩
  · rw [foldClusters_frame]
    refine ⟨rfl, fun j => ?_⟩
    have hg := get_map_of (fun t : Thread => { t with traced := traceState t }) {} s.threads j rfl
    simp only [State.thread]
    rw [hg]

/-! ## Writes of memory -/

theorem canon_line (f : Nat → Nat) (g : Nat → Bool) (l : List Nat) : ∀ (t : Map Bool), Map.canon false none t = true →
    Map.canon false none (l.foldl (fun t i => Map.put false t (f i) (g i)) t) = true := by
  induction l with
  | nil => intro t h; exact h
  | cons i r ih => intro t h; exact ih _ (canon_put false t (f i) (g i) h)

/-- A line written back keeps DRAM's form and changes nothing else. -/
theorem dramWriteLine_form (s : State) (pa data : Nat) (tags : BitVec 4) (h : memForm s.dram) : memForm (dramWriteLine s pa data tags).dram :=
  ⟨wf_writeN _ _ _ h.1, canon_line (fun i => pa / 64 * 64 / 16 + i) (fun i => tags.getLsbD i) _ _ h.2⟩

theorem dramWriteLine_frame (s : State) (pa data : Nat) (tags : BitVec 4) :
    dramWriteLine s pa data tags = { s with dram := (dramWriteLine s pa data tags).dram } := rfl

theorem wakeFold_frame (b : Nat) (l : List (Nat × Nat)) : ∀ (s : State),
    l.foldl (fun s q => wakeWatchers s b (q.1 / 64)) s = { s with threads := (l.foldl (fun s q => wakeWatchers s b (q.1 / 64)) s).threads } := by
  induction l with
  | nil => intro s; rfl
  | cons q r ih =>
    intro s
    simp only [List.foldl_cons]
    rw [ih]
    rfl

/-- A write to a watched line changes threads only (R306). -/
theorem wakeBytes_frame (s : State) (cl a n : Nat) : wakeBytes s cl a n = { s with threads := (wakeBytes s cl a n).threads } := by
  unfold wakeBytes
  split
  · rename_i b _
    exact wakeFold_frame b.bolt _ s
  · rfl

/-- Bytes written into a local memory: that memory alone changes, and watching threads. -/
theorem writeLocal_cluster (s : State) (cl a j : Nat) (bs : List (BitVec 8)) :
    (writeLocal s cl a bs).cluster j = if j = cl then { s.cluster cl with mem := (s.cluster cl).mem.writeN a bs } else s.cluster j := by
  unfold writeLocal
  simp only
  rw [wakeBytes_frame]
  exact cluster_setCluster s cl j _

theorem writeLocal_dram (s : State) (cl a : Nat) (bs : List (BitVec 8)) : (writeLocal s cl a bs).dram = s.dram := by
  unfold writeLocal
  simp only
  rw [wakeBytes_frame]
  rfl

/-- A local memory keeps its form under a write. -/
theorem writeLocal_form (s : State) (cl a j : Nat) (bs : List (BitVec 8)) (h : memForm (s.cluster j).mem) :
    memForm ((writeLocal s cl a bs).cluster j).mem := by
  rw [writeLocal_cluster]
  split
  · rename_i hj; subst hj; exact memForm_writeN _ a bs h
  · exact h

theorem memForm_foldTagged {β : Type} (f : β → Nat) (g : β → List (BitVec 8)) (t : Bool) (l : List β) : ∀ m : Mem, memForm m →
    memForm (l.foldl (fun m p => m.writeTagged (f p) (g p) t) m) := by
  induction l with
  | nil => intro m h; exact h
  | cons p r ih => intro m h; exact ih _ (memForm_writeTagged m _ _ t h)

/-- The unit's share of a granted store keeps the local memory's form (R128). -/
theorem unitStore_form (c : Cluster) (r : LReq) (u : Nat) (h : memForm c.mem) : memForm (unitStore c r u).mem := by
  unfold unitStore
  split
  · split
    · exact memForm_writeN _ _ _ h
    · exact h
  · exact memForm_foldTagged (fun p : Nat × Nat × Nat => p.1) (fun p => natToBytes p.2.1 (r.data.toNat / 2 ^ (8 * p.2.2))) r.tag _ c.mem h

/-! ## Commands and event rows -/

/-- A command that ends sets out its status word, and nothing else. -/
theorem complete_frame (s : State) (tid tok : Nat) (seq : SeqNo) (kind code progress : Nat) (late : Option Cause) :
    complete s tid tok seq kind code progress late =
      { s with completions := s.completions ++ [{ tid := tid, reg := tok, word := statusOf kind code progress seq, seq := seq, late := late }] } := rfl

/-- An event row of a unit that the module has is a step, of one that it lacks none. -/
theorem withUnit_next (ok : Bool) (s t : State) : withUnit ok s = .next t ↔ ok = true ∧ t = s := by
  unfold withUnit
  cases ok <;> simp [eq_comm]

theorem withUnit_fault (ok : Bool) (s : State) : withUnit ok s = .fault .noSuchUnit ↔ ok = false := by
  unfold withUnit
  cases ok <;> simp

end Sys2Proof.Laws
end

