-- ==== Sys2Proof/Laws/Shapes.lean ====
section
/-!
SUPPORT. One lemma for each operand shape of the integer instructions: with unbound operands the shape gives its result and nothing
else.
-/
namespace Sys2Proof.Laws

open Sys2Proof.Machine

/-! ## Operands that are not bound -/

theorem readReg_unbound (s : State) (r : Reg) (h : Map.find s.t.binds r.toNat = none) : readReg s r = .ok (s, s.t.reg r) := by
  unfold readReg bindingOf; rw [h]

theorem readW_unbound (s : State) (r : Reg) (h : Map.find s.t.binds r.toNat = none) : readW s r = .ok (s, (s.t.reg r).lo) := by
  unfold readW; rw [readReg_unbound s r h]; rfl

theorem readTwo_unbound (q : Pre) (s : State) (x y : Reg) (hx : Map.find s.t.binds x.toNat = none) (hy : Map.find s.t.binds y.toNat = none) :
    readTwo q s x y = .ok (s, s.t.reg x, s.t.reg y) := by
  unfold readTwo; split
  · rw [readReg_unbound s x hx]
    show (readReg s y).bind _ = _
    rw [readReg_unbound s y hy]; rfl
  · rw [readReg_unbound s y hy]
    show (readReg s x).bind _ = _
    rw [readReg_unbound s x hx]; rfl

theorem writeReg_unbound (s : State) (r : Reg) (v : Val) (h : Map.find s.t.binds r.toNat = none) :
    writeReg s r v = .ok (s.setT (s.t.setReg r v)) := by
  unfold writeReg writeCheck putReg bindingOf; rw [h]; rfl

/-! ## The state before and the state in which the operation runs -/

theorem begun_same (q : Pre) (k : Spec) (s : State) (hr : Ready s) : SameThread { s.t with pc := past q s } (begun q k s).t := by
  have := starts_t (begun_starts q k s hr)
  simpa [afterT] using this

theorem begun_reg (q : Pre) (k : Spec) (s : State) (hr : Ready s) (r : Reg) : (begun q k s).t.reg r = s.t.reg r := by
  rw [same_reg (begun_same q k s hr)]; rfl

theorem begun_flag (q : Pre) (k : Spec) (s : State) (hr : Ready s) (f : Flag) : (begun q k s).t.flag f = s.t.flag f := by
  rw [same_flag (begun_same q k s hr)]; rfl

theorem begun_binds (q : Pre) (k : Spec) (s : State) (hr : Ready s) : (begun q k s).t.binds = s.t.binds := by
  rw [same_binds (begun_same q k s hr)]

theorem begun_pc (q : Pre) (k : Spec) (s : State) (hr : Ready s) : (begun q k s).t.pc = past q s := by
  rw [same_pc (begun_same q k s hr)]

/-- A register written in the state in which the operation runs. -/
theorem begun_writes (q : Pre) (k : Spec) (s : State) (d : Reg) (v : Val) (hr : Ready s) :
    Starts (writes q s d v) ((begun q k s).setT ((begun q k s).t.setReg d v)) := by
  have h := starts_setT (begun_starts q k s hr) (same_setReg (begun_same q k s hr) d v)
  have he : (afterT q s s.t).setT (Thread.setReg { s.t with pc := past q s } d v) = writes q s d v := by
    unfold writes afterT
    rw [setReg_setPc]
    simp [State.setT, State.setThread, set_set]
  rwa [he] at h

/-- A flag written in the state in which the operation runs. -/
theorem begun_flags (q : Pre) (k : Spec) (s : State) (f : Flag) (v : Bool) (hr : Ready s) :
    Starts (afterT q s (s.t.setFlag f v)) ((begun q k s).setT ((begun q k s).t.setFlag f v)) := by
  have h := starts_setT (begun_starts q k s hr) (same_setFlag (begun_same q k s hr) f v)
  have he : (afterT q s s.t).setT (Thread.setFlag { s.t with pc := past q s } f v) = afterT q s (s.t.setFlag f v) := by
    unfold afterT
    simp [State.setT, State.setThread, set_set, Thread.setFlag]
  rwa [he] at h

theorem noGroups (k : Spec) (h : k.rgroups = []) (h' : k.wgroups = []) : misaligned k = [] := by simp [misaligned, h, h']

theorem allotted (t : Thread) (k : Spec) (h : k.rgroups = []) (h' : k.wgroups = []) (hb : ∀ r ∈ k.reads ++ k.writes, r.toNat < t.allot) :
    beyondAllot t k = [] := by
  simp only [beyondAllot, h, h', List.append_nil, List.flatMap_nil, List.filter_eq_nil_iff, List.mem_map, decide_eq_true_eq]
  rintro n ⟨r, hr, rfl⟩
  exact Nat.not_le.mpr (hb r hr)

/-- A register-only instruction whose operation writes one register. -/
theorem gives_reg (i : Instr) (q : Pre) (k : Spec) (op : State → Res State) (s : State) (d : Reg) (v : Val)
    (hexec : exec i s = issue q k op s) (he : Executes q k.watched k.rflags s) (hok : k.ok = true) (hp : k.priv = true → s.t.mode = true)
    (hg : k.rgroups = []) (hg' : k.wgroups = []) (hn : k.unread = []) (hs : k.noSeam = true → s.t.seamed = false)
    (hop : op (begun q k s) = .ok ((begun q k s).setT ((begun q k s).t.setReg d v))) : Gives i s (writes q s d v) := by
  obtain ⟨⟨hr, hx, hgd, hd⟩, hu⟩ := he
  refine gives_of_issue i q k op s _ (writes q s d v) hexec hr (by simp [hx]) hgd hd hok hp (noGroups k hg hg') ?_ (by simp [hg, hg']) hs hop
    (begun_writes q k s d v hr) rfl ?_ ?_ ?_
  · apply allotted s.t k hg hg'
    intro r hr'
    refine (hd.1 r ?_).1
    rcases List.mem_append.mp hr' with h | h <;> simp [Spec.watched, hn, h]
  · simp [writes, afterT]
  · simpa [writes, afterT] using hr.2.1
  · simpa [writes, afterT] using hr.2.2

/-- The two-address shape. -/
theorem intTwo_gives (i : Instr) (q : Pre) (d x y : Reg) (l : Option Nat) (f : W64 → W64 → W64) (s : State)
    (hexec : exec i s = intTwo i q d x y l f s) (he : Executes q [x, y, d] [] s) :
    Gives i s (writes q s d (Val.ofW (f (valOf s x) (valOf s y)))) := by
  refine gives_reg i q { base := baseParcel i, reads := [x, y], writes := [d], lat := l } _ s d _ hexec he rfl (by simp) rfl rfl rfl (by simp) ?_
  obtain ⟨⟨hr, _, _, _⟩, hu⟩ := he
  have hb := begun_binds q { base := baseParcel i, reads := [x, y], writes := [d], lat := l } s hr
  show (readTwo q (begun q _ s) x y).bind _ = _
  rw [readTwo_unbound q _ x y (by rw [hb]; exact hu x (by simp)) (by rw [hb]; exact hu y (by simp))]
  show writeReg _ _ _ = _
  rw [writeReg_unbound _ d _ (by rw [hb]; exact hu d (by simp)), begun_reg q _ s hr, begun_reg q _ s hr]
  rfl

end Sys2Proof.Laws
end

