-- ==== Sys2Proof/Tests/Slice0.lean ====
section
/-!
SUPPORT. The model's own tests: ill-formed terms refused, words of the reference's encodings decoded (R41 to R59), one step
with the result the reference states, and for every statement a witness: a concrete state and operands that meet the hypotheses of
each of its clauses together.
-/
namespace Sys2Proof.Tests

open Sys2Proof Sys2Proof.Machine Sys2Proof.Claims

-- Each proof by the kernel waits for the declarations before it; in order, none holds a thread meanwhile.
set_option Elab.async false

/-! ## Well-formedness: an ill-formed term for each check -/

/-- The check refuses the first and accepts the second, which differ in what the check is about. -/
def refuses (bad good : Instr) : Bool := !bad.wellFormed && good.wellFormed

theorem test_wf_prefixes : ([
  -- five prefixes; an absent XQ with a stall count; XI on an instruction that takes none; a page instruction without XP; no XR
  (.addi { nxi := 4, xp := true } 5 3, .addi { nxi := 4 } 5 3), (.add { h := 2 } 5 5 6, .add { xq := true, h := 2 } 5 5 6),
  (.add { nxi := 1 } 5 5 6, .add {} 5 5 6), (.recv {} 4 0, .recv { xp := true } 4 0), (.bfx {} 5 6 7, .bfx { xr := true } 5 6 7),
  (.jmp { xr := true } 2, .jmp {} 2), (.jmp { nxi := 4 } 2, .jmp { nxi := 3 } 2), (.hcallSystem { xp := true } 5, .hcall { xp := true } 5)]
  : List (Instr × Instr)).all (fun p => refuses p.1 p.2) = true := by decide +kernel

theorem test_wf_operands : ([
  -- a register above g15 without XR; three addresses without XR; a compare with t; flags; bindable names
  (.clz {} 16 5, .clz { xr := true } 16 5), (.add {} 5 6 7, .add { xr := true } 5 6 7), (.cmpEq {} 1 5 6, .cmpEq { xr := true } 1 5 6),
  (.fand {} 1 2 3, .fand {} 1 1 3), (.bind { xp := true } 7 4, .bind { xp := true } 8 4), (.bstat { xp := true } 5 16, .bstat { xp := true } 5 15),
  (.unbind { xp := true, xr := true } 16, .unbind { xp := true } 15), (.fcmpEq { xp := true } 19 8 5 0, .fcmpEq { xp := true } 19 7 5 0)]
  : List (Instr × Instr)).all (fun p => refuses p.1 p.2) = true := by decide +kernel

theorem test_wf_immediates : ([
  (.addi {} 5 32, .addi {} 5 31), (.addi {} 5 0xFFFFFFFFFFFFFFDF, .addi {} 5 0xFFFFFFFFFFFFFFE0), (.jmp {} 512, .jmp {} 511), (.cinc {} 5 6 1, .cinc { nxi := 1 } 5 6 1),
  (.hold {} 0xFFFFFFFFFFFFFFFF, .hold {} 31), (.loop {} 5 0, .loop {} 5 1), (.rdc { nxi := 1 } 5 0x1000, .rdc { nxi := 1 } 5 0x100),
  (.wrc { nxi := 2 } 5 0x1000, .wrc { nxi := 2 } 5 0xFFF)]
  : List (Instr × Instr)).all (fun p => refuses p.1 p.2) = true := by decide +kernel

theorem test_wf_formats : ([
  (.fdiv { xp := true } 22 5 5 6, .fdiv { xp := true } 19 5 5 6), (.fadd { xp := true } 3 5 5 6, .fadd { xp := true } 22 5 5 6),
  (.viadd { xp := true } 33 5 5 6, .viadd { xp := true } 9 5 5 6), (.fcmpLt { xp := true } 33 5 5 0, .fcmpLt { xp := true } 3 5 5 0),
  (.vredAdd { xp := true } 19 5 6, .vredAdd { xp := true } 26 5 6), (.vbcast { xp := true } 54 5 6, .vbcast { xp := true } 33 5 6),
  (.vand { xp := true } 19 5 5 6, .vand { xp := true } 54 5 5 6), (.exts { xp := true } 4 5 6, .exts { xp := true } 0 5 6),
  (.extz { xp := true } 7 5 6, .extz { xp := true } 8 5 6), (.ldg { xp := true } 0 5 6 0, .ldg { xp := true } 1 5 6 0), (.ldl { xp := true } 54 5 6 0, .ldl { xp := true } 0 5 6 0),
  (.ldg {} 51 5 6 0, .ldg {} 52 5 6 0), (.gath { xp := true } 10 5 6, .gath { xp := true } 11 5 6), (.fcvt { xp := true, xr := true } 4 true 5 6 19, .fcvt { xp := true, xr := true } 4 false 5 6 19),
  (.atomAdd { xp := true, xr := true } 2 5 6 7, .atomAnd { xp := true, xr := true } 2 5 6 7), (.redAdd { xp := true, xr := true } 3 6 7, .redAdd { xp := true, xr := true } 1 6 7),
  (.rel { xp := true } 6, .rel { xp := true } 5), (.trap { xp := true, xr := true } 5, .trap { xp := true } 5)]
  : List (Instr × Instr)).all (fun p => refuses p.1 p.2) = true := by decide +kernel

/-! ## Words of the encodings of R43, R45, R58 and R59: every instruction with operands d = 21, s = 38, t = 55 under XR, d = 5, s = 6
without -/

/-- The decoder reads exactly this instruction from these parcels. -/
def decodes (p : List Parcel × Instr) : Bool :=
  match decode p.1 with
  | .ok (i, []) => decide (i = p.2)
  | _ => false

theorem test_decode_integer : ([
  ([0xF5B7, 0x0158], .add { xr := true } 21 38 55), ([0xF5B7, 0x0159], .sub { xr := true } 21 38 55), ([0xF5B7, 0x015A], .adc { xr := true } 21 38 55),
  ([0xF5B7, 0x015B], .sbc { xr := true } 21 38 55), ([0xF5B7, 0x0558], .and { xr := true } 21 38 55), ([0xF5B7, 0x0559], .or { xr := true } 21 38 55),
  ([0xF5B7, 0x055A], .xor { xr := true } 21 38 55), ([0xF5B7, 0x055B], .andn { xr := true } 21 38 55), ([0xF5B7, 0x0958], .shl { xr := true } 21 38 55),
  ([0xF5B7, 0x0959], .shr { xr := true } 21 38 55), ([0xF5B7, 0x095A], .sar { xr := true } 21 38 55), ([0xF5B7, 0x095B], .ror { xr := true } 21 38 55),
  ([0xF5B7, 0x0D58], .mul { xr := true } 21 38 55), ([0xF5B7, 0x0D59], .mulh { xr := true } 21 38 55),
  ([0xF5B7, 0x0D5A], .mulhn { xr := true } 21 38 55), ([0xF5B7, 0x0D5B], .mulw { xr := true } 21 38 55),
  ([0xF5B7, 0x1158], .div { xr := true } 21 38 55), ([0xF5B7, 0x1159], .divn { xr := true } 21 38 55), ([0xF5B7, 0x115A], .rem { xr := true } 21 38 55),
  ([0xF5B7, 0x115B], .remn { xr := true } 21 38 55), ([0xF5B7, 0x1558], .min { xr := true } 21 38 55), ([0xF5B7, 0x1559], .max { xr := true } 21 38 55),
  ([0xF5B7, 0x155A], .minn { xr := true } 21 38 55), ([0xF5B7, 0x155B], .maxn { xr := true } 21 38 55), ([0x1958], .clz {} 5 6),
  ([0x1959], .ctz {} 5 6), ([0x195A], .popc {} 5 6), ([0x195B], .brev {} 5 6)] : List (List Parcel × Instr)).all decodes = true := by decide +kernel

theorem test_decode_fields : ([
  ([0x1D58], .mov {} 5 6), ([0x1D59], .sel {} 5 5 6), ([0xF802, 0x1D5A], .exts { xp := true } 2 5 6), ([0xF809, 0x1D5B], .extz { xp := true } 9 5 6),
  ([0x1D5A], .exts {} 3 5 6), ([0x1D5B], .extz {} 11 5 6), ([0xF4B7, 0x2158], .cmpEq { xr := true } 5 38 55),
  ([0xF4B7, 0x2159], .cmpLt { xr := true } 5 38 55), ([0xF4B7, 0x215A], .cmpLtn { xr := true } 5 38 55),
  ([0xF4B7, 0x215B], .cmpTst { xr := true } 5 38 55), ([0x2159], .cmpLt {} 5 6 0), ([0xF5B7, 0x2558], .bfx { xr := true } 21 38 55),
  ([0xF5B7, 0x2559], .bfi { xr := true } 21 38 55)] : List (List Parcel × Instr)).all decodes = true := by decide +kernel

theorem test_decode_immediates : ([
  ([0xF003, 0x2949], .addi { nxi := 1 } 5 201), ([0xF003, 0x2D49], .andi { nxi := 1 } 5 201), ([0xF003, 0x3149], .ori { nxi := 1 } 5 201),
  ([0xF003, 0x3549], .xori { nxi := 1 } 5 201), ([0xF003, 0x3949], .shli { nxi := 1 } 5 201), ([0xF003, 0x3D49], .shri { nxi := 1 } 5 201),
  ([0xF003, 0x4149], .sari { nxi := 1 } 5 201), ([0xF003, 0x4549], .li { nxi := 1 } 5 201), ([0x4809], .hold {} 9),
  ([0x297F], .addi {} 5 0xFFFFFFFFFFFFFFFF), ([0xFCF4, 0x2943], .addi { xq := true, h := 3, gen := true, inv := true, flag := 2 } 5 3)] : List (List Parcel × Instr)).all decodes = true := by decide +kernel

theorem test_decode_transfers : ([
  ([0x4FFE], .jmp {} 0xFFFFFFFFFFFFFFFE), ([0x5149], .bf {} 5 9), ([0x5349], .bt {} 5 9), ([0x5409], .call {} 9), ([0x5818], .jr {} 6),
  ([0x5819], .callr {} 6), ([0x5802], .ret {}), ([0x5D49], .loop {} 5 9), ([0xF403, 0x6158], .fand { xr := true } 5 6 3),
  ([0xF403, 0x6159], .flagOr { xr := true } 5 6 3), ([0xF403, 0x615A], .fxor { xr := true } 5 6 3), ([0x615B], .fnot {} 5 6),
  ([0xF004, 0x6540], .rdc { nxi := 1 } 5 0x100), ([0x6945], .wrc {} 5 5)] : List (List Parcel × Instr)).all decodes = true := by decide +kernel

theorem test_decode_memory : ([
  ([0xF803, 0xF010, 0x6D58], .ldl { xp := true, nxi := 1 } 3 5 6 16), ([0xF803, 0xF5B7, 0x6D5A], .ldlIndex { xp := true, xr := true } 3 21 38 55),
  ([0xF803, 0xF010, 0x7158], .stl { xp := true, nxi := 1 } 3 5 6 16), ([0xF803, 0xF5B7, 0x715A], .stlIndex { xp := true, xr := true } 3 21 38 55),
  ([0xF803, 0xF010, 0x7558], .ldg { xp := true, nxi := 1 } 3 5 6 16), ([0xF803, 0xF5B7, 0x755A], .ldgIndex { xp := true, xr := true } 3 21 38 55),
  ([0xF803, 0xF5B7, 0xF010, 0x7559], .ldgPolicy { xp := true, xr := true, nxi := 1 } 3 21 38 55 16),
  ([0xF803, 0xF010, 0x7958], .stg { xp := true, nxi := 1 } 3 5 6 16), ([0xF803, 0xF5B7, 0x795A], .stgIndex { xp := true, xr := true } 3 21 38 55),
  ([0xF803, 0xF5B7, 0xF010, 0x7959], .stgPolicy { xp := true, xr := true, nxi := 1 } 3 21 38 55 16), ([0x7558], .ldg {} 52 5 6 0),
  ([0xF010, 0x7D58], .cinc { nxi := 1 } 5 6 16), ([0xF5B7, 0x7D59], .cincReg { xr := true } 21 38 55), ([0xF010, 0x8158], .csetb { nxi := 1 } 5 6 16),
  ([0xF5B7, 0x8159], .csetbReg { xr := true } 21 38 55), ([0xF010, 0x8558], .cperm { nxi := 1 } 5 6 16),
  ([0xF5B7, 0x8559], .cpermReg { xr := true } 21 38 55), ([0x8958], .cgetBase {} 5 6), ([0x8959], .cgetTop {} 5 6), ([0x895A], .cgetPerm {} 5 6),
  ([0x895B], .cgetTag {} 5 6)] : List (List Parcel × Instr)).all decodes = true := by decide +kernel

theorem test_decode_floating : ([
  ([0xF856, 0xF5B7, 0x0158], .fadd { xp := true, xr := true } 22 21 38 55), ([0xF856, 0xF5B7, 0x0159], .fsub { xp := true, xr := true } 22 21 38 55),
  ([0xF856, 0xF5B7, 0x015A], .fmul { xp := true, xr := true } 22 21 38 55), ([0xF853, 0x015B], .fdiv { xp := true } 19 5 5 6),
  ([0xF856, 0xF5B7, 0x0558], .fma { xp := true, xr := true } 22 21 38 55), ([0xF856, 0xF5B7, 0x0559], .fms { xp := true, xr := true } 22 21 38 55),
  ([0xF856, 0xF5B7, 0x055A], .fnma { xp := true, xr := true } 22 21 38 55), ([0xF856, 0xF5B7, 0x055B], .fnms { xp := true, xr := true } 22 21 38 55),
  ([0xF853, 0x0958], .fmin { xp := true } 19 5 5 6), ([0xF853, 0x0959], .fmax { xp := true } 19 5 5 6), ([0xF853, 0x095A], .fabs { xp := true } 19 5 6),
  ([0xF853, 0x095B], .fneg { xp := true } 19 5 6), ([0xF852, 0xF5B7, 0x0D58], .fcmpEq { xp := true, xr := true } 18 21 38 55),
  ([0xF852, 0xF5B7, 0x0D59], .fcmpLt { xp := true, xr := true } 18 21 38 55),
  ([0xF852, 0xF5B7, 0x0D5A], .fcmpLe { xp := true, xr := true } 18 21 38 55),
  ([0xF852, 0xF5B7, 0x0D5B], .fcmpUn { xp := true, xr := true } 18 21 38 55),
  ([0xF85A, 0xF593, 0x1158], .fcvt { xp := true, xr := true } 26 false 21 38 19),
  ([0xF85A, 0xF593, 0x1159], .fcvt { xp := true, xr := true } 26 true 21 38 19), ([0xF853, 0x1558], .frcp { xp := true } 19 5 6),
  ([0xF853, 0x1559], .frsq { xp := true } 19 5 6), ([0xF853, 0x155A], .fexp2 { xp := true } 19 5 6), ([0xF853, 0x155B], .flog2 { xp := true } 19 5 6),
  ([0xF853, 0x1958], .fsig { xp := true } 19 5 6), ([0xF853, 0x1959], .fsqrt { xp := true } 19 5 6), ([0xF853, 0x195A], .ftanh { xp := true } 19 5 6),
  ([0xF856, 0xF5B7, 0x1D58], .scale { xp := true, xr := true } 22 21 38 55)] : List (List Parcel × Instr)).all decodes = true := by decide +kernel

theorem test_decode_vectors : ([
  ([0xF843, 0x2158], .vredAdd { xp := true } 3 5 6), ([0xF843, 0x2159], .vredMin { xp := true } 3 5 6),
  ([0xF843, 0x215A], .vredMax { xp := true } 3 5 6), ([0xF843, 0x215B], .vredAddx { xp := true } 3 5 6),
  ([0xF843, 0x2558], .vbcast { xp := true } 3 5 6), ([0xF843, 0xF5B7, 0x2559], .vperm { xp := true, xr := true } 3 21 38 55),
  ([0xF843, 0xF5B7, 0x255A], .vshuf { xp := true, xr := true } 3 21 38 55), ([0xF843, 0xF5B7, 0x255B], .vslide { xp := true, xr := true } 3 21 38 55),
  ([0xF876, 0xF5B7, 0x2958], .vsel { xp := true, xr := true } 54 21 38 55), ([0xF84A, 0xF5B7, 0x2D58], .viadd { xp := true, xr := true } 10 21 38 55),
  ([0xF84A, 0xF5B7, 0x2D59], .visub { xp := true, xr := true } 10 21 38 55), ([0xF84A, 0xF5B7, 0x2D5A], .vimul { xp := true, xr := true } 10 21 38 55),
  ([0xF84A, 0xF5B7, 0x2D5B], .vimac { xp := true, xr := true } 10 21 38 55), ([0xF876, 0xF5B7, 0x3158], .vand { xp := true, xr := true } 54 21 38 55),
  ([0xF876, 0xF5B7, 0x3159], .vor { xp := true, xr := true } 54 21 38 55), ([0xF876, 0xF5B7, 0x315A], .vxor { xp := true, xr := true } 54 21 38 55),
  ([0xF84A, 0xF5B7, 0x315B], .vshl { xp := true, xr := true } 10 21 38 55), ([0xF876, 0xF040, 0x3558], .vldl { xp := true, nxi := 1 } 54 5 6 64),
  ([0xF876, 0xF040, 0x3559], .vstl { xp := true, nxi := 1 } 54 5 6 64), ([0xF843, 0xF5B7, 0x3958], .vgath { xp := true, xr := true } 3 21 38 55),
  ([0xF843, 0xF5B7, 0x3959], .vscat { xp := true, xr := true } 3 21 38 55)] : List (List Parcel × Instr)).all decodes = true := by decide +kernel

theorem test_decode_global : ([
  ([0xF880, 0xF5B7, 0x0159], .atomAdd { xp := true, xr := true } 1 21 38 55), ([0xF880, 0xF4B7, 0x0419], .redAdd { xp := true, xr := true } 1 38 55),
  ([0xF881, 0xF5B7, 0x0159], .atomMin { xp := true, xr := true } 1 21 38 55), ([0xF881, 0xF4B7, 0x0419], .redMin { xp := true, xr := true } 1 38 55),
  ([0xF882, 0xF5B7, 0x0159], .atomMax { xp := true, xr := true } 1 21 38 55), ([0xF882, 0xF4B7, 0x0419], .redMax { xp := true, xr := true } 1 38 55),
  ([0xF883, 0xF5B7, 0x0159], .atomMinn { xp := true, xr := true } 1 21 38 55), ([0xF883, 0xF4B7, 0x0419], .redMinn { xp := true, xr := true } 1 38 55),
  ([0xF884, 0xF5B7, 0x0159], .atomMaxn { xp := true, xr := true } 1 21 38 55), ([0xF884, 0xF4B7, 0x0419], .redMaxn { xp := true, xr := true } 1 38 55),
  ([0xF885, 0xF5B7, 0x0159], .atomAnd { xp := true, xr := true } 1 21 38 55), ([0xF885, 0xF4B7, 0x0419], .redAnd { xp := true, xr := true } 1 38 55),
  ([0xF886, 0xF5B7, 0x0159], .atomOr { xp := true, xr := true } 1 21 38 55), ([0xF886, 0xF4B7, 0x0419], .redOr { xp := true, xr := true } 1 38 55),
  ([0xF887, 0xF5B7, 0x0159], .atomXor { xp := true, xr := true } 1 21 38 55), ([0xF887, 0xF4B7, 0x0419], .redXor { xp := true, xr := true } 1 38 55),
  ([0xF888, 0xF5B7, 0x0159], .atomXchg { xp := true, xr := true } 1 21 38 55), ([0xF888, 0xF4B7, 0x0419], .redXchg { xp := true, xr := true } 1 38 55),
  ([0xF889, 0xF5B7, 0x0159], .atomCas { xp := true, xr := true } 1 21 38 55), ([0xF88A, 0xF5B7, 0x0159], .atomMinp { xp := true, xr := true } 21 38 55),
  ([0xF88A, 0xF4B7, 0x0419], .redMinp { xp := true, xr := true } 38 55), ([0xF88B, 0xF5B7, 0x0158], .atomSt4 { xp := true, xr := true } 21 38 55),
  ([0xF88B, 0xF4B7, 0x0418], .redSt4 { xp := true, xr := true } 38 55), ([0xF88B, 0x0958], .gath { xp := true } 11 5 6),
  ([0xF880, 0xF4B7, 0xF010, 0x0C18], .prefSlice { xp := true, xr := true, nxi := 1 } 38 55 16),
  ([0xF880, 0xF4B7, 0xF010, 0x0C19], .prefStage { xp := true, xr := true, nxi := 1 } 38 55 16), ([0xF883, 0x1000], .fence { xp := true } 3),
  ([0xF883, 0x1001], .rel { xp := true } 3), ([0xF883, 0x1002], .acq { xp := true } 3),
  ([0xF880, 0xF040, 0x1558], .ldgv { xp := true, nxi := 1 } 5 6 64), ([0xF880, 0xF040, 0x1559], .stgv { xp := true, nxi := 1 } 5 6 64)] : List (List Parcel × Instr)).all decodes = true := by decide +kernel

theorem test_decode_engines : ([
  ([0xF8C0, 0x0158], .copyLin { xp := true } 5 6), ([0xF8C0, 0x0159], .copy2d { xp := true } 5 6), ([0xF8C0, 0x015A], .copyList { xp := true } 5 6),
  ([0xF8C0, 0x015B], .copyFill { xp := true } 5 6), ([0xF8C0, 0x0558], .dload { xp := true } 5 6), ([0xF8C0, 0x0818], .dseal { xp := true } 6),
  ([0xF8C0, 0x0819], .dopen { xp := true } 6), ([0xF8C0, 0x0942], .dstat { xp := true } 5), ([0xF8C0, 0x0D58], .dwin { xp := true } 5 6),
  ([0xF8C0, 0xF537, 0x1140], .recv { xp := true, xr := true } 21 55), ([0xF8C0, 0xF5B7, 0x1558], .sendm { xp := true, xr := true } 21 38 55),
  ([0xF900, 0x0158], .mfmt { xp := true } 5 6), ([0xF900, 0x0558], .mm { xp := true } 5 6), ([0xF900, 0x0559], .mmz { xp := true } 5 6),
  ([0xF900, 0x0958], .mdrain { xp := true } 5 6), ([0xF900, 0x0C18], .maccLoad { xp := true } 6), ([0xF900, 0x0C19], .maccStore { xp := true } 6),
  ([0xF900, 0x0C02], .maccClear { xp := true }), ([0xF900, 0x1158], .walk { xp := true } 5 6), ([0xF900, 0x1159], .wresume { xp := true } 5 6),
  ([0xF900, 0x1540], .wstat { xp := true } 5), ([0xF900, 0x1958], .sort { xp := true } 5 6), ([0xF900, 0x1959], .sortc { xp := true } 5 6)] : List (List Parcel × Instr)).all decodes = true := by decide +kernel

theorem test_decode_threads : ([
  ([0xF940, 0x0158], .allot { xp := true } 5 6), ([0xF940, 0x0159], .shrink { xp := true } 5 6), ([0xF940, 0x0658], .bind { xp := true } 9 6),
  ([0xF940, 0x0655], .bindp { xp := true } 9 1 true), ([0xF940, 0x0642], .unbind { xp := true } 9), ([0xF940, 0x0567], .bstat { xp := true } 5 9),
  ([0xF980, 0x0158], .launch { xp := true } 5 6), ([0xF980, 0x0418], .fork { xp := true } 6), ([0xF980, 0x0818], .join { xp := true } 6),
  ([0xF980, 0x0D58], .bar { xp := true } 5 6), ([0xF980, 0x0C19], .barx { xp := true } 6), ([0xF980, 0x1019], .xsend { xp := true } 6),
  ([0xF980, 0x1002], .xend { xp := true }), ([0xF980, 0x1401], .yield { xp := true }), ([0xF980, 0x1958], .seam { xp := true } 5 6),
  ([0xF980, 0x1959], .panel { xp := true } 5 6), ([0xF980, 0x1802], .seamend { xp := true }), ([0xF980, 0x1943], .spos { xp := true } 5),
  ([0xF980, 0x1C00], .sresume { xp := true }), ([0xF980, 0xF5B7, 0x1158], .xsel { xp := true, xr := true } 21 38 55),
  ([0xF980, 0xF5B7, 0x1558], .waitv { xp := true, xr := true } 21 38 55)] : List (List Parcel × Instr)).all decodes = true := by decide +kernel

theorem test_decode_system : ([
  ([0xF9C0, 0x0005], .trap { xp := true } 5), ([0xF9C0, 0x0400], .tret { xp := true }), ([0xF9C0, 0x09FF], .hcall { xp := true } 0x1FF),
  ([0xF9C0, 0x0A04], .hcall { xp := true } 0x204), ([0xF9C0, 0x0A00], .hcallResize { xp := true }),
  ([0xF9C0, 0x0A01], .hcallReturnSwatch { xp := true }), ([0xF9C0, 0x0A02], .hcallAttest { xp := true }),
  ([0xF9C0, 0x0A03], .hcallDamaskTemplate { xp := true }), ([0xF9C0, 0x0C09], .mark { xp := true } 9), ([0xF9C0, 0x1158], .xinv { xp := true } 5 6),
  ([0xF9C0, 0x1400], .idle { xp := true })] : List (List Parcel × Instr)).all decodes = true := by decide +kernel


/-! ## Witnesses: for each statement, states and operands that meet the hypotheses of each clause together -/

/-- A capability for the local window `[0, 65536)`, with every permission but SYS and EX. -/
def winCap (lo : W64) : Val := capOf lo 0xBF 0 0 65536
/-- A capability for all of global memory, with every permission. -/
def allCap (lo : W64) : Val := capOf lo 0xDF 44 0 256
/-- A capability for a Damask slice. -/
def damCap (lo : W64) : Val := capOf lo 0x11B 5 0 786432

/-- A thread at an instruction: its window in g2 and g14, global memory in g3, numbers in g4 to g7, a Damask slice in g12. -/
def runner : Thread :=
  { occ := .resident, bolt := 1, launch := 1, block := 1, allot := 64, mode := true, pc := 0x1000, tvec := 0x2000, traced := 0,
    ecap := allCap 0x1000,
    regs := [(1, Val.ofW 0x1100), (2, winCap 0), (3, allCap 0x10000), (4, Val.ofW 7), (5, Val.ofW 3), (6, Val.ofW 9), (12, damCap 0), (14, winCap 0)] }

/-- The module with this thread in slot 0 of core 0 and one bolt of one cluster and one slice. -/
def world (t : Thread) : State :=
  { threads := [(0, t)], cores := [(0, { live := true })], clusters := [(0, { owner := .bolt 1 })], slices := [(0, { owner := .bolt 1 })],
    bolts := [(1, { live := true, clusters := [0], slices := [0] })],
    blocks := [(1, { launch := 1, bolt := 1, cluster := 0, lb := 0x10000, ws := 65536, window := 0, live := 1 })], boot := .running }

/-- `runner`, in user mode, in a handler, in an exchange phase, with registers replaced. -/
def user : Thread := { runner with mode := false }
def inPhase1 : Thread := { runner with xchg := true, xphase := some 1 }
def withRegs (l : List (Nat × Val)) : Thread := l.foldl (fun t r => t.setReg (BitVec.ofNat 6 r.1) r.2) runner

/-- A guard that lets through: f0 clear, inverted. -/
def guarded : Pre := { xq := true, gen := true, inv := true }

/-- Whether an instruction executes: the hypotheses `Runs` and `Executes` as computations, with CHECK clear. -/
def runsB (q : Pre) (regs : List Reg) (s : State) : Bool :=
  decide (s.t.occ = .resident ∧ s.t.wait = .none ∧ s.t.stage = 0 ∧ s.t.xchg = false ∧ s.t.check = false) && guardOn s.t q &&
  regs.all (fun r => decide (r.toNat < s.t.allot) && !s.t.pending.contains r.toNat)
def unboundB (regs : List Reg) (s : State) : Bool := regs.all (fun r => (Map.find s.t.binds r.toNat).isNone)
def executesB (q : Pre) (regs : List Reg) (s : State) : Bool := runsB q regs s && unboundB regs s

theorem runs_of {q : Pre} {regs : List Reg} {s : State} (flags : List Flag) (h : runsB q regs s = true) : Runs q regs flags s := by
  simp only [runsB, Bool.and_eq_true, decide_eq_true_eq, List.all_eq_true, Bool.not_eq_true'] at h
  obtain ⟨⟨⟨h1, h2, h3, h5, h6⟩, hg⟩, hr⟩ := h
  refine ⟨⟨h1, h2, h3⟩, h5, fun hq => ?_, fun r m => ⟨(hr r m).1, fun c => ?_⟩, fun c => by simp [h6] at c⟩
  · simpa [guardOn, hq, bne_iff_ne] using hg
  · have := (hr r m).2; simp [c] at this

theorem unbound_of {regs : List Reg} {s : State} (h : unboundB regs s = true) : Unbound regs s := fun r m => by
  simpa using List.all_eq_true.mp h r m

theorem executes_of {q : Pre} {regs : List Reg} {s : State} (flags : List Flag) (h : executesB q regs s = true) : Executes q regs flags s := by
  simp only [executesB, Bool.and_eq_true] at h
  exact ⟨runs_of flags h.1, unbound_of h.2⟩

/-- A command executes: the hypothesis `Commands` as a computation. -/
def commandsB (q : Pre) (d : Reg) (group read : List Reg) (s : State) : Bool :=
  runsB q (d :: read) s && group.all (fun x => decide (x.toNat < s.t.allot)) && unboundB (d :: group) s
theorem commands_of {q : Pre} {d : Reg} {group read : List Reg} {s : State} (h : commandsB q d group read s = true) : Commands q d group read s := by
  simp only [commandsB, Bool.and_eq_true, List.all_eq_true, decide_eq_true_eq] at h
  exact ⟨runs_of _ h.1.1, h.1.2, unbound_of h.2⟩

/-- A check that passes. -/
def passes (x : Res Unit) : Bool := match x with | .ok () => true | _ => false
theorem ok_of {x : Res Unit} (h : passes x = true) : x = .ok () := by cases x <;> simp_all [passes]
/-- A check that stops. -/
def refusesWith (x : Res Unit) (e : Stop) : Bool := match x with | .error f => decide (f = e) | _ => false
theorem error_of {x : Res Unit} {e : Stop} (h : refusesWith x e = true) : x = .error e := by cases x <;> simp_all [refusesWith]

theorem w_IntegerResults : Executes {} [4, 5, 6] [] (world runner) ∧ Executes guarded [4, 5, 0] [7] (world runner) ∧ Executes {} [4, 63] [] (world runner) ∧
    (0x8000000000000000 : W64) ≠ 0 ∧ ∀ k, k < 16 → bits (Map.get (world runner).c.evs k 0).toNat 7 0 ∉ [1, 2, 3, 13, 14] :=
  ⟨executes_of _ (by decide +kernel), executes_of _ (by decide +kernel), executes_of _ (by decide +kernel), by decide +kernel, by decide +kernel⟩

theorem w_FieldsAndCompares : Executes {} [4, 5, 6] [0] (world runner) ∧ Executes {} [4, 5] [1, 2] (world runner) ∧ 3 < (4 : Code).toNat ∧ (12 : Code).toNat > 11 ∧ (7 : Code).toNat < 8 :=
  ⟨executes_of _ (by decide +kernel), executes_of _ (by decide +kernel), by decide +kernel, by decide +kernel, by decide +kernel⟩

/-- A seam member other than the head, and a head of a seam of two. -/
def follower : Thread := { runner with seamed := true, seam := some { head := 4, row := 0, col := 1, ncols := 2, nrows := 1, skew := 1 } }
def odd1 : Thread := withRegs [(1, Val.ofW 0x1101)]

theorem w_ImmediatesAndHold : Executes {} [4] [] (world runner) ∧ (0x7FFFFFFFFFFFFFFF : W64).toNat < 2 ^ 63 ∧ 2 ^ 63 ≤ (0x8000000000000000 : W64).toNat :=
  ⟨executes_of _ (by decide +kernel), by decide +kernel, by decide +kernel⟩

theorem w_ControlTransfers : Executes {} [] [3] (world runner) ∧ Executes {} [1, 1] [] (world runner) ∧ (valOf (world runner) 1).getLsbD 0 = false ∧
    (Executes {} [1, 1] [] (world follower) ∧ follows (world follower).t = true) ∧
    (Executes {} [1, 1] [] (world odd1) ∧ follows (world odd1).t = false ∧ (valOf (world odd1) 1).getLsbD 0 = true) ∧
    (Executes {} [5] [] (world runner) ∧ 1 ≤ (1 : W64).toInt) ∧ (0 : W64).toInt < 1 :=
  ⟨executes_of _ (by decide +kernel), executes_of _ (by decide +kernel), by decide +kernel, ⟨executes_of _ (by decide +kernel), by decide +kernel⟩,
    ⟨executes_of _ (by decide +kernel), by decide +kernel, by decide +kernel⟩, ⟨executes_of _ (by decide +kernel), by decide +kernel⟩, by decide +kernel⟩

/-- A capability whose exponent is malformed, tagged. -/
def badCap : Val := { bits := (45 : BitVec 128) <<< 80, tag := true }

theorem w_CapabilityInstructions : Executes {} [3, 4, 5] [] (world runner) ∧
    (Executes {} [3, 5] [] (world runner) ∧ ((world runner).t.reg 3).tag = true ∧ capE ((world runner).t.reg 3) ≤ 44) ∧
    -- CSETB: in bounds, and at the edge of the address space; below the base; above the top
    ((valOf (world runner) 3).toNat + (0xFFFFFFFFFFFF0000 : W64).toNat ≤ 2 ^ 64 ∧ 2 ^ 64 < (valOf (world runner) 3).toNat + (0xFFFFFFFFFFFF0001 : W64).toNat) ∧
    (let s := world (withRegs [(3, capOf 0x1000 0xDF 0 0x2000 0x3000)]);
      Executes {} [3, 5] [] s ∧ unitsAt (valOf s 3).toNat 64 0 ≤ 2 ^ 20 ∧ ((0x1000 : Nat) : Int) < (capBounds (s.t.reg 3)).base) ∧
    (let s := world (withRegs [(3, capOf 0x2000 0xDF 0 0x2000 0x3000)]);
      Executes {} [3, 5] [] s ∧ (capBounds (s.t.reg 3)).base ≤ 0x2000 ∧ (0x2000 + 0x1000 : Int) ≤ (capBounds (s.t.reg 3)).top ∧ (capBounds (s.t.reg 3)).top < 0x2000 + 0x1001) ∧
    (Executes {} [4, 5] [] (world runner) ∧ ((world runner).t.reg 4).tag = false) ∧
    (let s := world (withRegs [(3, badCap)]); Executes {} [3, 5] [] s ∧ (s.t.reg 3).tag = true ∧ 45 ≤ capE (s.t.reg 3)) :=
  ⟨executes_of _ (by decide +kernel), ⟨executes_of _ (by decide +kernel), by decide +kernel, by decide +kernel⟩, by decide +kernel,
    ⟨executes_of _ (by decide +kernel), by decide +kernel, by decide +kernel⟩, ⟨executes_of _ (by decide +kernel), by decide +kernel, by decide +kernel, by decide +kernel⟩,
    ⟨executes_of _ (by decide +kernel), by decide +kernel⟩, ⟨executes_of _ (by decide +kernel), by decide +kernel, by decide +kernel⟩⟩

/-- The value of an answer without fault. -/
def okVal (x : Res Val) : Val := match x with | .ok v => v | _ => {}
theorem okVal_of {x : Res Val} (h : (match x with | .ok _ => true | _ => false) = true) : x = .ok (okVal x) := by cases x <;> simp_all [okVal]

theorem w_CapabilityBounds : capE (allCap 0) ≤ 44 ∧ (∃ w, csetbVal 3 (allCap 0x10000) 0x1234 = .ok w) ∧ (∃ w, cpermVal 3 (allCap 0x10000) 3 = .ok w) ∧
    (cincVal (allCap 0) 64).tag = true :=
  ⟨by decide +kernel, ⟨_, okVal_of (by decide +kernel)⟩, ⟨_, okVal_of (by decide +kernel)⟩, by decide +kernel⟩

def handling : Thread := { runner with handler := true }

theorem w_ControlRegisters :
    (Executes {} [5] [] (world runner) ∧ (∀ i ∈ ([0x000, 0x102, 0xFFF] : List W64), i.toNat ≤ 0xFFF ∧ isZ i.toNat = false ∧ i.toNat ≠ 0x101 ∧ ¬ (0x110 ≤ i.toNat ∧ i.toNat ≤ 0x11F)) ∧
      isZ 0x010 = true ∧ isZ 0x013 = true ∧ 0xFFF < (0x1000 : W64).toNat) ∧
    (Executes {} [5] [] (world user) ∧ (world user).t.mode = false) ∧ (Executes {} [5] [] (world handling) ∧ (world handling).t.handler = true) ∧
    ((world runner).t.mode = true ∧ (valOf (world runner) 5).toNat % 4 ≠ 0 ∧ accessesDone (world runner) = true) ∧
    (∀ i ∈ ([0x300, 0x30A, 0x3FF] : List W64), 0x300 ≤ i.toNat ∧ i.toNat ≤ 0x3FF ∧ i.toNat ≠ 0x30B) :=
  ⟨⟨executes_of _ (by decide +kernel), by simp [isZ], by decide +kernel, by decide +kernel, by decide +kernel⟩, ⟨executes_of _ (by decide +kernel), rfl⟩, ⟨executes_of _ (by decide +kernel), rfl⟩,
    by decide +kernel, by simp⟩

/-- The values that ALLOT and SHRINK are asked for: too small, above 64, not a multiple, the least and the greatest. -/
def small : Thread := { runner with allot := 32, regs := [(4, Val.ofW 16), (5, Val.ofW 15), (6, Val.ofW 64), (7, Val.ofW 72), (8, Val.ofW 20)] }
/-- Core 0 with its slots full: 48 entries each. -/
def full : State := { world { small with allot := 48 } with threads := [(0, { small with allot := 48 }), (1, { runner with allot := 48 }), (2, { runner with allot := 48 }), (3, { runner with allot := 48 })] }
def bound (r : Nat) (b : Binding) : Thread := { runner with binds := [(r, b)] }

theorem w_AllotmentAndBindings :
    (Executes {} [4, 10] [] (world small) ∧ (∀ r ∈ ([5, 7, 8] : List Reg), let n := (valOf (world small) r).toNat; n % 8 ≠ 0 ∨ n < 16 ∨ 64 < n) ∧ (valOf (world small) 4).toNat < 32 ∧
      (valOf (world small) 6).toNat - 32 ≤ freeEntries (world small) 0 ∧ (∀ x ∈ (world small).t.pending, x < 16)) ∧
    (let s := full; Executes {} [6, 10] [] s ∧ s.t.allot ≤ (valOf s 6).toNat ∧ freeEntries s s.curCore < (valOf s 6).toNat - s.t.allot) ∧
    (let s := world { small with pending := [20] }; Executes {} [4, 10] [] s ∧ ∃ x ∈ s.t.pending, (valOf s 4).toNat ≤ x) ∧
    -- BIND: eight elements of 32 bits of the window, r = g4 to g7
    (let s := world (withRegs [(4, winCap 0), (5, Val.ofW 4), (6, Val.ofW 8), (7, Val.ofW 3)]);
      Executes {} [4, 5, 6, 7, 8] [] s ∧ capDam (s.t.reg 4) = false ∧ ((valOf s 7).toNat % 8 = 0 → capLoc (s.t.reg 4) = true) ∧ (valOf s 7).toNat % 8 < 6 ∧
        ∀ k, k < 8 → elementCheck s 4 (s.t.reg 4) 4 3 false k = .ok ()) ∧
    (let s := world runner; Executes {} [9] [] s ∧ neighbour s.curCore 1 = some 1 ∧ 1 ∉ s.fused ∧ clusterOf 1 = s.curCluster ∧
      (∀ j ∈ residents s s.curCore, holdsPort (s.thread j) (if j = s.cur then some (9 : Reg).toNat else none) true 1 = false) ∧ neighbour s.curCore 0 = none) ∧
    bindable 8 = true ∧ bindable 15 = true ∧ bindable 7 = false ∧ bindable 16 = false :=
  ⟨⟨executes_of _ (by decide +kernel), by decide +kernel, by decide +kernel, by decide +kernel, by decide +kernel⟩,
    ⟨executes_of _ (by decide +kernel), by decide +kernel, by decide +kernel⟩, ⟨executes_of _ (by decide +kernel), by decide +kernel⟩,
    ⟨executes_of _ (by decide +kernel), by decide +kernel, by decide +kernel, by decide +kernel,
      fun k h => ok_of (by revert k; decide +kernel)⟩,
    ⟨executes_of _ (by decide +kernel), by decide +kernel, by decide +kernel, by decide +kernel, by decide +kernel, by decide +kernel⟩, by decide +kernel⟩

theorem w_OperandForms : Map.find runner.binds 8 = none ∧
    Map.find (bound 8 (.stream false (winCap 0) 4 8 3 false 0 0 [Val.ofW 1])).binds (8 : Reg).toNat = some (.stream false (winCap 0) 4 8 3 false 0 0 [Val.ofW 1]) ∧
    Map.find (bound 8 (.stream true (winCap 0) 4 8 3 false 0 0 [])).binds (8 : Reg).toNat = some (.stream true (winCap 0) 4 8 3 false 0 0 []) ∧
    Map.find (bound 8 (.port false 1)).binds (8 : Reg).toNat = some (.port false 1) ∧
    (let s := world (bound 8 (.port true 1)); Map.find s.t.binds (8 : Reg).toNat = some (.port true 1) ∧ neighbour s.curCore 1 = some 1 ∧ clusterOf 1 = s.curCluster) ∧
    -- the core east of core 7 is in a cluster that no PERMT bit of cluster 0 names
    (let s := { world runner with threads := [(28, bound 8 (.port true 1))], cur := 28 }; Map.find s.t.binds (8 : Reg).toNat = some (.port true 1) ∧ neighbour s.curCore 1 = some 8 ∧
      clusterOf 8 ≠ s.curCluster ∧ clusterOf 8 ∉ s.cl.permt) ∧
    Executes {} [4, 5, 6] [] (world runner) :=
  ⟨rfl, rfl, rfl, rfl, by decide +kernel, by decide +kernel, executes_of _ (by decide +kernel)⟩

theorem w_LocalAccesses : okLocal 3 = true ∧ okLocal 0 = true ∧ okVector 54 = true ∧ okLane 3 = true ∧
    (let s := world runner;
      Executes {} [2, 4, 5] [] s ∧ Executes {} (2 :: four 16 ++ four 20) [] s ∧ windowOut s s.cur = false ∧
      -- a 32-bit access at the last word of the window, a nibble at its first byte, a group at its last 64 bytes, lanes at offset 0
      (∀ p ∈ ([(65532, 4), (0, 1), (65472, 64)] : List (Int × Nat)), ∀ wr, checkWindowed s 2 (s.t.reg 2) p.1 p.2 (!wr) wr = .ok ()) ∧
      ∀ o ∈ laneAt s 3 2 20, ∀ wr, checkLocal s s.cur 2 (s.t.reg 2) o 4 (!wr) wr = .ok ()) :=
  ⟨by decide +kernel, by decide +kernel, by decide +kernel, by decide +kernel, executes_of _ (by decide +kernel), executes_of _ (by decide +kernel), by decide +kernel,
    fun p h wr => ok_of (by revert p wr; decide +kernel), fun o h wr => ok_of (by revert o wr; decide +kernel)⟩

theorem w_AccessFaults : okLocal 3 = true ∧ okGlobal 3 = true ∧
    (let s := world runner;
      Executes {} [2, 5] [] s ∧ Executes {} [3, 5] [] s ∧ unordered s s.t.pol ∧
      -- one byte past the window; address 2^52
      checkWindowed s 2 (s.t.reg 2) 65533 4 true false = .error (.trap .capbound (capTval 2 false 1 65536)) ∧
      -- an offset below 0, with the permissions to read and write
      (((-4 : Int) < 0 ∧ bitAt (capPerm (s.t.reg 2)) 0 = true ∧ bitAt (capPerm (s.t.reg 2)) 1 = true ∧ capE (s.t.reg 2) ≤ 44) ∧
        checkWindowed s 2 (s.t.reg 2) (-4) 4 true true = .error (.trap .capbound (capTval 2 false 0 (2 ^ 64 - 4)))) ∧
      checkGlobal 3 (s.t.reg 3) [permR] (2 ^ 52) 4 = .error (.trap .capbound (capTval 3 false 1 (2 ^ 52))) ∧
      checkLocal s s.cur 2 (s.t.reg 2) 65532 4 true false = .ok () ∧ checkGlobal 3 (s.t.reg 3) [permR] (2 ^ 52 - 2 ^ 49) 4 = .ok ()) ∧
    ((allCap 0).tag = true ∧ capLoc (allCap 0) = false ∧ (winCap 0).tag = true ∧ capLoc (winCap 0) = true ∧ capDam (winCap 0) = false ∧ (Val.ofW 1).tag = false) ∧
    (let v := capOf 0 0x22 0 0 64; v.tag = true ∧ capLoc v = true ∧ capDam v = false ∧ bitAt (capPerm v) 0 = false) ∧
    (let v := capOf 0 0x21 0 0 64; v.tag = true ∧ capLoc v = true ∧ capDam v = false ∧ bitAt (capPerm v) 1 = false) ∧
    (let v := capOf 0 0x3F 45 0 64; v.tag = true ∧ capLoc v = true ∧ capDam v = false ∧ bitAt (capPerm v) 0 = true ∧ bitAt (capPerm v) 1 = true ∧ 45 ≤ capE v) ∧
    (let v := capOf 0 0x01 0 0 64; v.tag = true ∧ capLoc v = false ∧ capDam v = false ∧ bitAt (capPerm v) permW = false ∧ ∀ k ∈ [permW], k < permW → bitAt (capPerm v) k = true) :=
  ⟨by decide +kernel, by decide +kernel, ⟨executes_of _ (by decide +kernel), executes_of _ (by decide +kernel), ⟨by decide +kernel, by decide +kernel⟩, error_of (by decide +kernel),
    ⟨by decide +kernel, error_of (by decide +kernel)⟩, error_of (by decide +kernel), ok_of (by decide +kernel), ok_of (by decide +kernel)⟩, by and_intros <;> decide +kernel⟩

/-- The bank queue of cluster 0 with one request. -/
def banks (r : LReq) : State := (world runner).setCluster 0 { owner := .bolt 1, lq := [r] }

theorem w_LocalGrants :
    -- a store in bank 0 and a 4-bit store in bank 63, with no unit left after; a store with a unit left in bank 1
    (∀ x ∈ ([({ tid := 0, store := true, pieces := [(0x10000, 4, 0)], data := 0x12345678, left := [0x1000] }, 0x1000),
        ({ tid := 0, store := true, pieces := [(0x103F8, 1, 0)], data := 0xA, nib := some true, left := [0x103F] }, 0x103F),
        ({ tid := 0, store := true, pieces := [(0x10008, 16, 0)], left := [0x1000, 0x1001] }, 0x1001),
        ({ tid := 0, store := true, pieces := [(0x10010, 16, 0)], tag := true, left := [0x1001] }, 0x1001)] : List (LReq × Nat)), let s := banks x.1;
      x.2 % 64 < 64 ∧ (s.cluster 0).lq = [x.1] ∧ x.1.left.find? (fun y => decide (y % 64 = x.2 % 64)) = some x.2 ∧ clusterOf (coreOf x.1.tid) = 0 ∧ x.1.store = true ∧
      Memory.wf (s.cluster 0).mem.cells = true ∧ Map.canon false none (s.cluster 0).mem.tags = true ∧ x.1.pieces.length = 1) ∧
    -- a load's last unit, and one of two
    (∀ x ∈ ([({ tid := 0, store := false, pieces := [(0x10000, 4, 0)], dst := 63, ext := .sx 32, left := [0x1000] }, 0x1000),
        ({ tid := 0, store := false, pieces := [(0x10008, 16, 0)], dst := 63, ext := .zx, left := [0x1000, 0x1001] }, 0x1001)] : List (LReq × Nat)), let s := banks x.1;
      (s.cluster 0).lq = [x.1] ∧ x.1.left.find? (fun y => decide (y % 64 = x.2 % 64)) = some x.2 ∧ clusterOf (coreOf x.1.tid) = 0 ∧ x.1.store = false ∧ x.1.nib = none ∧
      (∀ p ∈ x.1.pieces, max p.1 (16 * x.2) < min (p.1 + p.2.1) (16 * x.2 + 16)) ∧ Map.find (s.thread x.1.tid).binds x.1.dst = none ∧ x.1.dst < 64 ∧ x.1.dst ≠ 0) ∧
    (([0x1000] : List Nat).erase 0x1000 = [] ∧ ([0x1000, 0x1001] : List Nat).erase 0x1001 ≠ []) :=
  ⟨by decide +kernel, by decide +kernel, by decide +kernel⟩
def isOk {ε α : Type} (x : Except ε α) : Bool := match x with | .ok _ => true | .error _ => false
theorem exists_ok {ε α : Type} {x : Except ε α} (h : isOk x = true) : ∃ a, x = .ok a := by cases x <;> simp_all [isOk]
theorem exists_error {ε α : Type} {x : Except ε α} (h : isOk x = false) : ∃ a, x = .error a := by cases x <;> simp_all [isOk]

def isVal {ε α : Type} [DecidableEq α] (x : Except ε α) (a : α) : Bool := match x with | .ok b => decide (b = a) | .error _ => false
theorem val_of {ε α : Type} [DecidableEq α] {x : Except ε α} {a : α} (h : isVal x a = true) : x = .ok a := by cases x <;> simp_all [isVal]
def isErr {ε α : Type} [DecidableEq ε] (x : Except ε α) (e : ε) : Bool := match x with | .ok _ => false | .error f => decide (f = e)
theorem err_of {ε α : Type} [DecidableEq ε] {x : Except ε α} {e : ε} (h : isErr x e = true) : x = .error e := by cases x <;> simp_all [isErr]

/-- An agent's access to `n` bytes at `va` that has been answered with these bytes, or with a fault; the list of answers under a key. -/
def anAnswer (va n stamp : Nat) (bs : List Nat) : Pull :=
  { va := va, n := n, stamp := stamp, acc := 9, sent := (lineParts va n).length, got := (lineParts va n).length,
    bytes := ((List.range bs.length).map (fun i => (i, BitVec.ofNat 8 (bs.getD i 0)))).filter (fun p => decide (p.2 ≠ 0)) }
def wroteAt (va n : Nat) : Pull := { anAnswer va n 0 [] with data := some [] }
def probedAt (va n : Nat) : Pull := { anAnswer va n 0 [] with probe := true }
def failed (p : Pull) : Pull := { p with fault := some (0, .page, 5) }
def answers (key : Nat) (l : List Pull) (s : State) : State := s.setBolt 1 { s.bolt 1 with pulls := [(key, l)] }

/-- An agent's access that waits with a request to send, one that its first failing part has ended, one that is done. -/
def waitsOn {α : Type} (x : Except PullEnd α) : Bool := match x with | .error (.wait (some _)) => true | _ => false
def failsOn {α : Type} (x : Except PullEnd α) : Bool := match x with | .error (.fault 0 .page 5) => true | _ => false
theorem waits_of {α : Type} {x : Except PullEnd α} (h : waitsOn x = true) : ∃ a, x = .error (.wait (some a)) := by
  unfold waitsOn at h; split at h
  · exact ⟨_, rfl⟩
  · cases h
theorem fails_of {α : Type} {x : Except PullEnd α} (h : failsOn x = true) : ∃ k c tv, x = .error (.fault k c tv) := by
  unfold failsOn at h; split at h
  · exact ⟨_, _, _, rfl⟩
  · cases h

/-- The world with the page at 0x10000 in the translation cache of slice 0: readable, writable, executable, atomics. -/
def paged (t : Thread) : State := (world t).setSlice 0 { owner := .bolt 1, xlat := [{ bolt := 1, page := 1, pages := 1, leaf := 0x100F3 }] }

theorem w_GlobalAccesses : okGlobal 3 = true ∧ okGlobal 53 = true ∧
    (let s := world runner; Executes {} [3, 4, 5] [] s ∧ Executes {} (3 :: four 16) [] s ∧ unordered s s.t.pol ∧ unordered s ((valOf s 4).setWidth 32) ∧
      -- one line, two lines, a group, the end of the local windows
      (∀ x ∈ [(0x10000, 4, 1), (0x1003C, 16, 2), (0x10000, 64, 1), (2 ^ 52 - 2 ^ 48 - 4, 4, 1)], ∀ wr, reaches s 3 [if wr then permW else permR] x.1 x.2.1 x.2.2 wr ∧
        (lineParts x.1 x.2.1).length = x.2.2)) :=
  ⟨by decide +kernel, by decide +kernel, executes_of _ (by decide +kernel), executes_of _ (by decide +kernel), ⟨by decide +kernel, by decide +kernel⟩, ⟨by decide +kernel, by decide +kernel⟩,
    fun x h wr => ⟨⟨ok_of (by revert x wr; decide +kernel), ok_of (by revert x wr; decide +kernel), ok_of (by revert x wr; decide +kernel)⟩, by revert x; decide +kernel⟩⟩

theorem w_AtomicsAndHints : okWidth 0 1 = true ∧ okWidth 5 2 = true ∧ okWidth 10 1 = true ∧ okWidth 11 0 = true ∧
    (let s := world runner; Executes {} [3, 4, 5] [] s ∧ unordered s s.t.pol ∧ reaches s 3 [permR, permW, permAT] 0x10000 8 1 true ∧ reaches s 3 [permW, permAT] 0x10000 1 1 true ∧
      sendRoom s 64 false = .ok ()) :=
  ⟨by decide +kernel, by decide +kernel, by decide +kernel, by decide +kernel, executes_of _ (by decide +kernel), ⟨by decide +kernel, by decide +kernel⟩,
    ⟨ok_of (by decide +kernel), ok_of (by decide +kernel), ok_of (by decide +kernel)⟩, ⟨ok_of (by decide +kernel), ok_of (by decide +kernel), ok_of (by decide +kernel)⟩, ok_of (by decide +kernel)⟩

/-- A load of four bytes, a store of four bytes of the current thread. -/
def aLoad : Req := { tid := 0, bolt := 1, cls := 1, phase := 0, va := 0x10000, n := 4, off := 0, pol := 0, op := .load false, mode := true, dest := 0 }
def aStore : Req := { aLoad with op := .store 0x1234 false }

theorem w_PacketsTravel :
    (∀ r ∈ [{ aLoad with dest := 64 }, { aLoad with dest := 63 }, { aLoad with cls := 0 }, { aLoad with dest := 128 }], let s := (world runner).setCluster 0 { owner := .bolt 1, ni := [r] };
      (s.cluster 0).ni = r :: [] ∧ r.held s = false ∧ windowHeld r = false) ∧
    dieOfDest 64 ≠ dieOfCluster 0 ∧ (dieOfDest 63 = dieOfCluster 0 ∧ (63 : Nat) < 128 ∧ aLoad.cls ≠ 0) ∧ dieOfDest 128 = dieOfCluster 0 ∧
    (∀ p ∈ [Packet.request { aLoad with dest := 64 }, .reply { tid := 0, off := 0, bytes := [1] }, .fault { tid := 0, cause := .page, tval := 5 }],
      let s := (world runner).setDie 1 { bridge := [p] }; (s.die 1).bridge = p :: [] ∧ p.held s = false) ∧
    -- held by its bucket: with one unit left, with a class that is not limited; with none left it waits
    (∀ c ∈ ([(1, 0x8000000000000000), (0, 0), (0, 0x8000000000000000)] : List (Int × W64)),
      let s := ((world runner).setCluster 0 { rated := [aLoad] }).setBolt 1 { live := true, bucket := [(1, c.1)], rate := [(1, c.2)] };
      if c = (0, 0x8000000000000000) then ∀ x ∈ (s.cluster 0).rated, Map.get (s.bolt x.bolt).bucket 1 0 ≤ 0 ∧ (Map.get (s.bolt x.bolt).rate 1 0#64).getLsbD 63 = true
      else (s.cluster 0).rated.find? (fun x => decide (x.cls = 1) && (decide (0 < Map.get (s.bolt x.bolt).bucket 1 0) || !(Map.get (s.bolt x.bolt).rate 1 0#64).getLsbD 63)) = some aLoad) := by
  and_intros <;> decide +kernel

/-- Slice 0 with a request, and a line of it pinned by another cluster. -/
def asked (r : Req) (pinned : Bool) : State := (paged runner).setSlice 0 { (paged runner).slice 0 with
  chan := [r], ways := if pinned then [(0, { bolt := 1, line := 0x400, pa := 0x10000, data := 0, tags := 0, pin := some { cluster := 5, core := 40, tick := 0, scope := 2 } })] else [] }

/-- A rehash of bolt 1 from slice 0 to slice 1: a request that still went to the old home, and one that waits at the new. -/
def movingHome : State :=
  let s := (world runner).setBolt 1 { live := true, clusters := [0], slices := [1], oldSlices := [0], sweeping := [0] }
  ((s.setSlice 0 { owner := .bolt 1, chan := [aLoad] }).setSlice 1 { owner := .bolt 1, record := [0x400], chan := [{ aLoad with dest := 1, va := 0x10040 }] })

/-- A request goes on to another home. -/
def isMoved (x : Place) : Option Nat := match x with | .moved n => some n | _ => none
theorem moved_of {x : Place} {n : Nat} (h : isMoved x = some n) : x = .moved n := by cases x <;> simp_all [isMoved]

theorem w_HomesServe :
    -- taken and performed; pinned away and recorded; a recorded one of the line first; another home; held for a shadow home
    (let s := asked aLoad false; nextRequest s 0 = some (aLoad, 1) ∧ placeOf (s.setSlice 0 (tookNext s 0 aLoad 1)) 0 aLoad = .here ∧ recordedFirst s 0 aLoad = none ∧
      mayServe (s.setSlice 0 (tookNext s 0 aLoad 1)) 0 (s.slice 0).refused aLoad = true) ∧
    (let s := asked aLoad true; nextRequest s 0 = some (aLoad, 1) ∧ placeOf (s.setSlice 0 (tookNext s 0 aLoad 1)) 0 aLoad = .here ∧ recordedFirst s 0 aLoad = none ∧
      mayServe (s.setSlice 0 (tookNext s 0 aLoad 1)) 0 (s.slice 0).refused aLoad = false) ∧
    (let s := (asked aLoad false).setSlice 0 { (asked aLoad false).slice 0 with refused := [aStore] }; nextRequest s 0 = some (aLoad, 1) ∧ recordedFirst s 0 aLoad = some aStore) ∧
    (let s := movingHome; nextRequest s 0 = some (aLoad, 1) ∧ (placeOf (s.setSlice 0 (tookNext s 0 aLoad 1)) 0 aLoad = .moved 1) ∧
      (let r := { aLoad with dest := 1, va := 0x10040 }; nextRequest s 1 = some (r, 1) ∧ placeOf (s.setSlice 1 (tookNext s 1 r 1)) 1 r = .shadowed)) ∧
    (let s := (world runner).setSlice 127 { refused := [aLoad] }; (s.slice 127).refused = aLoad :: [] ∧ heldHome s aLoad = false ∧ mayServe s 127 [] aLoad = true) ∧
    (let s := (world runner).setCluster 255 { win := [aLoad] }; (s.cluster 255).win = aLoad :: [] ∧ aLoad.held s = false ∧ behind s 255 aLoad.src aLoad.at_ aLoad.cls = false) ∧
    (regionOf aLoad.va = .ordinary ∧ byRolnis aLoad.bolt aLoad.core = false ∧ aLoad.peer = false ∧ (∃ x, translate (paged runner) aLoad.bolt 0 aLoad.va .rd = .ok x) ∧
      dieOfCluster 0 = dieOfDest aLoad.dest ∧ dieOfCluster 0 ≠ dieOfDest 64) ∧
    (let r := { aLoad with agent := some { bolt := 1, key := 5, cluster := 0, requester := 0, free := false } }; regionOf r.va = .ordinary ∧ byRolnis r.bolt r.core = false ∧ dieOfCluster (clusterOf r.core) = dieOfDest r.dest) ∧
    (∃ e, globalPartAt (world runner) 0 (reqWho aStore) aStore.va aStore.n .wr (fun _ => some (0x1234, false)) = .error e) ∧ aStore.dest < 128 ∧ aStore.answered = false ∧
    dieOfCluster (clusterOf (coreOf aStore.tid)) = dieOfDest aStore.dest :=
  ⟨by decide +kernel, by decide +kernel, by decide +kernel, ⟨by decide +kernel, moved_of (by decide +kernel), by decide +kernel⟩, by decide +kernel, by decide +kernel,
    ⟨by decide +kernel, by decide +kernel, by decide +kernel, exists_ok (by decide +kernel), by decide +kernel, by decide +kernel⟩, by decide +kernel, exists_error (by decide +kernel), by decide +kernel, by decide +kernel, by decide +kernel⟩

theorem w_HomePerforms : (let s := paged runner;
    regionOf 0x1003C = .ordinary ∧ byRolnis 1 0 = false ∧ 0x1003C % 64 + 4 ≤ 64 ∧ rising (s.slice 0).ways ∧ (newest s 0 1 0x400 0x10000).1 < 2 ^ 512 ∧
    (∃ x, translate s 1 0 0x1003C .wr = .ok x) ∧ ∃ x, globalPartAt s 0 (reqWho aStore) 0x1003C 4 .wr (fun _ => some (5, false)) = .ok x) :=
  ⟨by decide +kernel, by decide +kernel, by decide +kernel, trivial, by decide +kernel, exists_ok (by decide +kernel), exists_ok (by decide +kernel)⟩

def aPin : Pin := { cluster := 0, core := 0, tick := 0, scope := 2 }
def pinnedBy (p : Pin) : State := { (world runner).setSlice 0 { owner := .bolt 1, ways := [(0, { bolt := 1, line := 0x400, pa := 0x10000, data := 0, tags := 0, pin := some p })] } with gtime := 4358 }
def aFault : StoreFault := { tid := 0, cause := .page, tval := 5 }

theorem w_PhasesComplete :
    (let s := ((world runner).setCore 0 { live := true, closing := [{ phase := 3, dests := [127] }], sent := [(sentKey 3 127, 2)] }).setSlice 127 { arrived := [(3, 2)] };
      (s.core 0).closing = { phase := 3, dests := [127] } :: [] ∧ Map.get (s.core 0).sent (sentKey 3 127) 0 ≤ Map.get (s.slice 127).arrived (0 * 4 + 3) 0 ∧ faultsOut s 0 = false) ∧
    (let s := (world runner).setCore 2047 { closing := [{ phase := 3, dests := [] }] }; (s.core 2047).closing = { phase := 3, dests := [] } :: []) ∧
    -- a fault for a thread: resident with room in the queue and without; saved with room and without
    (∀ n ∈ [15, 16], ∀ occ ∈ [Occ.resident, .pressed], let s := { (world { runner with occ := occ, savedFaults := List.replicate n aFault }).setCore 0 { sfq := List.replicate n aFault } with storeFaults := [aFault] };
      s.storeFaults[0]? = some aFault ∧ behind s (clusterOf (coreOf aFault.tid)) aFault.src aFault.no aFault.cls = false ∧ (s.thread 0).occ = occ ∧ (s.core 0).sfq.length = n ∧ (s.thread 0).savedFaults.length = n) ∧
    (let s := pinnedBy aPin; ∃ l, (s.slice 0).ways = [(0, l)] ∧ l.pin = some aPin ∧ aPin.recalled = false ∧ aPin.tick + 4358 ≤ s.gtime ∧ corePressed s l.bolt aPin.core = false ∧ (s.core aPin.core).closing.length < 2) ∧
    (let s := pinnedBy { aPin with recalled := true }; ∃ l, (s.slice 0).ways = [(0, l)] ∧ l.pin = some { aPin with recalled := true } ∧ ∀ x ∈ (coreOfBolt s l.bolt aPin.core).closing, (l.bolt, l.line) ∉ x.pins) ∧
    (∀ k ∈ [0, 1], let s := (world runner).setSlice 0 { staging := [{ kind := k, bolt := 1, line := 0x400, pa := 0x10000, data := 7, tags := 0 }] };
      ∃ e, (s.slice 0).staging = e :: [] ∧ dramTurn (s.slice 0) e = true ∧ e.kind = k ∧ Memory.wf s.dram.cells = true) :=
  ⟨by decide +kernel, by decide +kernel, by decide +kernel, ⟨_, rfl, by decide +kernel⟩, ⟨_, rfl, by decide +kernel⟩, fun k h => ⟨_, rfl, by revert k; decide +kernel, rfl, rfl⟩⟩
/-- A command's number, the first of it. -/
def sq (n : BitVec 8) : SeqNo := { num := n, id := 0 }

/-- The operands of a command of the copy engine in g16 to g19. -/
def copyRegs (a b c d : Val) : Thread := withRegs [(16, a), (17, b), (18, c), (19, d)]
def noCopy (s : State) : State := s.setCluster 0 { s.cluster 0 with copyOut := true }

theorem w_CopyCommands :
    (let s := world (copyRegs (winCap 0) (winCap 64) (Val.ofW 64) {}); Executes {} (four 16 ++ [5]) [] s ∧ s.c.ring.length < 32 ∧ s.cl.copyOut = false ∧
      copyChecks s 0 16 = .ok () ∧ copyBytes 0 (s.t.reg 18) ≠ 0 ∧ s.cl.cq.length < 32) ∧
    (let s := noCopy (world runner); Executes {} (four 16 ++ [5]) [] s ∧ s.c.ring.length < 32 ∧ s.cl.copyOut = true) ∧
    (let s := world (copyRegs (winCap 0) (winCap 0) (Val.ofW 0x700000000) (winCap 0)); Executes {} (four 16 ++ [5]) [] s ∧ listCode (s.t.reg 18) = 7) ∧
    (let s := world (copyRegs (winCap 0) (winCap 0) (Val.ofW 0) (winCap 0)); Executes {} (four 16 ++ [5]) [] s ∧ listCode (s.t.reg 18) ≠ 7 ∧
      ∀ k ∈ [0, 1, 2, 3], copyChecks s k 16 = .ok () ∧ copyBytes k (s.t.reg 18) = 0) ∧
    -- DLOAD: 64 bytes from the window to the end of the slice; the slice not OPEN; no bytes; a misaligned length
    (let s := world (copyRegs (winCap 0) (damCap 0x17FFFC0) (Val.ofW 64) {}); Executes {} (four 16 ++ [5]) [] s ∧ s.cl.dstate = 0 ∧
      sideCheck s 16 (s.t.reg 16) false 0 64 = .ok () ∧ checkDamask 17 (s.t.reg 17) [permW] 0x17FFFC0 64 = .ok () ∧ s.cl.cq.length < 32) ∧
    (let s := (world (copyRegs (winCap 0) (damCap 0) (Val.ofW 64) {})).setCluster 0 { owner := .bolt 1, dstate := 2 }; Executes {} (four 16 ++ [5]) [] s ∧ s.cl.dstate ≠ 0 ∧
      sideCheck s 16 (s.t.reg 16) false 0 64 = .ok () ∧ checkDamask 17 (s.t.reg 17) [permW] 0 64 = .ok ()) ∧
    (∀ n ∈ [0, 65], let s := world (copyRegs (winCap 0) (damCap 0) (Val.ofNat n) {});
      sideCheck s 16 (s.t.reg 16) false 0 n = .ok () ∧ checkDamask 17 (s.t.reg 17) [permW] 0 n = .ok ()) ∧
    -- GATH: eight words of one page, nine words, two pages
    (let s := paged (copyRegs (allCap 0x10000) {} (winCap 65504) (Val.ofW 8)); Executes {} (four 16 ++ [5]) [] s ∧ okGath 11 = true ∧
      (∀ a ∈ List.replicate 8 0x10000, checkGlobal 16 (s.t.reg 16) [permR] a 4 = .ok ()) ∧ checkLocal s s.cur 18 (s.t.reg 18) 65504 32 false true = .ok () ∧
      regionOf 0x10000 = .ordinary ∧ byRolnis s.t.bolt s.curCore = false ∧ ∃ x, (s.slice (recordHome s s.t.bolt 0x10000)).xlat.find? (fun x => decide (x.bolt = s.t.bolt) &&
        decide (x.page ≤ 0x10000 / 2 ^ 16) && decide (0x10000 / 2 ^ 16 < x.page + x.pages)) = some x ∧ permits x.leaf.toNat .rd = true) ∧
    ((∃ x, gathTranslate (paged runner) [0x10000, 0x1003E] 4 = .ok x) ∧ ∃ e, gathTranslate (paged runner) [0x10000, 0x20000] 4 = .error e) ∧
    (let s := paged (copyRegs (allCap 0x1FFFC) { bits := 0x10000 } (winCap 0) (Val.ofW 2)); Executes {} (four 16 ++ [5]) [] s ∧
      (valOf s 16 + BitVec.ofNat 64 (bits (s.t.reg 17).bits.toNat 31 16 * 4)).toNat / 2 ^ 16 ≠ (valOf s 16).toNat / 2 ^ 16) :=
  ⟨⟨executes_of _ (by decide +kernel), by decide +kernel, by decide +kernel, ok_of (by decide +kernel), by decide +kernel, by decide +kernel⟩,
    ⟨executes_of _ (by decide +kernel), by decide +kernel, by decide +kernel⟩, ⟨executes_of _ (by decide +kernel), by decide +kernel⟩,
    ⟨executes_of _ (by decide +kernel), by decide +kernel, fun k h => ⟨ok_of (by revert k; decide +kernel), by revert k; decide +kernel⟩⟩,
    ⟨executes_of _ (by decide +kernel), by decide +kernel, ok_of (by decide +kernel), ok_of (by decide +kernel), by decide +kernel⟩,
    ⟨executes_of _ (by decide +kernel), by decide +kernel, ok_of (by decide +kernel), ok_of (by decide +kernel)⟩,
    fun n h => ⟨ok_of (by revert n; decide +kernel), ok_of (by revert n; decide +kernel)⟩,
    ⟨executes_of _ (by decide +kernel), by decide +kernel, fun a h => ok_of (by revert a; decide +kernel), ok_of (by decide +kernel), by decide +kernel, by decide +kernel, _, rfl, by decide +kernel⟩,
    ⟨exists_ok (by decide +kernel), exists_error (by decide +kernel)⟩, ⟨executes_of _ (by decide +kernel), by decide +kernel⟩⟩

/-- A command of the copy engine at its head: the second and last unit of 100 bytes. -/
def aCopy (kind : Nat) (b : Val) : CReq :=
  { kind := kind, tid := 0, bolt := 1, tok := 5, seq := sq 1, mode := true, lb := 0x10000, ws := 65536, regs := [winCap 0, b, Val.ofW 100, {}], pol := 0, u := 1, done := 64 }
def copying (r : CReq) : State := { (world runner).setCluster 0 { owner := .bolt 1, cq := [r] } with gtime := 2000 }
def aGather : GReq := { tid := 0, bolt := 1, lb := 0x10000, tok := 5, seq := sq 1, addrs := [0x10000], wb := 4, dst := 0, pol := 0, mode := true }
def gathering (l : List Pull) : State := answers (commandKey (sq 1)) l ((paged runner).setCluster 0 { owner := .bolt 1, gq := [aGather] })

theorem w_CopyUnits :
    (let s := copying (aCopy 0 (winCap 128)); (s.cluster 0).cq = aCopy 0 (winCap 128) :: [] ∧ halted s 1 0 = false ∧ sideOf (winCap 0) = .window ∧ sideOf (winCap 128) = .window ∧
      Memory.wf (s.cluster 0).mem.cells = true ∧ puFault (s.cluster 0) true true false (0x10000 + 64) 36 = none ∧ puFault (s.cluster 0) true false true (0x10000 + 192) 36 = none ∧
      banksOwed (s.cluster 0) (0x10000 + 64) 36 = false ∧ banksOwed ((takeBanks s 0 (0x10000 + 64) 36).cluster 0) (0x10000 + 192) 36 = false) ∧
    (let s := copying (aCopy 4 (damCap 0)); (s.cluster 0).cq = aCopy 4 (damCap 0) :: [] ∧ halted s 1 0 = false ∧ (aCopy 4 (damCap 0)).kind = 4 ∧ sideOf (winCap 0) = .window ∧
      Memory.wf (s.cluster 0).damask = true ∧ inRefresh s 0 (bankGroup 64) = false ∧ puFault (s.cluster 0) true true false (0x10000 + 64) 64 = none ∧
      banksOwed (s.cluster 0) (0x10000 + 64) 64 = false) ∧
    (((1023 : Nat) + 8 * 65536 - (0 : BitVec 3).toNat * 8192) % 65536 < 1024 ∧ ¬ ((1024 : Nat) + 8 * 65536 - (0 : BitVec 3).toNat * 8192) % 65536 < 1024) ∧
    -- a gather whose word has come, one whose word met a fault, one whose word must be asked for
    (∀ l ∈ [[anAnswer 0x10000 4 0 [7]], [failed (anAnswer 0x10000 4 0 [])], []], let s := gathering l; (s.cluster 0).gq = aGather :: [] ∧ halted s 1 0 = false ∧ banksOwed (s.cluster 0) (0x10000 + 0) 4 = false) ∧
    (∃ s1 bs, gathWords aGather aGather.addrs (gathering [anAnswer 0x10000 4 0 [7]]) = .ok (s1, bs)) ∧
    (∃ k c tv, gathWords aGather aGather.addrs (gathering [failed (anAnswer 0x10000 4 0 [])]) = .error (.fault k c tv)) ∧
    ∃ a, gathWords aGather aGather.addrs (gathering []) = .error (.wait (some a)) ∧ sendAsk (gathering []) a ≠ gathering [] := by
  refine ⟨by decide +kernel, by decide +kernel, by decide +kernel, by decide +kernel, ?_, fails_of (by decide +kernel), ?_⟩
  · obtain ⟨⟨s1, bs⟩, h⟩ := exists_ok (x := gathWords aGather aGather.addrs (gathering [anAnswer 0x10000 4 0 [7]])) (by decide +kernel)
    exact ⟨s1, bs, h⟩
  · obtain ⟨a, h⟩ := waits_of (x := gathWords aGather aGather.addrs (gathering [])) (by decide +kernel)
    have e : (match gathWords aGather aGather.addrs (gathering []) with | .error (.wait (some a)) => decide ((sendAsk (gathering []) a).pkts ≠ 0) | _ => false) = true := by decide +kernel
    rw [h] at e; dsimp only at e
    exact ⟨a, h, fun c => by rw [c] at e; exact absurd e (by decide +kernel)⟩

/-- Commands of each shape: the row of COPY.2D, the elements of COPY.LIST by the index 0 of its list, with the sides named. -/
def shaped (kind : Nat) (a b : Val) (sh : Nat) : CReq := { aCopy kind b with regs := [a, b, { bits := BitVec.ofNat 128 sh }, winCap 4096], u := 0, done := 0 }
def listed (a b : Val) (n : Nat) : CReq := shaped 2 a b (4 + n * 2 ^ 32)
/-- The protection unit of cluster 0 refuses every access of pages 16 to 31. -/
def guardedPages (s : State) : State := s.setCluster 0 { s.cluster 0 with lpreg := [(0, 0x8000001F00000010)] }

theorem w_UnitsOfShapes :
    (aCopy 0 (winCap 0)).kind = 0 ∧ (aCopy 3 (winCap 0)).kind = 3 ∧ (shaped 1 (winCap 0) (winCap 0) (64 + 2 * 2 ^ 32)).kind = 1 ∧ (listed (winCap 0) (winCap 64) 4).kind = 2 ∧
    -- a LIST element out of the source's bounds, past the B-stage buffer, past the window, refused by the protection unit, in order
    (∀ c ∈ [(winCap 65536, winCap 0, false, 4), (winCap 0, capOf 0x3FFF8 0x1BF 4 0x3FFFF 0x40100, false, 4), (capOf 65536 0xBF 4 0 131072, winCap 0, false, 5), (winCap 0, winCap 64, true, 5), (winCap 0, winCap 64, false, 0)],
      let s := if c.2.2.1 then guardedPages (copying (listed c.1 c.2.1 4)) else copying (listed c.1 c.2.1 4)
      let r := listed c.1 c.2.1 4; let src := r.regs.getD 0 {}; let dst := r.regs.getD 1 {}; let sh := (r.regs.getD 2 {}).bits.toNat; let n := 2 ^ bits sh 34 32
      let x := bytesToNat (Memory.readN (s.cluster 0).mem.cells (r.lb + (r.regs.getD 3 {}).nat + 4 * r.row) 4) * n
      let a := src.nat + (if sh.testBit 40 then r.row * n else x)
      let b := dst.nat + (if sh.testBit 40 then x else r.row * n)
      let out := (boundFault src a n).isSome = true ∨ (boundFault dst b n).isSome = true ∨ (sideOf dst = .bstage ∧ Config.bstageBytes < b + n)
      let bad := (sideOf src = .window ∧ (r.ws < a + n ∨ (puFault (s.cluster 0) r.mode true false (r.lb + a) n).isSome = true)) ∨
        (sideOf dst = .window ∧ (r.ws < b + n ∨ (puFault (s.cluster 0) r.mode false true (r.lb + b) n).isSome = true))
      (c.2.2.2 = 4 ↔ out) ∧ (c.2.2.2 = 5 ↔ ¬ out ∧ bad)) := by
  and_intros <;> decide +kernel


/-- A command of the copy engine at work, and its unit's accesses answered. -/
def Working (s : State) (r : CReq) : Prop := (s.cluster 0).cq = r :: [] ∧ halted s r.bolt r.tid = false ∧ r.kind < 4 ∧ indexOwed s 0 r = false
def copied (a b : Val) : CReq := { aCopy 0 b with regs := [a, b, Val.ofW 100, {}] }
def unitOf (r : CReq) (l : List Pull) : State := answers (commandKey (sq 1)) l (copying r)

theorem w_UnitsOfSides :
    (let r := listed (winCap 65536) (winCap 0) 4; Working (copying r) r ∧ ∃ k c, nextUnit (copying r) 0 r = .error (k, c)) ∧
    -- a window as the source, that the protection unit refuses, and lets through to a B-stage buffer
    (let r := copied (winCap 0) (winCap 128); let s := guardedPages (copying r); Working s r ∧ nextUnit s 0 r = .ok (64, 192, 36) ∧ sideOf (winCap 0) = .window ∧ banksOwed (s.cluster 0) (0x10000 + 64) 36 = false ∧
      (puFault (s.cluster 0) r.mode true false (0x10000 + 64) 36).isSome = true) ∧
    (let r := copied (winCap 0) (capOf 0 0x1BF 4 0 0x4000); let s := copying r; Working s r ∧ nextUnit s 0 r = .ok (64, 64, 36) ∧ sideOf (capOf 0 0x1BF 4 0 0x4000) = .bstage ∧ banksOwed (s.cluster 0) (0x10000 + 64) 36 = false ∧
      puFault (s.cluster 0) r.mode true false (0x10000 + 64) 36 = none ∧ rising (s.cluster 0).bstage) ∧
    -- FILL
    (∀ g ∈ [false, true], let r := { aCopy 3 (winCap 128) with regs := [Val.ofW 5, winCap 128, Val.ofW 100, {}] }; let s := if g then guardedPages (copying r) else copying r; Working s r ∧
      nextUnit s 0 r = .ok (69, 192, 36) ∧ sideOf (winCap 128) = .window ∧ banksOwed (s.cluster 0) (0x10000 + 192) 36 = false ∧ Memory.wf (s.cluster 0).mem.cells = true ∧
      (puFault (s.cluster 0) r.mode false true (0x10000 + 192) 36 = none ↔ g = false)) ∧
    -- a source in global memory: asked for, failed, come, with the destination let through and refused
    (let r := copied (allCap 0x10000) (winCap 128); (∀ l ∈ [[anAnswer 0x10040 36 0 [7]], [failed (anAnswer 0x10040 36 0 [])], []], Working (unitOf r l) r ∧ nextUnit (unitOf r l) 0 r = .ok (0x10040, 192, 36) ∧
        sideOf (allCap 0x10000) = .global ∧ banksOwed ((unitOf r l).cluster 0) (0x10000 + 192) 36 = false ∧ puFault ((unitOf r l).cluster 0) r.mode false true (0x10000 + 192) 36 = none ∧
        Memory.wf ((unitOf r l).cluster 0).mem.cells = true) ∧
      (∃ x, pullRead (unitOf r []) (commandKey r.seq) 0 (copyWho r) 0 0x10040 36 = .error (.wait (some x))) ∧
      (∃ k c tv, pullRead (unitOf r [failed (anAnswer 0x10040 36 0 [])]) (commandKey r.seq) 0 (copyWho r) 0 0x10040 36 = .error (.fault k c tv)) ∧
      ∀ g ∈ [false, true], let s := if g then guardedPages (unitOf r [anAnswer 0x10040 36 0 [7]]) else unitOf r [anAnswer 0x10040 36 0 [7]]
        (puFault (s.cluster 0) r.mode false true (0x10000 + 192) 36 = none ↔ g = false) ∧ ∃ x, pullRead s (commandKey r.seq) 0 (copyWho r) 0 0x10040 36 = .ok x) ∧
    -- a destination in global memory: asked for, failed, written
    (let r := copied (winCap 0) (allCap 0x10000); let w := { anAnswer 0x10040 36 0 [] with data := some [] }
      let bs := Memory.readN ((copying r).cluster 0).mem.cells (0x10000 + 64) 36
      let put := fun (l : List Pull) => pullWrite (takeBanks (unitOf r l) 0 (0x10000 + 64) 36) (commandKey r.seq) (copyWho r) 0 0x10040 bs
      (∀ l ∈ [[w], [failed w], []], Working (unitOf r l) r ∧ nextUnit (unitOf r l) 0 r = .ok (64, 0x10040, 36) ∧ banksOwed ((unitOf r l).cluster 0) (0x10000 + 64) 36 = false ∧
        puFault ((unitOf r l).cluster 0) r.mode true false (0x10000 + 64) 36 = none) ∧
      (∃ x, put [] = .error (.wait (some x))) ∧ (∃ k c tv, put [failed w] = .error (.fault k c tv)) ∧ ∃ s1, put [w] = .ok s1) := by
  unfold Working
  have unit : ∀ {s : State} {r : CReq} {x : Nat × Nat × Nat}, (match nextUnit s 0 r with | .ok y => decide (y = x) | .error _ => false) = true → nextUnit s 0 r = .ok x := by
    intro s r x h; split at h
    · simp at h; subst h; assumption
    · cases h
  refine ⟨⟨by decide +kernel, ?_⟩, ⟨by decide +kernel, unit (by decide +kernel), by decide +kernel⟩,
    ⟨by decide +kernel, unit (by decide +kernel), by decide +kernel, by decide +kernel, by decide +kernel, trivial⟩,
    fun g h => ⟨by revert g; decide +kernel, unit (by revert g; decide +kernel), by revert g; decide +kernel⟩,
    ⟨fun l h => ⟨by revert l; decide +kernel, unit (by revert l; decide +kernel), by revert l; decide +kernel⟩, waits_of (by decide +kernel), fails_of (by decide +kernel),
      fun g h => ⟨by revert g; decide +kernel, exists_ok (by revert g; decide +kernel)⟩⟩,
    ⟨fun l h => ⟨by revert l; decide +kernel, unit (by revert l; decide +kernel), by revert l; decide +kernel⟩, waits_of (by decide +kernel), fails_of (by decide +kernel), exists_ok (by decide +kernel)⟩⟩
  obtain ⟨⟨k, c⟩, h⟩ := exists_error (x := nextUnit (copying (listed (winCap 65536) (winCap 0) 4)) 0 (listed (winCap 65536) (winCap 0) 4)) (by decide +kernel)
  exact ⟨k, c, h⟩

def slice (n : BitVec 2) (t : Thread) : State := (world t).setCluster 0 { owner := .bolt 1, dstate := n }
/-- The thread in DSEAL or DOPEN whose state has been reached. -/
def sealed (n : Nat) : Thread := { runner with wait := .damask, stage := n }

theorem w_DamaskStates :
    (∀ n, (slice n runner).cl.dstate = n) ∧ Executes {} [12, 5] [] (slice 0 runner) ∧ Executes {} [12] [] (slice 1 runner) ∧ Executes {} [12] [] (slice 2 runner) ∧ Executes {} [12] [] (slice 3 runner) ∧
    (∀ n, wholeSlice 12 ((slice n runner).t.reg 12) = .ok ()) ∧
    -- a thread that waits at each stage, in each state of the slice
    (∀ n ∈ [1, 2, 3, 4, 5, 6], ∀ m, let s := slice m (sealed n); Guarded {} s ∧ ReadyRegs {} [12] [] s ∧ s.t.xchg = false ∧ s.cl.dstate = m ∧ s.cl.loads = 0 ∧ s.cl.reads = 0 ∧
      (0, sealed n) ∈ s.threads ∧ clusterOf (coreOf 0) = 0 ∧ (sealed n).occ = .resident ∧ (sealed n).wait = .damask ∧ (sealed n).stage = n) :=
  ⟨by decide +kernel, executes_of _ (by decide +kernel), executes_of _ (by decide +kernel), executes_of _ (by decide +kernel), executes_of _ (by decide +kernel), fun n => ok_of (by revert n; decide +kernel),
    fun n h m => ⟨fun h => by simp at h, ⟨fun r h => by simp at h; subst h; exact ⟨show 12 < 64 by omega, List.not_mem_nil⟩, fun h => by cases h⟩, by revert n m; decide +kernel⟩⟩

/-- Descriptors of SENDM: cluster 0, core 0, slot 1, one word; no words; five words; cluster 255. -/
def sender (w : W64) : State := world (withRegs [(4, Val.ofW w)])
def aMsg : Msg := { src := 0, dstCluster := 0, dstCore := 0, dstSlot := 1, words := [7], stat := 63, bolt := 1 }
def posted (n : Nat) (there : Bool) : State :=
  { (world runner).setCore 0 { live := true, inbox := List.replicate n aMsg } with threads := [(0, runner)] ++ (if there then [(1, runner)] else []), msgs := [aMsg] }

theorem w_Messages :
    (let s := sender (255 * 32 + 65536); Executes {} (four 16 ++ [4, 5]) [] s ∧ bits (valOf s 4).toNat 12 5 ≠ s.curCluster ∧ bits (valOf s 4).toNat 12 5 ∉ s.cl.permt) ∧
    (∀ k ∈ [0, 5], let s := sender (BitVec.ofNat 64 (k * 65536 + 1)); bits (valOf s 4).toNat 12 5 = s.curCluster ∧ ¬ (1 ≤ bits (valOf s 4).toNat 18 16 ∧ bits (valOf s 4).toNat 18 16 ≤ 4)) ∧
    (∀ k ∈ [1, 4], let s := sender (BitVec.ofNat 64 (k * 65536 + 1)); bits (valOf s 4).toNat 12 5 = s.curCluster ∧ 1 ≤ bits (valOf s 4).toNat 18 16 ∧ bits (valOf s 4).toNat 18 16 ≤ 4 ∧
      bits (valOf s 4).toNat 63 19 = 0 ∧ bits (valOf s 4).toNat 15 13 = 0) ∧
    (let s := (world runner).setCore 0 { live := true, inbox := [{ aMsg with dstSlot := 0 }] }; Executes {} (5 :: four 16) [] s ∧
      s.c.inbox.find? (fun m => decide (m.dstSlot = slotOf s.cur)) = some { aMsg with dstSlot := 0 }) ∧
    (let s := (world runner).setCore 0 { live := true, inbox := [aMsg] }; Executes {} (5 :: four 16) [] s ∧ ∀ m ∈ s.c.inbox, m.dstSlot ≠ slotOf s.cur) ∧
    -- delivered to an inbox of 63, from a thread of the bolt and from Rolnis; to a register with no room; to a cluster of another bolt; refused by one of 64; to an empty slot
    (let s := posted 63 true; s.msgs = [aMsg] ∧ halted s 1 0 = false ∧ landRoom s 0 63 = true ∧ (s.cluster 0).owner = .bolt 1 ∧ (liveCores s 0)[0]? = some 0 ∧ (s.thread 1).occ ≠ .empty ∧ (s.core 0).inbox.length < 64 ∧
      (s.thread 0).occ ≠ .empty ∧ Map.find (s.thread 0).binds 63 = none) ∧
    ({ aMsg with bolt := 0 } : Msg).bolt = 0 ∧
    (let s := { world (bound 8 (.port true 1)) with msgs := [{ aMsg with stat := 8 }], cores := [(0, { live := true }), (1, { ports := [(3, List.replicate portPlaces 5)] })] }; s.msgs = [{ aMsg with stat := 8 }] ∧ halted s 1 0 = false ∧ landRoom s 0 8 = false) ∧
    (let s := (posted 63 true).setCluster 0 { owner := .bolt 2 }; (s.cluster 0).owner ≠ .bolt 1 ∧ halted s 1 0 = false ∧ (s.thread 0).occ ≠ .empty ∧ Map.find (s.thread 0).binds 63 = none) ∧
    (let s := posted 64 true; s.msgs = [aMsg] ∧ halted s 1 0 = false ∧ (s.thread 0).occ ≠ .empty ∧ (s.cluster 0).owner = .bolt 1 ∧ Map.find (s.thread 0).binds 63 = none ∧ (liveCores s 0)[0]? = some 0 ∧
      (s.thread 1).occ ≠ .empty ∧ 64 ≤ (s.core 0).inbox.length) ∧
    (let s := posted 0 false; s.msgs = [aMsg] ∧ halted s 1 0 = false ∧ (s.thread 0).occ ≠ .empty ∧ ∀ k, (liveCores s 0)[0]? = some k → (s.thread (k * 4 + 1)).occ = .empty) :=
  ⟨⟨executes_of _ (by decide +kernel), by decide +kernel, by decide +kernel⟩, by decide +kernel, by decide +kernel, ⟨executes_of _ (by decide +kernel), by decide +kernel⟩,
    ⟨executes_of _ (by decide +kernel), by decide +kernel⟩, by decide +kernel, rfl, by decide +kernel, by decide +kernel, by decide +kernel, ⟨by decide +kernel, by decide +kernel, by decide +kernel, fun k h => by
      have e : (liveCores (posted 0 false) 0)[0]? = some 0 := by decide +kernel
      rw [e] at h; cases h; decide +kernel⟩⟩

def aDone (late : Option Cause) : Completion := { tid := 0, reg := 63, word := 5, seq := sq 9, late := late }
def withToken (late : Option Cause) : State := { world { runner with cmds := [(sq 9, 63, 2)], pending := [63] } with completions := [aDone late] }
def aWait (parts : Nat) : Await := { dst := 63, ext := .zx, size := 4, parts := parts, acc := 7 }
def awaited (r : Reply) (a : Option Await) : State := { world { runner with wait := .answer, await := a } with replies := [r] }
def aReply : Reply := { tid := 0, acc := 7, off := 0, bytes := [1, 2, 3, 4] }

theorem w_AnswersAndTokens :
    (∀ late ∈ [none, some Cause.page], let s := withToken late; s.completions[0]? = some (aDone late) ∧ (s.thread 0).occ ≠ .empty ∧ (∃ c ∈ (s.thread 0).cmds, c.1 = sq 9) ∧ Map.find (s.thread 0).binds 63 = none) ∧
    -- one of the same number whose thread has retired
    (let x : Completion := { aDone (some .page) with seq := { num := 9, id := 1 } }; let s := { withToken none with completions := [x] };
      s.completions[0]? = some x ∧ (∀ k ∈ (s.thread x.tid).cmds, k.1 ≠ x.seq) ∧ x.late = some .page) ∧
    (let s := awaited aReply (some (aWait 1)); s.replies = [aReply] ∧ aReply.agent = none ∧ loadRoom s aReply = true ∧ halted s (s.thread 0).bolt 0 = false ∧ behind s (clusterOf (coreOf 0)) aReply.src aReply.no aReply.cls = false ∧
      (s.thread 0).await = some (aWait 1) ∧ (aWait 1).acc = aReply.acc ∧ aReply.bytes.length = (aWait 1).size ∧ Map.find (s.thread 0).binds 63 = none) ∧
    (let s := awaited aReply (some (aWait 2)); s.replies = [aReply] ∧ aReply.agent = none ∧ loadRoom s aReply = true ∧ halted s (s.thread 0).bolt 0 = false ∧ behind s (clusterOf (coreOf 0)) aReply.src aReply.no aReply.cls = false ∧
      (s.thread 0).await = some (aWait 2) ∧ 1 < (aWait 2).parts) ∧
    (let r := { aReply with fault := some (.page, 5) }; let s := awaited r (some (aWait 1)); s.replies = [r] ∧ loadRoom s r = true ∧ halted s (s.thread 0).bolt 0 = false ∧
      behind s (clusterOf (coreOf 0)) r.src r.no r.cls = false ∧ (s.thread 0).await = some (aWait 1) ∧ (aWait 1).popped = [] ∧
      (s.thread 0).seamed = false ∧ (s.thread 0).handler = false ∧ (s.thread 0).tvec ≠ 0) ∧
    (let s := awaited aReply none; s.replies = [aReply] ∧ halted s (s.thread 0).bolt 0 = false ∧ (s.thread 0).await = none) ∧
    (let s := awaited aReply (some { aWait 1 with acc := 8 }); (s.thread 0).await = some { aWait 1 with acc := 8 } ∧ (8 : Nat) ≠ aReply.acc) := by
  and_intros <;> decide +kernel

def reads8 (l : List Val) : Binding := .stream false (winCap 0) 4 8 3 false 0 0 l

theorem w_StreamsAndWrites :
    (let s := world (bound 8 (reads8 (List.replicate 7 {}))); (s.thread 0).occ = .resident ∧ halted s (s.thread 0).bolt 0 = false ∧ Map.find (s.thread 0).binds 8 = some (reads8 (List.replicate 7 {})) ∧
      0 + (List.replicate 7 ({} : Val)).length < 8 ∧ capLoc (winCap 0) = true ∧ ∃ v, readElement s 0 8 (winCap 0) 4 3 false 0 7 = .ok (s, v)) ∧
    -- a word that is due: for a core of the bolt, and for one of a cluster that has left it
    (let p : PWord := { core := 0, side := 1, word := 5 }; let s := { world runner with pwords := [p] }; s.pwords = [p] ∧ pushDue s p = true ∧ takesWord s p = true) ∧
    (let p : PWord := { core := 8, side := 3, word := 5, bolt := some 1 }; let s := { world runner with pwords := [p] }; s.pwords = [p] ∧ pushDue s p = true ∧ takesWord s p = false) ∧
    ((∀ v : W64, v.toNat % 4 ≠ 0 → ((world runner).thread 0).mode = true ∧ accessesDone { world runner with cur := 0 } = true) ∧ ((world user).thread 0).mode = false ∧
      (5 : W64).getLsbD 63 = false ∧ ((world runner).bolt 1).trctl.getLsbD 63 = false ∧ ((world runner).cluster 0).lq = [] ∧ ((world runner).cluster 0).gq = [] ∧
      (∀ c ∈ liveCores (world runner) 0, ∀ r ∈ ((world runner).core c).mq, r.windowed = false) ∧
      (Map.get ((world runner).bolt 1).groups (4 / 4 * 4 + 3) 0#64).getLsbD 32 = false) :=
  ⟨⟨by decide +kernel, by decide +kernel, by decide +kernel, by decide +kernel, by decide +kernel, _, by rfl⟩, by decide +kernel, by decide +kernel, fun _ _ => by decide +kernel, by decide +kernel,
    by decide +kernel, by decide +kernel, by decide +kernel, by decide +kernel, by decide +kernel, by decide +kernel⟩
/-- Registers of a floating form: 1.0 in g5, 0.0 in g6. -/
def floats : State := world (withRegs [(5, Val.ofW 0x3F800000), (6, Val.ofW 0)])

theorem w_ScalarFloating : Executes {} [5, 6, 4] [] floats ∧ (7 : Reg).toNat < 8 ∧ (∃ m x, f32.decode (low32 floats 5) = .fin false m x ∧ m ≠ 0) ∧
    (∀ m x, f32.decode (low32 floats 6) = .fin false m x → m = 0) ∧ okFcvt false 19 = true ∧ okFcvt false 4 = true :=
  ⟨executes_of _ (by decide +kernel), by decide +kernel, ⟨0x800000, -23, by decide +kernel, by decide +kernel⟩, fun m x h => by
    have e : f32.decode (low32 floats 6) = .fin false 0 (-149) := by decide +kernel
    rw [e] at h; cases h; rfl, by decide +kernel, by decide +kernel⟩

theorem w_VectorFloating : okFloat 22 = true ∧ (22 : Code) ≠ 19 ∧ groups [16, 20, 24] ∧ Executes {} (four 16 ++ four 20 ++ four 24) [] floats ∧ Executes {} (5 :: four 16 ++ four 20) [] floats ∧
    fmtOf 22 = .ieee f32 ∧ (∃ m x, f32.decode (low32 floats 5) = .fin false m x ∧ m ≠ 0) ∧ okFcmp 3 = true ∧ okFcvt true 33 = true ∧ Executes {} (5 :: four 60) [] floats ∧ groups [60] ∧
    (22 : Code) ∈ [22, 18, 26] ∧ okIntLane 9 = true :=
  ⟨by decide +kernel, by decide +kernel, by unfold groups; decide +kernel, executes_of _ (by decide +kernel), executes_of _ (by decide +kernel), rfl, ⟨0x800000, -23, by decide +kernel, by decide +kernel⟩,
    by decide +kernel, by decide +kernel, executes_of _ (by decide +kernel), by unfold groups; decide +kernel, by decide +kernel, by decide +kernel⟩

theorem w_LanesAndBits : okLane 33 = true ∧ okVector 54 = true ∧ okIntLane 3 = true ∧ groups [0, 16, 60] ∧ Executes {} (4 :: four 60) [] floats ∧
    Executes {} (four 0 ++ four 16 ++ four 60) [] floats ∧ Executes {} (4 :: four 16 ++ four 60) [] floats :=
  ⟨by decide +kernel, by decide +kernel, by decide +kernel, by unfold groups; decide +kernel, executes_of _ (by decide +kernel), executes_of _ (by decide +kernel), executes_of _ (by decide +kernel)⟩

/-- At the largest finite value of FP32, at the bound where it overflows, at a quiet NaN. -/
theorem w_RoundingIsCorrect : f32 ∈ [f32, f16, b16] ∧
    (let n := 0xFFFFFF * 2 ^ ((104 : Int) - leastExp f32).toNat; let d := 2 ^ (leastExp f32 - 104).toNat; n < d * unitsOf f32 (infCode f32)) ∧
    (let n := 0x1000000 * 2 ^ ((104 : Int) - leastExp f32).toNat; let d := 2 ^ (leastExp f32 - 104).toNat; d * unitsOf f32 (infCode f32) ≤ n) ∧
    ((0x3F800000 : Nat) < 2 ^ (1 + f32.eb + f32.fb) ∧ (f32.decode 0x3F800000).isNan = false) ∧ (0x7FC00000 < 2 ^ (1 + f32.eb + f32.fb) ∧ (f32.decode 0x7FC00000).isNan = true) :=
  ⟨List.mem_cons_self, by decide +kernel, by decide +kernel, by decide +kernel, by decide +kernel⟩

theorem w_ElementsAndFunctions :
    ((f32.decode 0x7FC00000).isNan = true ∧ (f32.decode 0x3F800000).isNan = false) ∧
    (f32.decode 0x3F800000 = .fin false 0x800000 (-23) ∧ f32.decode 0x40400000 = .fin false 0xC00000 (-22) ∧ f32.decode 0xBF800000 = .fin true 0x800000 (-23) ∧ f32.decode 0 = .fin false 0 (-149) ∧
      f32.decode 0x80000000 = .fin true 0 (-149)) ∧
    (signedAt false 0x800000 (-23) (-23) < signedAt false 0xC00000 (-22) (-23) ∧ signedAt false 0x800000 (-23) (-23) + signedAt true 0x800000 (-23) (-23) = 0 ∧
      signedAt false 0x800000 (-23) (-23) + signedAt false 0xC00000 (-22) (-23) ≠ 0) ∧
    (f32.decode 0x7F800000 = .inf false ∧ f32.decode 0xFF800000 = .inf true) ∧
    -- FEXP2 of 1, FLOG2 of 1
    ((ratioOf 0x800000 (-23)).1 = 1 * (ratioOf 0x800000 (-23)).2 ∧ (1 : Nat) < 2 ^ (f32.eb - 1) - 1 ∧ f32.decode 0x3F800000 = .fin false (2 ^ 23) (-23)) :=
  ⟨by decide +kernel, by decide +kernel, by decide +kernel, by decide +kernel, by decide +kernel⟩

theorem w_ExceptionEntry : enters runner ∧ (let s := world runner; enters (s.thread 0) ∧ (s.thread 0).occ = .resident ∧ capturing s (clusterOf (coreOf 0)) = false ∧ (s.bolt (s.thread 0).bolt).pressed = false) ∧
    ((Cause.hcall, 0x13) ∈ codes ∧ (0x13 : Nat) ≤ 0x13 ∧ (Cause.map, 0x17) ∈ codes) :=
  ⟨by unfold enters; decide +kernel, ⟨by unfold enters; decide +kernel, by decide +kernel, by decide +kernel, by decide +kernel⟩, by decide +kernel⟩

theorem quiet_world (sc : Nat) : quiet (world runner) sc := Or.inr ⟨by decide +kernel, fun _ => by decide +kernel, rfl, fun e h => by cases h⟩

theorem w_TrapsAndReturns :
    (Executes {} [] [] (world runner) ∧ enters (world runner).t ∧ (world runner).t.mode = true ∧ quiet (world runner) 4 ∧ inFrayHandler (world runner).t = false ∧ (world runner).t.tpc.getLsbD 0 = false ∧ rising (world runner).cores ∧
      (world runner).t.lateSeq = none) ∧
    (let s := world { runner with lateSeq := some (sq 3) }; s.t.lateSeq = some (sq 3) ∧ Executes {} [] [] s ∧ s.t.mode = true) ∧
    (Executes {} [] [] (world user) ∧ enters (world user).t ∧ (world user).t.mode = false) ∧
    (let s := world { runner with tpc := 0x1001 }; Executes {} [] [] s ∧ s.t.mode = true ∧ s.t.tpc.getLsbD 0 = true) :=
  ⟨⟨executes_of _ (by decide +kernel), by unfold enters; decide +kernel, rfl, quiet_world 4, by decide +kernel, by decide +kernel, by unfold rising rising; trivial, rfl⟩,
    ⟨rfl, executes_of _ (by decide +kernel), rfl⟩, ⟨executes_of _ (by decide +kernel), by unfold enters; decide +kernel, rfl⟩, ⟨executes_of _ (by decide +kernel), rfl, by decide +kernel⟩⟩

def lateThread : Thread := { runner with late := [{ cause := .page, seq := sq 255 }] }

theorem w_EscalationAndLateFaults :
    (let s := world handling; (s.thread 0).seamed = false ∧ (s.thread 0).handler = true) ∧ (let s := world { runner with tvec := 0 }; (s.thread 0).seamed = false ∧ (s.thread 0).tvec = 0) ∧
    (let s := world { runner with occ := .stopped }; (s.thread 0).occ = .stopped ∧ (s.thread 0).seamed = false) ∧ ((world runner).thread 8191).occ ≠ .stopped ∧
    (let s := world lateThread; (s.thread 0).late = { cause := .page, seq := sq 255 } :: [] ∧ halted s (s.thread 0).bolt 0 = false ∧ atBoundary (s.thread 0) = true ∧ enters (s.thread 0)) ∧
    (let s := world { lateThread with tvec := 0 }; (s.thread 0).late ≠ [] ∧ halted s (s.thread 0).bolt 0 = false ∧ atBoundary (s.thread 0) = true ∧ (s.thread 0).seamed = false ∧ (s.thread 0).tvec = 0) ∧
    (let s := world { lateThread with handler := true }; (s.thread 0).late ≠ [] ∧ halted s (s.thread 0).bolt 0 = false ∧ (s.thread 0).handler = true) :=
  ⟨by decide +kernel, by decide +kernel, by decide +kernel, by decide +kernel, ⟨by decide +kernel, by decide +kernel, by decide +kernel, by unfold enters; decide +kernel⟩, by decide +kernel, by decide +kernel⟩

def tracing : State := (world runner).setBolt 1 { live := true, clusters := [0], slices := [0], trctl := 0x8000000000000000 }
/-- A MARK's record that the tick's end writes, the thread's state having been recorded. -/
def marked : State :=
  { (world { runner with traced := traceState runner }).setBolt 1 { live := true, clusters := [0], slices := [0], trctl := 0x8000000000000000 } with traces := [{ cluster := 0, kind := 2, rest := [5] }] }
def yielded : State := { world runner with threads := [(0, { runner with yielding := true, cyc := 5 }), (1, runner)] }
def invalidated : Thread := withRegs [(4, Val.ofW 64), (5, Val.ofW 0x10000)]

theorem w_MarksAndInvalidation :
    (Executes {} [] [] (world runner) ∧ capturing (world runner) (world runner).curCluster = false) ∧
    (Executes {} [] [] tracing ∧ capturing tracing tracing.curCluster = true) ∧
    (let s := marked; ∃ x w, s.traces = [x] ∧ stateRecords s = [] ∧ x.kind ≠ 1 ∧ x.rest = [w] ∧ s.gtime - (s.cluster x.cluster).trTick ≤ 65535 ∧ (s.cluster x.cluster).trWptr + 2 ≤ 16384 ∧
      Memory.wf (s.cluster x.cluster).mem.cells = true) ∧
    -- thread 0 yields in cycle 5; thread 1 is ready in cycle 6
    (let s := yielded; (∀ k ∈ [0, 1], ∃ i, i < 4 ∧ k = 0 * 4 + i) ∧ (∀ k ∈ [0, 1], (s.thread k).passed < 3 ∧ (s.thread k).seamed = false ∧ (s.thread k).xchg = false) ∧
      (s.thread 0).yielding = true ∧ 6 ≤ (s.thread 0).cyc + 1 ∧ (s.thread 1).yielding = false ∧ (s.thread 1).yields = []) ∧
    (let s := world { runner with tokDone := true }; Executes {} [] [] s ∧ s.t.mode = true ∧ idleOver s s.cur = true) ∧
    (Executes {} [] [] (world runner) ∧ (world runner).t.mode = true ∧ idleOver (world runner) (world runner).cur = false) ∧ (Executes {} [] [] (world user) ∧ (world user).t.mode = false) ∧
    (let s := world { runner with wait := .idle, tokDone := true }; (s.thread 0).wait = .idle ∧ (s.thread 0).occ = .resident ∧ halted s (s.thread 0).bolt 0 = false ∧ idleOver s 0 = true) ∧
    (let s := world { runner with wait := .idle }; (s.thread 0).wait = .idle ∧ (s.thread 0).occ = .resident ∧ halted s (s.thread 0).bolt 0 = false ∧ idleOver s 0 = false) ∧
    -- XINV d = g5, r = g4: one page; no bytes; the page's one dirty line
    (let s := world invalidated; Executes {} [4, 5] [] s ∧ s.t.mode = true ∧ valOf s 4 ≠ 0 ∧ (valOf s 5).toNat / 65536 * 65536 < min (((valOf s 4).toNat + (valOf s 5).toNat + 65535) / 65536 * 65536) 0xE000000000000) ∧
    (let s := world (withRegs [(4, Val.ofW 0)]); Executes {} [4, 5] [] s ∧ s.t.mode = true ∧ valOf s 4 = 0) ∧
    (let s := (world invalidated).setSlice 0 { ways := [(0, { bolt := 1, line := 0x7FF, pa := 0x10000, data := 7, tags := 0, dirty := true })] }; ∃ l : Line, s.b.slices = [0] ∧ s.b.oldSlices = [] ∧
      (s.slice 0).ways = [(0, l)] ∧ (s.slice 0).staging = [] ∧ l.bolt = s.t.bolt ∧ l.dirty = true ∧ 0x10000 ≤ l.line * 64 ∧ l.line * 64 < 0x20000 ∧ l.pa % 64 = 0 ∧ Memory.wf s.dram.cells = true) :=
  ⟨⟨executes_of _ (by decide +kernel), by decide +kernel⟩, ⟨executes_of _ (by decide +kernel), by decide +kernel⟩, ⟨_, 5, rfl, by decide +kernel⟩,
    ⟨fun k h => ⟨k, by revert k; decide +kernel⟩, by decide +kernel⟩,
    ⟨executes_of _ (by decide +kernel), rfl, by decide +kernel⟩, ⟨executes_of _ (by decide +kernel), rfl, by decide +kernel⟩, ⟨executes_of _ (by decide +kernel), rfl⟩, by decide +kernel, by decide +kernel,
    ⟨executes_of _ (by decide +kernel), by decide +kernel, by decide +kernel, by decide +kernel⟩, ⟨executes_of _ (by decide +kernel), by decide +kernel, by decide +kernel⟩, ⟨_, by decide +kernel, by decide +kernel, rfl, by decide +kernel⟩⟩

/-- A local store of the thread still at the banks; a core with a phase of writes under way and one closing. -/
def busyBanks : State := (world runner).setCluster 0 { owner := .bolt 1, lq := [{ tid := 0, store := true, pieces := [(0x10000, 4, 0)] }] }
def writing : State := (world runner).setCore 0 { live := true, phase := 1, sent := [(512, 1)], closing := [{ phase := 0, dests := [0] }] }
/-- REL in progress: it waits for phase 0, closed or open. -/
def releasing1 (open_ : Bool) : State :=
  (world { runner with wait := .release, stage := 1, phases := [0] }).setCore 0 { live := true, phase := 1, closing := if open_ then [{ phase := 0, dests := [0] }] else [] }

/-- A member of group 5 in slot 0, in a group of `n` members of which `a` have arrived; the groups' words. -/
def member : Thread := { runner with gslot := [(0, 0x105)] }
def grouped (a n : Nat) (t : Thread) : State :=
  (world t).setBolt 1 { live := true, clusters := [0], slices := [0], groups := [(20, 1), (22, BitVec.ofNat 64 (a * 2 ^ 32 + n)), (23, 0x100000000)] }
def byGroup (w : W64) (t : Thread) : Thread := (t.setReg 4 (Val.ofW w)).setReg 5 (allCap 0x10000)

theorem quiet_of {s : State} {sc : Nat} (h : localsDone s s.cur = true ∧ windowOut s s.cur = false ∧ s.c.closing = [] ∧ s.c.sent = []) : quiet s sc :=
  Or.inr ⟨h.1, fun _ => h.2.1, h.2.2.1, fun e m => by rw [h.2.2.2] at m; cases m⟩

theorem w_FencesAndBarriers :
    (let s := world runner; ((5 : BitVec 3).toNat ≤ 5 ∧ Executes {} [] [] s ∧ quiet s 5 ∧ hasStoreFault s s.cur = false ∧ (∀ c ∈ s.t.cmds, c.2.2 ≠ 2) ∧ readsDone s s.cur = true) ∧ 5 < (6 : BitVec 3).toNat) ∧
    (Executes {} [] [] busyBanks ∧ localsDone busyBanks busyBanks.cur = false ∧ (1 : BitVec 3) ≠ 0) ∧
    (let s := (world runner).setCluster 0 { owner := .bolt 1, lq := [{ tid := 0, store := false, pieces := [(0x10000, 4, 0)] }] }; Executes {} [] [] s ∧ readsDone s s.cur = false) ∧
    (let s := writing; Executes {} [] [] s ∧ localsDone s s.cur = true ∧ closes s 3 = true ∧ windowOut s s.cur = false ∧ ∃ c, closePhase s.c [] = some c ∧ c.closing ≠ []) ∧
    (∀ o, let s := releasing1 o; s.t.occ = .resident ∧ s.t.wait = .release ∧ s.t.stage = 1 ∧ s.t.xchg = false ∧ hasStoreFault s s.cur = false ∧ (∀ c ∈ s.t.cmds, c.2.2 ≠ 2) ∧
      if o then ∃ k ∈ s.c.closing, k.phase ∈ s.t.phases else ∀ k ∈ s.c.closing, k.phase ∉ s.t.phases) ∧
    (let s := (world runner).setCore 0 { live := true, sfq := [aFault] }; Executes {} [] [] s ∧ enters s.t ∧ s.c.sfq.find? (fun e => decide (e.tid = s.cur)) = some aFault) ∧
    -- BAR: neither the last nor out of the group; the last; not a member; with a gather
    (let s := grouped 0 2 (byGroup 5 member); Executes {} [4] [] s ∧ s.t.seamed = false ∧ inGroup s.t 5 = true ∧ quiet s (barrierScope s s.t.bolt 5) ∧ groupMembers s.b 5 ≠ 0 ∧ groupArrived s.b 5 + 1 < groupMembers s.b 5) ∧
    (let s := grouped 1 2 (byGroup 5 member); Executes {} [4] [] s ∧ inGroup s.t 5 = true ∧ quiet s (barrierScope s s.t.bolt 5) ∧ groupArrived s.b 5 + 1 = groupMembers s.b 5) ∧
    (let s := grouped 0 2 (byGroup 255 member); Executes {} [4] [] s ∧ (255 : Nat) ≠ 0 ∧ inGroup s.t 255 = false) ∧
    (let s := grouped 0 2 (byGroup 0x105 member); Executes {} [4, 5] [] s ∧ (valOf s 4).getLsbD 8 = true ∧ inGroup s.t 5 = true ∧ quiet s (barrierScope s s.t.bolt 5) ∧
      groupArrived s.b 5 + 1 < groupMembers s.b 5 ∧ gatherCheck s 5 (s.t.reg 5) = .ok ()) ∧
    (∀ g ∈ [0, 1], let s := grouped 0 2 { member with wait := .barrier 1 5 g }; (s.thread 0).wait = .barrier 1 5 g ∧ (s.thread 0).occ = .resident ∧ halted s 1 0 = false ∧ (groupGen (s.bolt 1) 5 = g ↔ g = 0) ∧ barrierSettled s 1 5 (coreOf 0) = true) :=
  ⟨⟨⟨by decide +kernel, executes_of _ (by decide +kernel), quiet_world 5, by decide +kernel, by decide +kernel, by decide +kernel⟩, by decide +kernel⟩,
    ⟨executes_of _ (by decide +kernel), by decide +kernel, by decide +kernel⟩, ⟨executes_of _ (by decide +kernel), by decide +kernel⟩,
    ⟨executes_of _ (by decide +kernel), by decide +kernel, by decide +kernel, by decide +kernel, _, rfl, by decide +kernel⟩, by decide +kernel,
    ⟨executes_of _ (by decide +kernel), by unfold enters; decide +kernel, by decide +kernel⟩,
    ⟨executes_of _ (by decide +kernel), by decide +kernel, by decide +kernel, quiet_of (by decide +kernel), by decide +kernel, by decide +kernel⟩,
    ⟨executes_of _ (by decide +kernel), by decide +kernel, quiet_of (by decide +kernel), by decide +kernel⟩, ⟨executes_of _ (by decide +kernel), by decide +kernel, by decide +kernel⟩,
    ⟨executes_of _ (by decide +kernel), by decide +kernel, by decide +kernel, quiet_of (by decide +kernel), by decide +kernel, ok_of (by decide +kernel)⟩, by decide +kernel⟩

/-- The world with the thread in the exchange phase of group 5, and one more member on core 1. -/
def phase5 : Thread := { runner with xchg := true, xphase := some 5 }
/-- A route entry: step 0, core (0, 0), from side `a` (4 = C) to side `b`. -/
def route (a b : Nat) : BitVec 32 := BitVec.ofNat 32 (a * 2 ^ 18 + b * 2 ^ 21)
def routed (l : List (BitVec 32)) (from_ : Nat) : State :=
  { (world { phase5 with wait := .xend }).setCore 0 { live := true, routes := l } with
    threads := [(0, { phase5 with wait := .xend }), (4, phase5)], xwords := [{ bolt := 1, group := 5, core := 0, from_ := from_, cyc := 0, word := 7 }] }

theorem w_ExchangePhase :
    (let s := world runner; s.t.seamed = false ∧ Executes {} [2, 5, 6] [] s ∧ capLoc (s.t.reg 2) = true ∧ (windowOut s s.cur = false ∧ ∀ e ∈ s.cl.lq, e.tid = s.cur → e.store = false) ∧ checkLocal s s.cur 2 (s.t.reg 2) (s.t.reg 2).nat (4 * 3) true false = .ok () ∧
      ∃ x, tableBytes s (s.t.reg 2) (4 * 3) = .ok x) ∧
    -- its table in global memory: come, asked for, failed
    (∀ l ∈ [[anAnswer 0x10000 12 runner.cnt [7]], [], [failed (anAnswer 0x10000 12 runner.cnt [])]], let s := answers (threadKey 0 0) l (paged runner); s.t.seamed = false ∧ Executes {} [3, 5, 6] [] s ∧ capLoc (s.t.reg 3) = false ∧
      checkGlobal 3 (s.t.reg 3) [permR] (s.t.reg 3).nat (4 * 3) = .ok ()) ∧
    (∃ x, tableBytes (answers (threadKey 0 0) [anAnswer 0x10000 12 runner.cnt [7]] (paged runner)) (runner.reg 3) (4 * 3) = .ok x) ∧
    (∀ l ∈ [[], [failed (anAnswer 0x10000 12 runner.cnt [])]], ∃ x, tableBytes (answers (threadKey 0 0) l (paged runner)) (runner.reg 3) (4 * 3) = .error x) ∧
    (let s := world phase5; InPhase {} [4] s ∧ InPhase {} [] s ∧ quiet s (barrierScope s s.t.bolt (s.t.xphase.getD 0))) ∧ (world runner).t.xchg = false ∧
    (let s := grouped 0 1 { member with wait := .exchange 1 5 4 }; readyForExchange s 1 5 = [0] ∧ (s.bolt 1).pressed = false ∧ (s.bolt 1).trctl.getLsbD 61 = false ∧
      (∀ m ∈ readyForExchange s 1 5, (s.thread m).occ = .resident ∧ barrierSettled s 1 5 (coreOf m) = true) ∧
      ∀ m ∈ membersOf s 1 5, (s.cluster (clusterOf (coreOf m))).cq = [] ∧ (s.cluster (clusterOf (coreOf m))).gq = []) ∧
    (let s := { routed [] 4 with threads := [(0, { phase5 with wait := .xend })] }; ∃ w, s.xwords = [w] ∧ wordDue s w = true ∧ (s.bolt w.bolt).pressed = false ∧ routeOuts (s.core w.core) w.cyc w.from_ = []) ∧
    (let s := { routed [route 4 1] 4 with threads := [(0, { phase5 with wait := .xend }), (4, { phase5 with wait := .xend })] };
      ∃ w, s.xwords = [w] ∧ wordDue s w = true ∧ (s.bolt w.bolt).pressed = false ∧ routeOuts (s.core w.core) w.cyc w.from_ = [1] ∧ neighbour w.core (BitVec.ofNat 2 1) = some 1 ∧ xMember s w.bolt w.group 1 = true) ∧
    (let s := { routed [route 1 4] 1 with threads := [(0, { phase5 with wait := .xend })] };
      ∃ w, s.xwords = [w] ∧ wordDue s w = true ∧ (s.bolt w.bolt).pressed = false ∧ routeOuts (s.core w.core) w.cyc w.from_ = [4] ∧ portFree s w.core (BitVec.ofNat 2 w.from_) ≠ 0) ∧
    (let s := world { phase5 with xphase := some 255, wait := .xend }; inPhase s 1 255 = [0] ∧ (∀ m ∈ inPhase s 1 255, (s.thread m).wait = .xend) ∧ (∀ i, i < 255 → inPhase s 1 i = []) ∧
      (s.bolt 1).pressed = false ∧ (s.bolt 1).trctl.getLsbD 61 = false ∧ (∀ w ∈ s.xwords, w.bolt = 1 → w.group ≠ 255) ∧
      settledOver s 1 (memberCores s 1 255) (memberCores s 1 255) (leastScope s 1 255) s.pkts = true) :=
  ⟨⟨rfl, executes_of _ (by decide +kernel), by decide +kernel, by decide +kernel, ok_of (by decide +kernel), exists_ok (by decide +kernel)⟩,
    fun l h => ⟨by revert l; decide +kernel, executes_of _ (by revert l; decide +kernel), by revert l; decide +kernel, ok_of (by revert l; decide +kernel)⟩, exists_ok (by decide +kernel),
    fun l h => exists_error (by revert l; decide +kernel),
    ⟨⟨⟨rfl, rfl, rfl⟩, rfl, rfl, fun h => (nomatch h), ⟨by decide +kernel, fun h => (nomatch h)⟩, by unfold Unbound; decide +kernel⟩,
      ⟨⟨rfl, rfl, rfl⟩, rfl, rfl, fun h => (nomatch h), ⟨by decide +kernel, fun h => (nomatch h)⟩, by unfold Unbound; decide +kernel⟩, quiet_of (by decide +kernel)⟩, rfl,
    by decide +kernel, ⟨_, rfl, by decide +kernel⟩, ⟨_, rfl, by decide +kernel⟩, ⟨_, rfl, by decide +kernel⟩, by decide +kernel⟩

def watching (woken : Bool) : State := { world { runner with wait := .watch 0x10000 0, await := some (aWait 1), woken := woken } with gtime := 65536 }

theorem w_WatchedWaits : (Executes {} [3, 4, 5] [] (world runner) ∧ reaches (world runner) 3 [permR] 0x10000 8 1 false) ∧
    (∀ w, let s := watching w; (s.thread 0).wait = .watch 0x10000 0 ∧ (s.thread 0).await = some (aWait 1) ∧ (s.thread 0).occ = .resident ∧ halted s (s.thread 0).bolt 0 = false ∧ sendRoom { s with cur := 0 } 1 false = .ok () ∧ (s.thread 0).woken = w ∧ 0 + 65536 ≤ s.gtime) ∧
    (let s := { watching false with gtime := 65535 }; s.gtime < 0 + 65536) :=
  ⟨⟨executes_of _ (by decide +kernel), ok_of (by decide +kernel), ok_of (by decide +kernel), ok_of (by decide +kernel)⟩,
    fun w => ⟨rfl, rfl, rfl, by revert w; decide +kernel, ok_of (by revert w; decide +kernel), rfl, by revert w; decide +kernel⟩, by decide +kernel⟩

/-- The record of a launch of `n` blocks of one thread, 16 registers, 4 KiB, placement `p`, a group of the bolt or none, with the entry tagged or not, read
from 0x10000. -/
def recordBytes (n p grp : Nat) : Nat := (allCap 0x2000).bits.toNat + n * 2 ^ 384 + p * 2 ^ 433 + grp * 2 ^ 474
def launchRecord (n p grp : Nat) (tag : Bool) : State :=
  let l := (List.range 64).map (fun i => recordBytes n p grp / 2 ^ (8 * i) % 256)
  let s := grouped 0 0 runner
  answers (threadKey 0 0) [{ anAnswer 0x10000 16 (released {} s 4).t.cnt (l.take 16) with tag := tag }, anAnswer 0x10010 48 (released {} s 4).t.cnt (l.drop 16)]
    (s.setBolt 1 { s.b with groups := [(20, 1)] })

theorem record_of {x : Res (State × Nat × Bool)} (p : Nat → Bool → Bool) (h : (match x with | .ok (_, r, t) => p r t | .error _ => false) = true) :
    ∃ s r t, x = .ok (s, r, t) ∧ p r t = true := by
  match x, h with
  | .ok (s, r, t), h => exact ⟨s, r, t, rfl, h⟩

def launchCases : List (Nat × Nat × Nat × Bool × Bool) := [(1, 0, 0, false, false), (0, 0, 0, true, true), (2 ^ 32 - 1, 2, 0, true, true), (1, 0, 0, true, true), (1, 0, 0x105, true, true)]

theorem w_Launches :
    (let s := world (withRegs [(3, allCap 0x10001)]); Runs {} [3, 5, 3] [] s ∧ Unbound [3, 5] s ∧ quiet s 4 ∧ hasStoreFault s s.cur = false ∧ s.c.ring.length < 32 ∧ (valOf s 3).toNat % 64 ≠ 0) ∧
    -- a record out of bounds, one whose read fails, one whose capability lacks LC
    (∃ x, checkGlobal 3 (capOf 0x10000 0xDF 0 0 0x1003F) [permR] 0x10000 64 = .error x) ∧
    (let s := answers (threadKey 0 0) [failed (anAnswer 0x10000 16 (released {} (world runner) 4).t.cnt [])] (world runner); Runs {} [3, 5, 3] [] s ∧ Unbound [3, 5] s ∧ quiet s 4 ∧ hasStoreFault s s.cur = false ∧
      checkGlobal 3 (s.t.reg 3) [permR] 0x10000 64 = .ok () ∧ ∃ x, readRecord (released {} s 4) 0x10000 = .error x) ∧
    (let v := capOf 0x10000 0x03 44 0 256; bitAt (capPerm v) permLC = false ∧ checkGlobal 3 v [permR] 0x10000 64 = .ok ()) ∧
    -- a record without an entry, of no blocks, too large to be co-resident, of one block, of one that a group selects
    ∀ c ∈ launchCases, let s := launchRecord c.1 c.2.1 c.2.2.1 c.2.2.2.1;
      (valOf s 3).toNat = 0x10000 ∧ Runs {} [3, 5, 3] [] s ∧ Unbound [3, 5] s ∧ quiet s 4 ∧ hasStoreFault s s.cur = false ∧ s.c.ring.length < 32 ∧
      checkGlobal 3 (s.t.reg 3) [permR] 0x10000 64 = .ok () ∧ bitAt (capPerm (s.t.reg 3)) permLC = true ∧
      ∃ s1 raw tag, readRecord (released {} s 4) 0x10000 = .ok (s1, raw, tag) ∧
        (let r := recordOf raw tag; decide (validRecord (released {} s 4) (s.t.reg 3) r = c.2.2.2.2 ∧ r.blocks = c.1 ∧ r.place = c.2.1 ∧ (c.2.1 = 2 → holdsAll s 1 r = false) ∧ (c.2.2.1 = 0x105 → r.groups = [5] ∧ formOf (groupWord s.b 5) = 1))) = true :=
  ⟨⟨runs_of _ (by decide +kernel), unbound_of (by decide +kernel), quiet_of (by decide +kernel), by decide +kernel, by decide +kernel, by decide +kernel⟩, exists_error (by decide +kernel),
    ⟨runs_of _ (by decide +kernel), unbound_of (by decide +kernel), quiet_of (by decide +kernel), by decide +kernel, ok_of (by decide +kernel), exists_error (by decide +kernel)⟩, ⟨by decide +kernel, ok_of (by decide +kernel)⟩,
    fun c h => ⟨by revert c; decide +kernel, runs_of _ (by revert c; decide +kernel), unbound_of (by revert c; decide +kernel), quiet_of (by revert c; decide +kernel), by revert c; decide +kernel, by revert c; decide +kernel,
      ok_of (by revert c; decide +kernel), by revert c; decide +kernel, record_of _ (by revert c; decide +kernel)⟩⟩


/-- FORK's group in g16: body, continuation, n iterations in pieces of g, the argument. -/
def forking (body cont n g : Nat) : State := world (copyRegs (Val.ofNat body) (Val.ofNat cont) (Val.ofNat (n + g * 2 ^ 32)) {})
def wantOf (s : State) : Nat := min (min (ceilDiv ((s.t.reg 18).nat % 2 ^ 32) (max ((s.t.reg 18).nat / 2 ^ 32) 1)) (1 + (idleCores s).length)) 64
/-- JOIN's descriptor in g4; `cell` is the join cell in use. -/
def joining (v : Val) (cell : Option Nat) (t : Thread) : State :=
  (world (t.setReg 4 v)).setCluster 0 { owner := .bolt 1, cells := match cell with | some k => [(63, (k, 1, 0x4000))] | none => [] }
def joinable (v : Val) (s : State) : Prop := Executes {} [4] [] s ∧ s.t.seamed = false ∧ s.t.reg 4 = v

/-- FORK in g16 executes: its group, and the registers it reads and writes by itself. -/
def Forks (s : State) : Prop := Runs {} (four 16 ++ [3, 4, 5, 6, 7]) [] s ∧ Unbound (four 16) s
theorem forks_of {s : State} (h : (runsB {} (four 16 ++ [3, 4, 5, 6, 7]) s && unboundB (four 16) s) = true) : Forks s := by
  simp only [Bool.and_eq_true] at h
  exact ⟨runs_of _ h.1, unbound_of h.2⟩

theorem w_ForkAndJoin :
    (let s := forking 0x3000 0x4000 0 0; Forks s ∧ s.t.seamed = false ∧ (s.t.reg 18).nat % 2 ^ 32 = 0 ∧ (valOf s 17).getLsbD 0 = false) ∧
    (let s := forking 0x3000 0x4001 0 0; Forks s ∧ (s.t.reg 18).nat % 2 ^ 32 = 0 ∧ (valOf s 17).getLsbD 0 = true) ∧
    (let s := forking 0x3001 0x4000 1 0; Forks s ∧ (s.t.reg 18).nat % 2 ^ 32 ≠ 0 ∧ (valOf s 16).getLsbD 0 = true) ∧
    (let s := forking 0x3000 0x4000 10 10; Forks s ∧ (s.t.reg 18).nat % 2 ^ 32 ≠ 0 ∧ (valOf s 16).getLsbD 0 = false ∧ wantOf s ≤ 1) ∧
    (let s := forking 0x3000 0x4000 100 1; Forks s ∧ (∀ x ∈ s.b.clusters, x < 256) ∧ 1 < wantOf s ∧ freeCell s s.curCluster s.t.launch = some 0) ∧
    -- JOIN: a recruit-free fork, a cell of another launch, no descriptor with a command pending, no descriptor, not the last, the last
    joinable (forkDesc 0 true 0 0x4000) (joining (forkDesc 0 true 0 0x4000) none runner) ∧
    (joinable (forkDesc 0 false 63 0x4000) (joining (forkDesc 0 false 63 0x4000) none runner) ∧ cellHome (joining (forkDesc 0 false 63 0x4000) none runner) 63 (joining (forkDesc 0 false 63 0x4000) none runner).t.launch = none) ∧
    (joinable {} (joining {} none { runner with cmds := [(sq 3, 64, 1)] }) ∧ ∃ c ∈ (joining {} none { runner with cmds := [(sq 3, 64, 1)] }).t.cmds, 1 ≤ c.2.2) ∧
    (let s := joining {} none runner; joinable {} s ∧ (∀ c ∈ s.t.cmds, c.2.2 = 0) ∧ quiet s 4 ∧ hasStoreFault s s.cur = false) ∧
    (∀ k ∈ [1, 2], let s := joining (forkDesc 0 false 63 0x4000) (some k) runner; joinable (forkDesc 0 false 63 0x4000) s ∧ quiet s 4 ∧
      cellHome s 63 s.t.launch = some 0 ∧ Map.find (s.cluster 0).cells 63 = some (k, s.t.launch, 0x4000) ∧ (forkDesc 0 false 63 0x4000).bits.getLsbD 72 = true ∧ (forkDesc 0 false 63 0x4000).lo.getLsbD 0 = false) :=
  ⟨⟨forks_of (by decide +kernel), by decide +kernel, by decide +kernel, by decide +kernel⟩, ⟨forks_of (by decide +kernel), by decide +kernel, by decide +kernel⟩,
    ⟨forks_of (by decide +kernel), by decide +kernel, by decide +kernel⟩, ⟨forks_of (by decide +kernel), by decide +kernel, by decide +kernel, by decide +kernel⟩,
    ⟨forks_of (by decide +kernel), by decide +kernel, by decide +kernel, by decide +kernel⟩,
    ⟨executes_of _ (by decide +kernel), by decide +kernel⟩, ⟨⟨executes_of _ (by decide +kernel), by decide +kernel⟩, by decide +kernel⟩, ⟨⟨executes_of _ (by decide +kernel), by decide +kernel⟩, by decide +kernel⟩,
    ⟨⟨executes_of _ (by decide +kernel), by decide +kernel⟩, by decide +kernel, quiet_of (by decide +kernel), by decide +kernel⟩,
    fun k h => ⟨⟨executes_of _ (by revert k; decide +kernel), by revert k; decide +kernel⟩, quiet_of (by revert k; decide +kernel), by revert k; decide +kernel⟩⟩

def aLaunch : Launch :=
  { bolt := 1, tid := 0, tok := 5, seq := sq 1, recVa := 0x10000, entry := allCap 0x2000, presets := [], blocks := 3, threads := 2, ws := 4096, allot := 16, place := 0, prio := 2, img := none, groups := [],
    g3 := {}, qclass := 1 }
/-- A thread blocked in BAR past the eviction time, with a launch to place; the same thread saved. -/
def blocked : State :=
  { (world { runner with wait := .barrier 1 0 0 }).setBolt 1 { live := true, clusters := [0], slices := [0], evict := 10 } with launches := [(1, { aLaunch with prio := 0 }), (2, aLaunch)], gtime := 11 }
def savedState : State := { world runner with threads := [(16384, { runner with occ := .evicted, wait := .barrier 1 0 1 })], saved := [16384] }

theorem w_BlocksAndContexts :
    (let s := { world runner with launches := [(2, aLaunch)] }; (s.bolt 1).pressed = false ∧ headLaunch s 1 = some (2, aLaunch) ∧ (∀ j ∈ s.saved, j < 2 ^ 40 → (s.thread j).bolt = 1 → prioOf s (s.thread j) < aLaunch.prio) ∧
      aLaunch.place ≠ 2 ∧ aLaunch.img = none ∧ (∃ pos lb slots, findFit s aLaunch = some (pos, 0, lb, slots) ∧ 0 < slots.length) ∧ seamFirst s 1 = false ∧ Memory.wf (s.cluster 0).mem.cells = true ∧ aLaunch.ws % 4096 = 0) ∧
    headLaunch (world runner) 1 = none ∧
    (let s := blocked; let t := s.thread 0; Rising s.threads ∧ t.occ = .resident ∧ blockingPoint t.wait = true ∧ (s.bolt t.bolt).evict ≠ 0 ∧ (s.bolt t.bolt).evict.toNat < s.gtime - t.blockedAt ∧ t.seamed = false ∧ t.xchg = false ∧
      t.handler = false ∧ (s.bolt t.bolt).pressed = false ∧ waitedFor s t = true ∧ (nearestRoom s t.bolt (coreOf 0) t.allot).isSome = true) ∧
    (((world runner).thread 0).occ = .resident ∧ blockingPoint ((world runner).thread 0).wait = false) ∧
    (let s := savedState; Rising s.threads ∧ noteWakes s = s ∧ s.saved = [16384] ∧ headLaunch s 1 = none ∧ halted s 1 16384 = false ∧ restoreSlot s 16384 = some 0) :=
  ⟨⟨by decide +kernel, by decide +kernel, by decide +kernel, by decide +kernel, rfl, ⟨0, 0, [4, 8], by decide +kernel, by decide +kernel⟩, by decide +kernel, by decide +kernel, by decide +kernel⟩, by decide +kernel,
    ⟨by unfold Rising; decide +kernel, by decide +kernel⟩, by decide +kernel, ⟨by unfold Rising; decide +kernel, by decide +kernel⟩⟩

/-- The command group of eight from g16: A in the window, B in the slice, a shape word, strides. -/
def matrixRegs (shape : Nat) : Thread := withRegs [(16, winCap 0), (17, damCap 0), (18, Val.ofNat shape)]
def oneByOne : Nat := 0x10101
def matrixOff (s : State) : State := s.setCluster 0 { s.cluster 0 with matrixOut := true }
def queueFull (s : State) : State := s.setCore 0 { s.core 0 with mq := List.replicate 4 (matrixRequest s 6 64 []) }
/-- A stream of bytes in g8 as A, B in g9. -/
def streamed (w : Nat) : Thread :=
  { withRegs [(9, damCap 0), (10, Val.ofNat oneByOne), (12, {}), (14, {})] with binds := [(8, .stream false (winCap 0) 1 4 w false 0 0 [Val.ofW 3])] }

/-- The matrix unit with room, with core 0's queue full, out of service. -/
def unitIn (u : Nat) (s : State) : State := if u = 0 then s else if u = 1 then queueFull s else matrixOff s

theorem w_MatrixCommands :
    (let s := world (withRegs [(4, Val.ofW 0x111)]); Executes {} [4, 5] [] s ∧ s.c.ring.length < 32 ∧ s.c.mq.length < 4 ∧ s.cl.matrixOut = false ∧ fmtAcceptable ((s.t.reg 4).bits.setWidth 32) = true) ∧
    fmtAcceptable 0x11 = false ∧
    -- MM of one element, with a place and without, of a tile that it leaves, with the unit out of service, with an operand refused
    (∀ c ∈ [(oneByOne, false), (oneByOne, true), (0x10181, false)], let s := if c.2 then queueFull (world (matrixRegs c.1)) else world (matrixRegs c.1); Commands {} 5 (eight 16) (mmReads s 16) s ∧ s.c.ring.length < 32 ∧ s.cl.matrixOut = false ∧
      ((mmShape (s.t.reg 18)).inTile = true ↔ c.1 = oneByOne) ∧ (s.c.mq.length < 4 ↔ c.2 = false) ∧ mmChecks s 16 (mmShape (s.t.reg 18)) s.c.fmtLatest false = .ok ()) ∧
    (let s := matrixOff (world (matrixRegs 0)); Commands {} 5 (eight 16) (mmReads s 16) s ∧ s.c.ring.length < 32 ∧ s.cl.matrixOut = true) ∧
    (let s := world (withRegs [(18, Val.ofNat oneByOne)]); Commands {} 5 (eight 16) (mmReads s 16) s ∧ ∃ x, mmChecks s 16 (mmShape (s.t.reg 18)) s.c.fmtLatest false = .error x) ∧
    -- a register of the group that it does not read is pending
    (let s := world { matrixRegs oneByOne with pending := [20, 21, 22, 23] }; Commands {} 5 (eight 16) (mmReads s 16) s) ∧
    (∀ w ∈ [1, 2], let s := world (streamed w); s.c.ring.length < 32 ∧ s.c.mq.length < 4 ∧ Runs {} (5 :: mmReads s 8) [] s ∧ (∀ x ∈ eight 8, x.toNat < s.t.allot) ∧ Unbound (5 :: (eight 8).tail) s ∧ s.cl.matrixOut = false ∧
      (mmShape (s.t.reg 10)).inTile = true ∧ Map.find s.t.binds 8 = some (.stream false (winCap 0) 1 4 w false 0 0 [Val.ofW 3]) ∧ (widthBits w = (matFmt (ctxA s.c.fmtLatest)).bits ↔ w = 1) ∧
      mmChecks s 8 (mmShape (s.t.reg 10)) s.c.fmtLatest true = .ok () ∧ ∃ x, popElements s 8 1 = .ok x) ∧
    -- MDRAIN of one element, with a place and without, with the unit out of service, outside the tile, of a reserved format, with the elements refused, with the scales refused
    (∀ u ∈ [0, 1, 2], let s := unitIn u (world (copyRegs (winCap 0) (winCap 0) (Val.ofNat 0x0101) {})); Commands {} 5 (four 16) (drainReads s 16) s ∧ s.c.ring.length < 32 ∧ (drainShape (s.t.reg 18)).inTile = true ∧ drainFmt (s.t.reg 18) ≤ 5 ∧
      drainFits s 16) ∧ (queueFull (world runner)).c.mq.length = 4 ∧ (matrixOff (world runner)).cl.matrixOut = true ∧
    (∀ n ∈ [0x0181, 0x600000101], let s := world (copyRegs {} {} (Val.ofNat n) {}); Commands {} 5 (four 16) (drainReads s 16) s ∧ ((drainShape (s.t.reg 18)).inTile = false ∨ 5 < drainFmt (s.t.reg 18))) ∧
    (let s := world (copyRegs {} (winCap 0) (Val.ofNat 0x0101) {}); Commands {} 5 (four 16) (drainReads s 16) s ∧ (drainShape (s.t.reg 18)).m ≠ 0 ∧ (drainShape (s.t.reg 18)).n ≠ 0 ∧ ∃ x, drainElements s 16 = .error x) ∧
    (let s := world (copyRegs (winCap 0) {} (Val.ofNat 0x200000101) {}); Commands {} 5 (four 16) (drainReads s 16) s ∧ drainElements s 16 = .ok () ∧ drainScaled (drainFmt (s.t.reg 18)) = true ∧ ∃ x, drainScales s 16 = .error x) ∧
    -- MACC, with a place and without, with the unit out of service, refused
    (∀ u ∈ [0, 1, 2], let s := unitIn u (world runner); Executes {} [2] [] s ∧ (∀ wr, checkLocal s s.cur 2 (s.t.reg 2) (s.t.reg 2).nat 65536 (!wr) wr = .ok ()) ∧ Executes {} [] [] s) ∧
    (let s := world runner; Executes {} [4] [] s ∧ checkLocal s s.cur 4 (s.t.reg 4) (s.t.reg 4).nat 65536 true false = .error (.trap .captag (capTval 4 false 0 7))) ∧
    (let s := world { runner with stage := 2 }; s.t.occ = .resident ∧ s.t.wait = .none ∧ s.t.stage = 2 ∧ s.t.xchg = false ∧ s.t.check = false ∧ Unbound [2] s) := by
  have fits : ∀ u ∈ [0, 1, 2], drainFits (unitIn u (world (copyRegs (winCap 0) (winCap 0) (Val.ofNat 0x0101) {}))) 16 := fun u h =>
    Or.inr (Or.inr ⟨ok_of (by revert u; decide +kernel), fun h' => absurd h' (by revert u; decide +kernel)⟩)
  refine ⟨⟨executes_of _ (by decide +kernel), by decide +kernel⟩, by decide +kernel,
    fun c h => ⟨commands_of (by revert c; decide +kernel), by revert c; decide +kernel, by revert c; decide +kernel, by revert c; decide +kernel, by revert c; decide +kernel, ok_of (by revert c; decide +kernel)⟩,
    ⟨commands_of (by decide +kernel), by decide +kernel, by decide +kernel⟩, ⟨commands_of (by decide +kernel), exists_error (by decide +kernel)⟩, commands_of (by decide +kernel),
    fun w h => ⟨by revert w; decide +kernel, by revert w; decide +kernel, runs_of _ (by revert w; decide +kernel), by revert w; decide +kernel, unbound_of (by revert w; decide +kernel), by revert w; decide +kernel, by revert w; decide +kernel,
      by revert w; decide +kernel, by revert w; decide +kernel, ok_of (by revert w; decide +kernel), exists_ok (by revert w; decide +kernel)⟩,
    fun u h => ⟨commands_of (by revert u; decide +kernel),
      by revert u; decide +kernel, by revert u; decide +kernel,
      by revert u; decide +kernel, fits u h⟩, by decide +kernel, by decide +kernel,
    fun n h => ⟨commands_of (by revert n; decide +kernel), by revert n; decide +kernel⟩, ⟨commands_of (by decide +kernel), by decide +kernel, by decide +kernel, exists_error (by decide +kernel)⟩,
    ⟨commands_of (by decide +kernel), ok_of (by decide +kernel), by decide +kernel, exists_error (by decide +kernel)⟩,
    fun u h => ⟨executes_of _ (by revert u; decide +kernel),
      fun wr => ok_of (by revert u wr; decide +kernel),
      executes_of _ (by revert u; decide +kernel)⟩,
    ⟨executes_of _ (by decide +kernel), error_of (by decide +kernel)⟩, ⟨rfl, rfl, rfl, rfl, rfl, by unfold Unbound; decide +kernel⟩⟩
/-- Core 0 with a request of a kind at its head, the array granted to it; its command group and the format word in force. -/
def aRequest (kind grant shape : Nat) : MReq :=
  { kind := kind, tid := 0, bolt := 1, tok := 5, seq := sq 1, mode := true, lb := 0x10000, grant := grant, regs := [winCap 0, damCap 0, Val.ofNat shape, Val.ofNat shape] }
def onArray (r : MReq) (fmt : BitVec 32) : State :=
  (({ world { runner with cmds := [(sq 1, 5, 1)], pending := [5] } with gtime := 2000 }).setCluster 0 { owner := .bolt 1, arrayBusy := some 0 }).setCore 0 { live := true, mq := [r], fmtNow := fmt }
def queueOnly (r : MReq) : State := (world { runner with cmds := [(sq 1, 5, 1)], pending := [5] }).setCore 0 { live := true, mq := [r] }

theorem w_MatrixRequests :
    (let s := queueOnly (aRequest 0 0 0); (s.core 0).mq = aRequest 0 0 0 :: [] ∧ halted s 1 0 = false ∧ coreOf 0 = 0) ∧
    (let s := queueOnly (aRequest 1 0 oneByOne); (s.cluster 0).arrayBusy = none ∧ (liveCores s 0)[0]? = some 0 ∧ grantable s 0 = true ∧ (s.core 0).mq = aRequest 1 0 oneByOne :: [] ∧
      ∀ j x, j ≠ 0 → (liveCores s 0)[j]? = some x → grantable s x = false) ∧
    (∀ c ∈ [(1, 0), (2, oneByOne), (3, oneByOne)], let s := onArray (aRequest 1 c.1 c.2) 0x111; granted s 0 (aRequest 1 c.1 c.2) [] ∧ let h := mmShape (Val.ofNat c.2);
      (if c.2 = 0 then h.m = 0 else h.m ≠ 0 ∧ h.n ≠ 0 ∧ h.k ≠ 0 ∧ h.inTile = true) ∧ ctxAcc 0x111 = 1 ∧ ctxSat 0x111 = false ∧ ctxSA 0x111 = false ∧ ctxSB 0x111 = false ∧
      Map.canon 0 none (s.core 0).tile = true) ∧
    -- MDRAIN of one row: FP32 of an FP32 tile, INT32 of an INT32 tile, INT32 of an FP32 tile refused
    (∀ c ∈ [(0, 0x000), (5, 0x111), (5, 0x000)], let g := 0x0101 + c.1 * 2 ^ 32; let s := onArray (aRequest 3 1 g) (BitVec.ofNat 32 c.2); granted s 0 (aRequest 3 1 g) [] ∧
      Memory.wf (s.cluster 0).mem.cells = true ∧ (drainShape (Val.ofNat g)).m = 1 ∧ drainClear (Val.ofNat g) = false ∧ drainFmt (Val.ofNat g) = c.1 ∧ (drainAccepts c.1 (ctxAcc (BitVec.ofNat 32 c.2)) = false ↔ c = (5, 0x000))) ∧
    (∀ k ∈ [4, 5, 6], let s := onArray (aRequest k 1 0) 0; granted s 0 (aRequest k 1 0) [] ∧ Memory.wf (s.cluster 0).mem.cells = true) := by
  refine ⟨by decide +kernel, ⟨by decide +kernel, by decide +kernel, by decide +kernel, by decide +kernel, fun j x hj hx => ?_⟩, ?_, ?_, ?_⟩
  · have e : liveCores (queueOnly (aRequest 1 0 oneByOne)) 0 = [0, 1, 2, 3, 4, 5, 6, 7] := by decide +kernel
    rw [e] at hx
    have : ∀ y ∈ [1, 2, 3, 4, 5, 6, 7], grantable (queueOnly (aRequest 1 0 oneByOne)) y = false := by decide +kernel
    cases j with
    | zero => exact absurd rfl hj
    | succ n => exact this x (List.mem_of_getElem? (l := [1, 2, 3, 4, 5, 6, 7]) (by simpa using hx))
  all_goals (unfold granted; decide +kernel)

def walkRegs (g3 g6 : Nat) : Thread := withRegs [(16, winCap 0), (17, allCap 0x10000), (18, {}), (19, Val.ofNat g3), (20, {}), (21, winCap 0), (22, winCap (BitVec.ofNat 64 g6))]
def aNode : Node := { thresh := 0, children := 0, matrix := 0, n := 2, k := 1, out := 0, c := 2, rule := 1, kind := 0 }

theorem w_Walks :
    -- of one row of K = 1; K = 0; K = 4097; 129 rows; row records misaligned; no rows
    (let s := world (walkRegs 0x10001 0); Commands {} 5 (eight 16) (eight 16) s ∧ s.c.ring.length < 32 ∧ s.cl.matrixOut = false ∧ walkChecks s 16 = .ok () ∧ s.c.mq.length < 4 ∧
      ¬ (128 < bits (s.t.reg 19).nat 7 0 ∨ bits (s.t.reg 19).nat 28 16 = 0 ∨ 4096 < bits (s.t.reg 19).nat 28 16 ∨ (s.t.reg 22).nat % 16 ≠ 0)) ∧
    (∀ c ∈ [(1, 0), (0x10010001, 0), (0x10081, 0), (0x10001, 8)], let s := world (walkRegs c.1 c.2); Commands {} 5 (eight 16) (eight 16) s ∧
      (128 < bits (s.t.reg 19).nat 7 0 ∨ bits (s.t.reg 19).nat 28 16 = 0 ∨ 4096 < bits (s.t.reg 19).nat 28 16 ∨ (s.t.reg 22).nat % 16 ≠ 0)) ∧
    (let s := matrixOff (world (walkRegs 0x10001 0)); Commands {} 5 (eight 16) (eight 16) s ∧ s.c.ring.length < 32 ∧ s.cl.matrixOut = true) ∧
    (let s := world ((walkRegs 0x10001 0).setReg 17 {}); Commands {} 5 (eight 16) (eight 16) s ∧ ∃ x, walkChecks s 16 = .error x) ∧
    (let s := queueOnly (aRequest 9 0 0); Executes {} [6] [] s ∧ (s.core 0).mq = aRequest 9 0 0 :: [] ∧ halted s 1 0 = false ∧ (s.thread 0).occ ≠ .empty ∧ (∃ c ∈ (s.thread 0).cmds, c.1 = sq 1) ∧ Map.find (s.thread 0).binds 5 = none) ∧
    (∀ c ∈ [(0, 0x000, 1), (0x10001, 0x111, 1), (0x10001, 0x000, 3)], let s := onArray (aRequest 7 c.2.2 c.1) (BitVec.ofNat 32 c.2.1); granted s 0 (aRequest 7 c.2.2 c.1) [] ∧
      (bits (Val.ofNat c.1).nat 7 0 = 0 ↔ c.1 = 0) ∧ (ctxAcc (BitVec.ofNat 32 c.2.1) = 0 ↔ c.2.1 = 0) ∧ ctxSA (BitVec.ofNat 32 c.2.1) = false ∧ ctxSB (BitVec.ofNat 32 c.2.1) = false) ∧
    (({ aNode with rule := 0 } : Node).rule = 0 ∧ aNode.rule = 1 ∧ decideChild aNode [0, 0x3F800000] = some 1) ∧ (0 < 2 ^ 128 ∧ bits 0 127 88 = 0 ∧ bits 0 79 72 ≠ 2) := by
  refine ⟨⟨commands_of (by decide +kernel), by decide +kernel, by decide +kernel, ok_of (by decide +kernel), by decide +kernel⟩,
    fun c h => ⟨commands_of (by revert c; decide +kernel), by revert c; decide +kernel⟩, ⟨commands_of (by decide +kernel), by decide +kernel, by decide +kernel⟩,
    ⟨commands_of (by decide +kernel), exists_error (by decide +kernel)⟩, ⟨executes_of _ (by decide +kernel), by decide +kernel⟩, ?_, by decide +kernel, by decide +kernel⟩
  unfold granted; decide +kernel

/-- One token of two experts with FP32 scores at 0x10000, `k` winners, in layout entry 0 of bolt `b`. -/
def layoutOf (b : Nat) : List W64 := [0x10000, 0x0013000200000001, 0x400000000, BitVec.ofNat 64 (256 + b)]
def sortGroup (k : Nat) : List (Nat × Val) :=
  [(16, allCap 0x10000), (17, Val.ofNat (k * 256)), (18, allCap 0x10100), (19, allCap 0x10200), (20, allCap 0x10300), (21, allCap 0x10400), (22, allCap 0x10500)]
def sorting (b : Nat) (out : Bool) (t : Thread) : State := (world t).setDie 0 { sorter := { out := out, layout := (List.range 4).map (fun i => (i, (layoutOf b).getD i 0)) } }
def aSort (kind : Nat) : MReq := { kind := kind, tid := 0, bolt := 1, tok := 5, seq := sq 1, mode := true, lb := 0x10000, regs := (sortGroup 1).map (·.2), layout := layoutOf 1 }
def aPar (kind : Nat) : SortPar := sortPar (aSort kind).layout ((aSort kind).regs.getD 1 {}) (decide (kind = 11))
def inSorter (kind : Nat) (l : List Pull) : State := answers (commandKey (sq 1)) l ((world runner).setDie 0 { sorter := { queue := [(0, aSort kind)] } })
def sortRun (kind : Nat) (l : List Pull) : SortSt × Option (SortStop × Nat) :=
  sortTokens 0 (aSort kind) (aPar kind) ((scoreFmt (aPar kind).type).getD f32) (aPar kind).t 0 { s := inSorter kind l }
/-- The answers to a run: its scores, its rows, its tail. -/
def scores : List Pull := [anAnswer 0x10000 4 0 [], anAnswer 0x10004 4 0 []]
def rows : List Pull := [probedAt 0x10100 2, probedAt 0x10200 4, wroteAt 0x10100 2, wroteAt 0x10200 4]
def tailed : List Pull := [probedAt 0x10300 8, wroteAt 0x10300 8]
/-- Those of SORTC, whose one winner is expert 0, with expert `x` predicted. -/
def rowsC (x : Nat) : List Pull :=
  [anAnswer 0x10400 2 0 [x], probedAt 0x10100 2, probedAt 0x10200 4] ++ (if x = 0 then [] else [probedAt 0x10504 4]) ++ [wroteAt 0x10100 2, wroteAt 0x10200 4] ++ if x = 0 then [] else [wroteAt 0x10504 4]

def aToken (kind : Nat) (l : List Pull) : Except (SortStop × Ev) SortSt := sortToken 0 (aSort kind) (aPar kind) f32 { s := inSorter kind l } 0
/-- A token of SORT, of SORTC with the winner predicted and not, one that a fault stops. -/
theorem w_TokenRows : (∃ v, aToken 10 (scores ++ rows) = .ok v) ∧ (∀ x ∈ [0, 1], (∃ v, aToken 11 (scores ++ rowsC x) = .ok v) ∧ (match aToken 11 (scores ++ rowsC x) with | .ok v => v.n = x | .error _ => False)) ∧
    (aPar 10).listed = false ∧ (aPar 11).listed = true ∧ ∃ e, aToken 10 (scores ++ [failed (probedAt 0x10100 2)]) = .error e :=
  ⟨exists_ok (by decide +kernel), fun x h => ⟨exists_ok (by revert x; decide +kernel), by
    have e : (match aToken 11 (scores ++ rowsC x) with | .ok v => decide (v.n = x) | .error _ => false) = true := by revert x; decide +kernel
    revert e; cases aToken 11 (scores ++ rowsC x) <;> simp⟩, rfl, rfl, exists_error (by decide +kernel)⟩

theorem w_TailRows : (∃ t, sortTail 0 (aSort 10) (aPar 10) { s := inSorter 10 tailed } = .ok t) ∧
    ∃ t, sortTail 0 (aSort 11) (aPar 11) { s := inSorter 11 [probedAt 0x10300 8, probedAt 0x10500 4, wroteAt 0x10300 8, wroteAt 0x10500 4] } = .ok t :=
  ⟨exists_ok (by decide +kernel), exists_ok (by decide +kernel)⟩

/-- A run to its end, one that its first token stops. -/
theorem w_TokensInOrder : (sortRun 10 (scores ++ rows)).2 = none ∧ (sortRun 10 [failed (anAnswer 0x10000 4 0 [])]).2 = some (.fault .page, 0) := ⟨by decide +kernel, by decide +kernel⟩

theorem w_Weights : f32.decode 0 = .fin false 0 (-149) ∧ (f32.decode 0x7FC00000).isNan = true ∧ f32.decode 0x3F800000 = .fin false 0x800000 (-23) ∧ f32.decode 0x40000000 = .fin false 0x800000 (-22) := by decide +kernel

theorem pair_of {α β : Type} {x : α × β} {b : β} (h : x.2 = b) : ∃ a, x = (a, b) := ⟨x.1, by rw [← h]⟩
/-- A run, a tail that must wait. -/
theorem busy_of {x : SortSt × Option (SortStop × Nat)} (h : (match x.2 with | some (.busy _, _) => true | _ => false) = true) : ∃ w l n, x = (w, some (.busy l, n)) := by
  obtain ⟨w, o⟩ := x
  match o, h with
  | some (.busy l, n), _ => exact ⟨w, l, n, rfl⟩
def tailBusy (x : Except SortStop State) : Bool := match x with | .error (.busy _) => true | _ => false
def tailFails (x : Except SortStop State) : Bool := match x with | .error (.fault .page) => true | _ => false

theorem w_Sorts :
    (∀ k ∈ [10, 11], let l := decide (k = 11); let s := sorting 1 false (withRegs (sortGroup 1)); Commands {} 5 (eight 16) (if l then eight 16 else (eight 16).take 5 ++ [16 + 7]) s ∧ s.c.ring.length < 32 ∧
      (s.die (dieOf s.curCore)).sorter.out = false ∧ sortRefused s (layoutOf 1) (sortPar (layoutOf 1) (s.t.reg 17) l) = false ∧ sortChecks s 16 (sortPar (layoutOf 1) (s.t.reg 17) l) = .ok () ∧ s.c.mq.length < 4) ∧
    (∀ c ∈ [(2, 1), (1, 3), (1, 0)], let s := sorting c.1 false (withRegs (sortGroup c.2)); Commands {} 5 (eight 16) (eight 16) s ∧ sortRefused s (layoutOf c.1) (sortPar (layoutOf c.1) (s.t.reg 17) false) = true) ∧
    (let s := sorting 1 true (withRegs (sortGroup 1)); Commands {} 5 (eight 16) (eight 16) s ∧ (s.die (dieOf s.curCore)).sorter.out = true) ∧
    (let s := sorting 1 false (withRegs [(16, {}), (17, Val.ofNat 256)]); Commands {} 5 (eight 16) (eight 16) s ∧ sortRefused s (layoutOf 1) (sortPar (layoutOf 1) (s.t.reg 17) false) = false ∧
      ∃ x, sortChecks s 16 (sortPar (layoutOf 1) (s.t.reg 17) false) = .error x) ∧
    (let s := queueOnly (aSort 10); (s.core 0).mq = aSort 10 :: [] ∧ halted s 1 0 = false ∧ (s.die (dieOf 0)).sorter.queue.length < 32 ∧ writesBefore s 0 (sq 1) = false) ∧
    (let s := (queueOnly (aSort 10)).setDie 0 { sorter := { queue := List.replicate 32 (0, aSort 10) } }; (s.core 0).mq = aSort 10 :: [] ∧ 32 ≤ (s.die (dieOf 0)).sorter.queue.length) ∧
    (let s := (queueOnly (aSort 10)).setCluster 0 { owner := .bolt 1, ni := [aStore] }; (s.core 0).mq = aSort 10 :: [] ∧ writesBefore s 0 (sq 1) = true ∧ (aRequest 9 0 0).kind < 10) ∧
    -- a run to its end; one stopped by a translation fault, at a token and at the tail; one that must wait, at a token and at the tail
    ((inSorter 10 (scores ++ rows ++ tailed)).die 0).sorter.queue = (0, aSort 10) :: [] ∧ (∃ w s1, sortRun 10 (scores ++ rows ++ tailed) = (w, none) ∧ sortTail 0 (aSort 10) (aPar 10) w = .ok s1) ∧
    (∃ w n, sortRun 10 [failed (anAnswer 0x10000 4 0 [])] = (w, some (.fault .page, n))) ∧ (∃ w c, sortRun 10 (scores ++ rows ++ [failed (probedAt 0x10300 8)]) = (w, none) ∧ sortTail 0 (aSort 10) (aPar 10) w = .error (.fault c)) ∧
    (∃ w l n, sortRun 10 [] = (w, some (.busy l, n))) ∧ (∃ w l, sortRun 10 (scores ++ rows) = (w, none) ∧ sortTail 0 (aSort 10) (aPar 10) w = .error (.busy l)) ∧ ∃ x, x < [0, 0x3F800000].length ∧ x ∉ [0] := by
  refine ⟨fun k h => ⟨commands_of (by revert k; decide +kernel), by revert k; decide +kernel, by revert k; decide +kernel, by revert k; decide +kernel, ok_of (by revert k; decide +kernel), by revert k; decide +kernel⟩,
    fun c h => ⟨commands_of (by revert c; decide +kernel), by revert c; decide +kernel⟩, ⟨commands_of (by decide +kernel), by decide +kernel⟩,
    ⟨commands_of (by decide +kernel), by decide +kernel, exists_error (by decide +kernel)⟩, by decide +kernel, by decide +kernel, by decide +kernel, by decide +kernel, ?_, ?_, ?_, busy_of (by decide +kernel), ?_, 1, by decide +kernel⟩
  · obtain ⟨s1, h⟩ := exists_ok (x := sortTail 0 (aSort 10) (aPar 10) (sortRun 10 (scores ++ rows ++ tailed)).1) (by decide +kernel)
    exact ⟨_, s1, Prod.ext rfl (by decide +kernel), h⟩
  · obtain ⟨w, h⟩ := pair_of w_TokensInOrder.2
    exact ⟨w, _, h⟩
  · have e : tailFails (sortTail 0 (aSort 10) (aPar 10) (sortRun 10 (scores ++ rows ++ [failed (probedAt 0x10300 8)])).1) = true := by decide +kernel
    refine ⟨_, .page, Prod.ext rfl (by decide +kernel), ?_⟩
    unfold tailFails at e; split at e
    · assumption
    · cases e
  · have e : tailBusy (sortTail 0 (aSort 10) (aPar 10) (sortRun 10 (scores ++ rows)).1) = true := by decide +kernel
    unfold tailBusy at e; split at e
    · exact ⟨_, _, Prod.ext rfl (by decide +kernel), ‹_›⟩
    · cases e

def seamAt (col : Nat) : Seam := { head := 0, row := 0, col := col, ncols := 3, nrows := 1, skew := 1 }
def headOf (st : Stream) : Thread := { runner with cnt := 20, seamed := true, seam := some { seamAt 0 with next := st.index }, strm := some st }
def memberAt (col next : Nat) : Thread := { runner with seamed := true, seam := some { seamAt col with next := next } }
def seamOf (head : Thread) (ms : List (Nat × Thread)) : State := { world head with threads := (0, head) :: ms }
def twoForwarded : Stream := { fwd := [(1, .hold {} 0, false, 10), (0, .hold {} 0, false, 0)], index := 2, log := [(1, 0x1002), (0, 0x1000)] }
def frayed1 : Stream := { twoForwarded with frayed := true, frayTid := 4 }
def inFray (tpc : W64) : Thread := { headOf frayed1 with handler := true, cause := 0x110, tpc := tpc }

theorem w_Seams :
    -- SEAM and PANEL: bad arguments, no room, room
    (∀ c ∈ [(0, true, false), (0x10120, false, false), (0x10102, false, true)], let s := world (withRegs [(4, Val.ofNat c.1)]); Executes {} [4, 5] [] s ∧ s.t.seamed = false ∧
      ∀ nr ∈ [1, bits c.1 13 8], let nc := bits c.1 5 0; let sk := bits c.1 19 16
        (c.2.1 = true → nc < 1) ∧ (c.2.1 = false → ¬ (nc < 1 ∨ 32 < nc ∨ nr < 1 ∨ 32 < nr ∨ sk < 1 ∨ 8 < sk) ∧
          (c.2.2 = true ↔ slotOf s.cur = 0 ∧ xOf s.curCore + nc ≤ 32 ∧ yOf s.curCore + nr ≤ 32 ∧ ∀ p ∈ seamPlaces nr nc, memberFits s (seamCore s p) = true))) ∧
    (let s := world (withRegs [(4, Val.ofNat 0x10102)]); Runs {} ([4, 5] ++ copiedRegs s.t) allFlags s) ∧
    -- SEAMEND outside a seam, at a head without and with followers
    (Executes {} [] [] (world runner) ∧ runner.seamed = false) ∧
    (∀ ms ∈ [[], [(4, memberAt 1 0)]], let s := seamOf (headOf {}) ms; Executes {} [] [] s ∧ s.t.seamed = true ∧ follows s.t = false ∧ readsDone s s.cur = true ∧ (followersOf s s.cur = [] ↔ ms = [])) ∧
    -- at a member the head's guard held off, and at one it lets through
    (∀ g ∈ [false, true], let s := { world follower with forward := some (0, 0, .seamend {}, g) }; Executes {} [] [] s ∧ s.t.seamed = true ∧ follows s.t = true ∧
      s.forward = some (0, 0, .seamend {}, g) ∧ (∀ x ∈ s.t.cmds, x.2.2 = 0) ∧ quiet s 4 ∧ hasStoreFault s s.cur = false) ∧
    (∀ ms ∈ [[], [(4, memberAt 1 0)]], let s := seamOf { headOf {} with wait := .seamEnd } ms; (s.thread 0).wait = .seamEnd ∧ halted s (s.thread 0).bolt 0 = false ∧ readsDone s 0 = true ∧ (followersOf s 0 = [] ↔ ms = [])) ∧
    -- a member in step, and one that waits for the member behind it
    (∀ n ∈ [1, 0], let s := seamOf (headOf twoForwarded) [(4, memberAt 1 n), (8, memberAt 2 0)]; let t := s.thread 4; let m := { seamAt 1 with next := n }; t.seam = some m ∧ t.seamed = true ∧ m.row + m.col ≠ 0 ∧
      m.stopped = false ∧ t.occ = .resident ∧ halted s t.bolt 4 = false ∧ t.late = [] ∧ waitOver s 4 t.wait = true ∧ (forwarded s m.head m.next).isSome = true ∧ (inStep s 4 m = true ↔ n = 0)) ∧
    (let s := seamOf (headOf twoForwarded) [(4, memberAt 1 1)]; let t := s.thread 4; let m := { seamAt 1 with next := 1 }; t.seam = some m ∧ t.seamed = true ∧ frayRuns t = false ∧
      (s.thread m.head).strm = some twoForwarded ∧ twoForwarded.frayed = false ∧ Cause.page ≠ .seamfray ∧ t.occ ≠ .empty) ∧
    (let st := { frayed1 with draining := true }; let s := seamOf { headOf st with seam := some { seamAt 0 with stopped := true } } [(4, { memberAt 1 0 with seam := some { seamAt 1 with stopped := true } })]
      let t := s.thread 0; t.seam = some { seamAt 0 with stopped := true } ∧ t.strm = some st ∧ (seamAt 0).head = 0 ∧ frayComplete s 0 = true ∧ halted s t.bolt 0 = false ∧ t.handler = false ∧ t.tvec ≠ 0 ∧
      t.occ = .resident ∧ (s.thread st.frayTid).seam = some { seamAt 1 with stopped := true }) ∧
    (inFrayHandler (world runner).t = false ∧ ∀ p ∈ [(0x1001, true), (0x1000, false)], let s := world (inFray (BitVec.ofNat 64 p.1)); Executes {} [] [] s ∧ inFrayHandler s.t = true ∧ s.t.tpc.getLsbD 0 = p.2 ∧
      s.t.seam = some { seamAt 0 with next := 2 } ∧ s.t.strm = some frayed1 ∧ s.t.await = none) := by
  refine ⟨fun c h => ⟨executes_of _ (by revert c; decide +kernel), by revert c; decide +kernel⟩, runs_of _ (by decide +kernel), ⟨executes_of _ (by decide +kernel), by decide +kernel⟩,
    fun m h => ⟨executes_of _ (by revert m; decide +kernel), by revert m; decide +kernel⟩, fun g h => ⟨executes_of _ (by revert g; decide +kernel), by revert g; decide +kernel, by revert g; decide +kernel, rfl,
      by revert g; decide +kernel, quiet_of (by revert g; decide +kernel), by revert g; decide +kernel⟩, by decide +kernel, by decide +kernel, by decide +kernel, by decide +kernel,
    by decide +kernel, fun p h => ⟨executes_of _ (by revert p; decide +kernel), by revert p; decide +kernel⟩⟩

/-- Bolt 1 pressed, its thread saved; and two clusters, one of them with no work, one free; two slices, one of them free. -/
def pressed1 : State := (world { runner with occ := .pressed }).setBolt 1 { live := true, clusters := [0], slices := [0], pressed := true }
def twoClusters : State := (world runner).setBolt 1 { live := true, clusters := [0, 1], slices := [0, 1] }
def owned2 : State := { twoClusters with clusters := [(0, { owner := .bolt 1 }), (1, { owner := .bolt 1 })], slices := [(0, { owner := .bolt 1 }), (1, { owner := .bolt 1 })] }
def aParked : Parked := { bolt := 1, cluster := 1, image := {}, cores := [], threads := [], blocks := [], completions := [], replies := [], msgs := [], pwords := [], xwords := [], storeFaults := [], saved := [] }
def ofBlock (blk : Block) : State := { world { runner with block := blockKey 1 0 } with blocks := [(blockKey 1 0, blk)] }

theorem w_PressAndResume :
    (let s := world runner; 0 < 1 ∧ Rising s.threads ∧ (s.bolt 1).live = true ∧ 0 ∈ allOf s 1 ∧ (s.bolt 1).pressed = false ∧ (s.bolt 1).stopped = false ∧ ∀ p ∈ s.parked, p.bolt ≠ 1) ∧
    (Rising pressed1.threads ∧ (pressed1.bolt 1).pressed = true ∧ pressed1.pwords = [] ∧ (∀ p ∈ pressed1.threads, p.2.seam = none) ∧ (pressed1.thread 0).occ = .pressed ∧
      reserved pressed1 (pressed1.thread 0).block = false ∧ ((world runner).bolt 2).live = false) ∧
    (let s := ofBlock { launch := 1, bolt := 1, cluster := 0, lb := 0x10000, ws := 65536, window := 0, live := 1 }; Rising s.threads ∧ (Map.find s.blocks (blockKey 1 0)).isSome = true ∧ (s.bolt 1).pressed = false ∧ 0 ∈ blockOf s 1 0) ∧
    (let s := pressed1.setBolt 1 { pressed1.bolt 1 with stopped := true }; Rising s.threads ∧ (s.bolt 1).stopped = true) ∧
    (let s := { pressed1 with parked := [aParked] }; Rising s.threads ∧ ∃ p ∈ s.parked, p.bolt = 1) ∧
    -- at the end of the slice and before it
    (∀ n ∈ [0, 1], ∀ cls ∈ [[0], [1]], let s := (owned2.setBolt 2 { live := true }).setBolt 1 { owned2.bolt 1 with sliceEnd := n }; 1 ≠ 2 ∧ Rising s.threads ∧ Settled (s.bolt 1) ∧ Settled (s.bolt 2) ∧ distinct cls = true ∧
      (∀ c ∈ cls, c ∈ (s.bolt 1).clusters) ∧ ((s.bolt 1).sliceEnd ≤ s.gtime ↔ n = 0) ∧ (∀ c ∈ cls, movable s c = true) ∧ ∀ p ∈ s.threads, clusterOf (coreOf p.1) ∈ cls → p.2.occ = .resident → p.2.bolt = 1 ∧ p.1 < 8192) := by
  unfold Rising Settled; and_intros <;> decide +kernel

theorem w_BoltUnits (image bad : List (BitVec 8)) (h : Config.verifies image = true) (h' : Config.verifies bad = false) :
    (let s := world runner; Settled (s.bolt 1) ∧ distinct [1, 2] = true ∧ (∀ c ∈ [1, 2], c < 256 ∧ (s.cluster c).owner = .free) ∧ ∀ h ∈ [1], h < 128 ∧ (s.slice h).owner = .free) ∧
    -- TAKE_IN of a cluster that holds a thread, and of one that holds nothing
    (∀ c ∈ [0, 1], let s := owned2; Settled (s.bolt 1) ∧ c ∈ (s.bolt 1).clusters ∧ (∃ x ∈ (s.bolt 1).clusters, x ∉ [c]) ∧ (∃ x ∈ (s.bolt 1).slices, x ∉ ([] : List Nat)) ∧
      (∀ p ∈ s.threads, roomIn [c] p.2 = false) ∧ (clusterHolds s c = true ↔ c = 0) ∧ (c = 1 → clusterQuiet s c = true)) ∧
    (((world runner).setCluster 1 { owner := .quarantine }).cluster 1).owner = .quarantine ∧ ((world runner).cluster 1).owner ≠ .quarantine ∧
    (((world runner).setSlice 1 { owner := .quarantine }).slice 1).owner = .quarantine ∧ ((world runner).slice 1).owner ≠ .quarantine ∧
    -- BOLT_CREATE with an image that verifies; before the self-test
    (let s := world runner; (s.boot = .running ∧ (s.bolt 2).live = false ∧ distinct [1] = true ∧ [1] ≠ ([] : List Nat) ∧ (∀ c ∈ [1], c < 256 ∧ (s.cluster c).owner = .free) ∧
      (∀ h ∈ [1], h < 128 ∧ (s.slice h).owner = .free) ∧ (∀ w ∈ [0], w < Config.swatches ∧ ∀ p ∈ s.bolts, p.2.live = true → w ∉ p.2.swatches) ∧
      distinct [2048, 3079] = true ∧ ∀ c ∈ [2048, 3079], c ∈ systemCores ∧ Map.find s.sysBolt c = none) ∧ Config.verifies image = true ∧ Config.verifies bad = false) ∧
    (State.reset.boot ≠ .scrubbed ∧ State.reset.boot ≠ .running) ∧ (let s := world runner; Rising s.bolts ∧ (s.bolt 1).live = true ∧ (s.bolt 2).live = false) ∧
    (∀ p ∈ (world runner).bolts, p.2.live = true → 0 ∉ p.2.swatches) := by
  unfold Rising Settled
  refine ⟨?_, ?_, ?_, ?_, ?_, ?_, ⟨?_, h, h'⟩, ?_, ?_, ?_⟩ <;> decide +kernel

/-- Bolt 1 in a rehash from slice 0 to slice 1. -/
def rehashing (old new : Slice) : State :=
  { (world runner).setBolt 1 { live := true, clusters := [0], slices := [1], oldSlices := [0], sweeping := [0] } with slices := [(0, { old with owner := .bolt 1 }), (1, { new with owner := .bolt 1 })] }
def aLine (p : Option Pin) : Map Line := [(0, { bolt := 1, line := 0x400, pa := 0x10000, data := 0, tags := 0, pin := p })]
def migrating : State :=
  let s := ofBlock { launch := 1, bolt := 1, cluster := 0, lb := 0x10000, ws := 65536, window := 0, live := 1 }
  { s with clusters := [(0, { owner := .bolt 1 }), (1, { owner := .bolt 1 })], bolts := [(1, { live := true, clusters := [0, 1], slices := [0], departing := [0], pressed := true })] }

theorem w_Rehash :
    (let s := migrating; let a := 0; let d := 1; Rising s.threads ∧ Rising s.clusters ∧ Map.find s.blocks (blockKey 1 0) = some { launch := 1, bolt := 1, cluster := a, lb := 0x10000, ws := 65536, window := 0, live := 1 } ∧
      (s.bolt 1).pressed = true ∧ seamClosure s 256 [a] = [a] ∧ a ∈ (s.bolt 1).departing ∧ a ∈ (s.bolt 1).clusters ∧ d ∈ (s.bolt 1).clusters ∧ d ∉ (s.bolt 1).departing ∧ clusterHolds s d = false ∧
      clusterQuiet s d = true ∧ (liveCores s a).length ≤ (liveCores s d).length ∧ (s.cluster a).arrayBusy = none ∧ (s.cluster a).lq = [] ∧ (s.cluster d).copyOut = false ∧ (s.cluster d).matrixOut = false ∧ ∀ p ∈ s.dies, ∀ x ∈ p.2.sorter.queue, clusterOf x.1 ≠ a) ∧
    (∀ f ∈ [[], [0x400]], let n := (rehashing {} { heldReqs := [aLoad], fetching := f }).slice 1; n.heldReqs.any (fun r => decide (r.va / 64 = 0x400)) = true ∧ (0x400 ∉ n.fetching ↔ f = [])) ∧
    -- the arrival behind a request still at the old home, of a line it does not hold, of one that it holds
    (∀ c ∈ [([aLoad], []), ([], []), ([], aLine none)], let s := rehashing { chan := c.1, ways := c.2 } { heldReqs := [{ aLoad with dest := 1 }], fetching := [0x400] }; (s.slice 1).owner = .bolt 1 ∧ 0x400 ∈ (s.slice 1).fetching ∧
      (s.bolt 1).sweeping ≠ [] ∧ (s.bolt 1).oldSlices ≠ [] ∧ homeIn (s.bolt 1).oldSlices (0x400 * 64) = 0 ∧ (onTheWay s (fun r => decide (lineOf s r = (1, 0x400)) && decide (r.dest = 0)) = true ↔ c.1 ≠ []) ∧
      ((findWay (s.slice 0) 1 0x400).isSome = true ↔ c.2 ≠ []) ∧ findWay (s.slice 1) 1 0x400 = none ∧ (victim (s.slice 1) (0x400 % 1024)).isSome = true) ∧
    -- the sweep of a line, of a pinned one, and of none
    (let s := rehashing { chan := [aLoad], ways := aLine none } {}; 0x400 ∈ toSweep s 1 0 ∧ onTheWay s (fun r => decide (lineOf s r = (1, 0x400)) && decide (r.dest = 0)) = true) ∧
    (∀ p ∈ [none, some aPin], let s := rehashing { ways := aLine p } {}; onTheWay s (fun r => decide (lineOf s r = (1, 0x400)) && decide (r.dest = 0)) = false ∧ (s.slice 0).owner = .bolt 1 ∧ 0 ∈ (s.bolt 1).sweeping ∧ (s.bolt 1).oldSlices ≠ [] ∧ 0x400 ∈ toSweep s 1 0 ∧ 0 ∉ (s.bolt 1).slices ∧
      (findWay (s.slice 0) 1 0x400).map (·.2.pin) = some p ∧ aPin.recalled = false ∧ corePressed s 1 aPin.core = false ∧ (moveLine s 1 0x400 0 (homeSlice s 1 (0x400 * 64))).isSome = true ∧ (closePhase (s.core aPin.core) [(1, 0x400)]).isSome = true) ∧
    (∀ q ∈ [[], [aLoad]], let s := rehashing { chan := q } {}; toSweep s 1 0 = [] ∧ (onTheWay s
      (fun r => decide (r.bolt = 1) && decide (r.dest = 0) && decide (regionOf r.va = .ordinary) && decide (homeSlice s 1 r.va ≠ 0)) = true ↔ q ≠ [])) := by
  unfold Rising
  and_intros <;> decide +kernel

/-- A thread that waits for the reply to an HCALL, with g5, g6, g7. -/
def asking (fn : BitVec 10) (l : List Val) : State := paged { withRegs ((List.range 3).map (fun k => (k + 5, l.getD k {}))) with wait := .hcall fn }
def noSys : Val := capOf 0x10000 0x9F 44 0 256
def sysLocal : Val := capOf 0 0xFF 0 0 65536

/-- The permission and the bounds of an access of `m` bytes; the nonce's read, with the answers to it; the report's write. -/
def may (v : Val) (p : Nat) (m : Nat) : Bool := bitAt (capPerm v) p && (boundFault v v.nat m).isNone && !capDam v
def nonceOf (v : Val) (l : List Pull) : Except (Option Ask) (State × Option (List (BitVec 8))) := readUnder (answers (hcallKey 0) l (asking 0x202 [allCap 0x10000, v])) 0 v 64
def reportPut (l : List Pull) : Except (Option Ask) (State × Pull) :=
  let s := answers (hcallKey 0) l (asking 0x202 [allCap 0x10000, sysLocal])
  let head := reportHead s (s.thread 0) (List.replicate 64 0)
  pull s (hcallKey 0) 0 (systemWho s 0) 0 0x10000 4987 (some (head ++ (List.range 4627).map (Config.signature head))) false

/-- A bolt of cluster 0, cluster 1 in quarantine. -/
def wide : State := { world runner with clusters := [(0, { owner := .bolt 1 }), (1, { owner := .quarantine })] }

theorem w_HcallReplies :
    (∀ fn ∈ [(0 : BitVec 10), 0x1FF, 0x204, 0x3FF, 0x200, 0x201, 0x202, 0x203], let s := asking fn []; (s.thread 0).wait = .hcall fn ∧ (s.thread 0).seam = none) ∧ (0x1FF : BitVec 10).toNat < 0x200 ∧ 0x204 ≤ (0x204 : BitVec 10).toNat ∧
    -- resize: each bad argument; counts that the bolt has, and has not
    (∀ c ∈ [(0, 1, 10000), (257, 1, 10000), (1, 0, 10000), (1, 129, 10000), (1, 1, 9999), (1, 1, 2 ^ 32)], let t := (asking 0x200 [Val.ofNat c.1, Val.ofNat c.2.1, Val.ofNat c.2.2]).thread 0
      let c := (t.reg 5).nat; let h := (t.reg 6).nat; let d := (t.reg 7).nat; c < 1 ∨ 256 < c ∨ h < 1 ∨ 128 < h ∨ d < 10000 ∨ 2 ^ 32 - 1 < d) ∧
    (∀ n ∈ [1, 2], let s := asking 0x200 [Val.ofNat n, Val.ofNat 1, Val.ofNat 10000]; let t := s.thread 0; let c := (t.reg 5).nat; let h := (t.reg 6).nat; let d := (t.reg 7).nat; let b := s.bolt t.bolt
      ¬ (c < 1 ∨ 256 < c ∨ h < 1 ∨ 128 < h ∨ d < 10000 ∨ 2 ^ 32 - 1 < d) ∧ (b.clusters.length = c ↔ n = 1) ∧ b.slices.length = h ∧ resizing b = false) ∧
    -- as many clusters as there are, for a bolt of one of them, and one more than is free
    (∀ n ∈ [1, 256], let s := wide; let b := s.bolt 1; let free := ((List.range 256).filter (fun k => decide ((s.cluster k).owner = .free))).length; (b.clusters.length + free < n ↔ n = 256)) ∧
    (((world runner).bolt 1).clusters.filter (fun k => !clusterHolds (world runner) k)).length + 1 = ((world runner).bolt 1).clusters.length ∧
    (∀ w ∈ [5, 6], let s := (asking 0x201 [Val.ofNat w]).setBolt 1 { live := true, swatches := [5] }; (((s.thread 0).reg 5).nat ∈ (s.bolt 1).swatches ↔ w = 5)) ∧
    -- the report: without SYS; past the capability's bounds; the nonce in local memory, within the window and past it, in global memory, come, failed and asked for
    (∀ l ∈ [[], [noSys]], let t := (asking 0x202 l).thread 0; hasSys (t.reg 5) = false ∨ hasSys (t.reg 6) = false) ∧
    (let t := (asking 0x202 [capOf 0 0xDF 0 0 64, sysLocal]).thread 0; hasSys (t.reg 5) = true ∧ hasSys (t.reg 6) = true ∧ may (t.reg 5) permW 4987 = false) ∧
    (∀ v ∈ [allCap 0x10000, sysLocal, capOf 61440 0xFF 0 0 131072], let s := asking 0x202 [v, sysLocal]; let t := s.thread 0; hasSys (t.reg 5) = true ∧ hasSys (t.reg 6) = true ∧ may (t.reg 5) permW 4987 = true ∧
      isOk (readUnder s 0 (t.reg 6) 64) = true ∧ (capLoc (t.reg 5) = false ↔ v = allCap 0x10000) ∧ ((windowOf s 0).2.1 < (t.reg 5).nat + 4987 ↔ v ≠ sysLocal) ∧ Memory.wf (s.cluster 0).mem.cells = true) ∧
    (∃ x, nonceOf sysLocal [] = .ok (x, some (List.replicate 64 0))) ∧ (∃ a, nonceOf (allCap 0x10000) [] = .error a) ∧ (∃ x l, nonceOf (allCap 0x10000) [anAnswer 0x10000 64 0 []] = .ok (x, some l)) ∧
    (∃ x, nonceOf (capOf 65536 0xFF 0 0 131072) [] = .ok (x, none)) ∧
    -- its write: asked for, done and failed
    (∃ a, reportPut [] = .error a) ∧ (∀ p ∈ [wroteAt 0x10000 4987, failed (wroteAt 0x10000 4987)], ∃ x, reportPut [p] = .ok x) ∧
    -- the template: without SYS; too long, from local memory, not permitted; of 64 bytes, come, failed and asked for
    hasSys (((asking 0x203 []).thread 0).reg 5) = false ∧
    (∀ c ∈ [(allCap 0x10000, 2 ^ 40), (sysLocal, 64), (capOf 0 0xDE 44 0 256, 64)], let t := (asking 0x203 [c.1, {}, Val.ofNat c.2]).thread 0; hasSys (t.reg 5) = true ∧
      (Config.damaskBytes < (t.reg 7).nat ∨ capLoc (t.reg 5) = true ∨ may (t.reg 5) permR (t.reg 7).nat = false)) ∧
    (let s := asking 0x203 [allCap 0x10000, {}, Val.ofNat 64]; let t := s.thread 0; hasSys (t.reg 5) = true ∧ (t.reg 7).nat ≤ Config.damaskBytes ∧ capLoc (t.reg 5) = false) ∧
    (∃ a, nonceOf (allCap 0x10000) [] = .error a) ∧ ∃ x, nonceOf (allCap 0x10000) [failed (anAnswer 0x10000 64 0 [])] = .ok (x, none) := by
  have ok : ∀ {x : Except (Option Ask) (State × Option (List (BitVec 8)))} {o : Option (List (BitVec 8))}, (match x with | .ok y => decide (y.2 = o) | .error _ => false) = true → ∃ s, x = .ok (s, o) := by
    intro x o h; split at h
    · simp at h; subst h; exact ⟨_, rfl⟩
    · cases h
  refine ⟨by decide +kernel, by decide +kernel, by decide +kernel, by decide +kernel, by decide +kernel, by decide +kernel, by decide +kernel, by decide +kernel, by decide +kernel, by decide +kernel, by decide +kernel, ok (by decide +kernel), exists_error (by decide +kernel), ?_,
    ok (by decide +kernel), exists_error (by decide +kernel), fun p h => exists_ok (by revert p; decide +kernel), by decide +kernel, by decide +kernel, by decide +kernel, exists_error (by decide +kernel), ok (by decide +kernel)⟩
  obtain ⟨x, h⟩ := ok (x := nonceOf (allCap 0x10000) [anAnswer 0x10000 64 0 []]) (o := some (List.replicate 64 0)) (by decide +kernel)
  exact ⟨x, _, h⟩

def trigger (act : Nat) : W64 := BitVec.ofNat 64 (2 ^ 63 + act * 2 ^ 61 + 2 ^ 58 + 5)
def armed (l : List Nat) : Bolt := { live := true, trig := (List.range l.length).map (fun k => (k, trigger (l.getD k 0))) }
def ofBolt (b : Bolt) : State := (world runner).setBolt 1 b

theorem w_DebugAndErrors :
    -- a value that a trigger matches, and one that none does
    (∀ l ∈ [[2], [3], [0], [0, 1, 2, 3]], (armed l).live = true ∧ ∃ a, a < 4 ∧ ∃ j, j < 4 ∧ hit (Map.get (armed l).trig j 0) 1 5 = true ∧ bits (Map.get (armed l).trig j 0).toNat 62 61 = a) ∧
    (∀ j, j < 4 → hit (Map.get (armed [2]).trig j 0) 1 6 = false) ∧
    (let b : Bolt := { live := true, stopDue := true, trctl := 0x2000000000000000 }; Rising (ofBolt b).threads ∧ b.trctl.getLsbD 61 = true ∧ b.pressed = false ∧ ({ live := true } : Bolt).stopDue = false) ∧
    -- a watchdog at its limit and below it, one that has fired, one that is not armed
    (∀ n ∈ [102400, 102399], let b : Bolt := { live := true, wdog := 0x8000000000000001, wcount := n }; b.wdog.getLsbD 63 = true ∧ b.wfired = false ∧ (bits b.wdog.toNat 31 0 * 102400 ≤ b.wcount ↔ n = 102400)) ∧
    ({ live := true, wdog := 0x8000000000000001, wfired := true } : Bolt).wfired = true ∧ ({ live := true } : Bolt).wdog.getLsbD 63 = false ∧
    (let s := world runner; 0 < Config.localBytes ∧ (s.cluster 0).owner = .bolt 1 ∧ (s.bolt 1).live = true ∧ (s.cluster 1).owner = .free ∧ ((s.thread 0).bolt = 1 ∧ (s.thread 8191).bolt = 0) ∧
      (s.bolt 0).live = false ∧ 0 ∈ (s.bolt 1).slices) ∧
    (let s := (world runner).setBolt 1 { live := true, slices := [1], oldSlices := [0] }; (s.bolt 1).live = true ∧ 0 ∈ (s.bolt 1).slices ++ (s.bolt 1).oldSlices ∧ 127 ∉ (s.bolt 1).slices ++ (s.bolt 1).oldSlices) ∧
    -- a packet of each kind whose CRC has failed once, and twice, of a live bolt and of one that is over; no such packet
    (∀ n ∈ [1, 2], ∀ s ∈ [{ awaited aReply none with crcFails := [(0, n)] }, { world runner with storeFaults := [aFault], crcFails := [(0, n)] }, { (world runner).setCluster 0 { owner := .bolt 1, ni := [aLoad] } with crcFails := [(0, n)] }],
      packetBolt s 0 = some 1 ∧ packetBolt s 1 = none ∧ (Map.get s.crcFails 0 0 + 1 = 3 ↔ n = 2) ∧ (s.bolt 1).live = true) ∧
    (let s := { (world runner).setCluster 0 { owner := .bolt 1, ni := [{ aLoad with bolt := 2 }] } with crcFails := [(0, 2)] }; packetBolt s 0 = some 2 ∧ (s.bolt 2).live = false) ∧
    (let s := awaited aReply none; (∀ y ∈ s.replies, ∀ z ∈ s.replies, y.no = z.no → y = z) ∧ aReply ∈ s.replies ∧ aReply.no = 0) := by
  unfold Rising; and_intros <;> decide +kernel

def granting (g : Grant) : State := { paged runner with grants := [(3, g)], gtime := 200000 }
def aGrant : Grant := { bolt := 1, base := 0x10000, len := 64 }
def importing (r : List Req) : State := { (world runner).setBolt 1 { live := true, imports := [(2, { bound := true })] } with clusters := [(0, { owner := .bolt 1, ni := r })] }
def fabricReq : Req := { aLoad with va := 0xE020000000000 }

/-- A flit of a type, START, SEQ `n` and a payload, with the CRC of its bits: the fields of R375 in their places. -/
def flitOf (ty : Nat) (start : Bool) (n p : Nat) : BitVec 256 :=
  let f := BitVec.ofNat 256 (ty * 2 ^ 236 + start.toNat * 2 ^ 235 + n * 2 ^ 224 + p); f ||| ((crc16 f).setWidth 256 <<< 240)

theorem w_ExportedGrants :
    (∀ n ∈ [0, 1, 2, 3], Map.find (granting { aGrant with state := n }).grants 3 = some { aGrant with state := n }) ∧ Map.find (granting aGrant).grants 4 = none ∧
    -- 8 bytes at the grant's end; past its end; none; at the end of the ordinary addresses
    (let g := aGrant; g.state = 0 ∧ 56 + 8 ≤ g.len ∧ g.len < 57 + 8 ∧ (g.base + 56) % 64 + 8 ≤ 64 ∧ regionOf (g.base + 56) = .ordinary ∧ regionOf (g.base + 56 + 8 - 1) = .ordinary ∧
      regionOf 0xDFFFFFFFFFFFF = .ordinary ∧ regionOf 0xE000000000000 ≠ .ordinary) ∧
    (∀ t ∈ [99999, 100000, 100001], let s := granting { aGrant with state := 1, tick := t }; (t + 100000 ≤ s.gtime ↔ t ≤ 100000) ∧ (s.gtime ≤ t + 100000 ↔ 100000 ≤ t)) ∧
    (∀ l ∈ [[], [fabricReq]], let s := importing l; (Map.find (s.bolt 1).imports 2).isSome = true ∧ (onTheWay s (fun r => decide (r.bolt = 1) && decide (regionOf r.va = .fabric) && decide (bits r.va 47 40 = 2)) = true ↔ l ≠ [])) ∧
    -- a grant packet: its flit, a grant that is not there yet, a slot not bound
    (let f := flitOf 3 true 0 5; flitType f = 3 ∧ flitStart f = true ∧ due (world runner) 7 f ∧ ((world runner).bolt 1).live = true ∧ Map.find (world runner).grants 3 = none ∧
      (Map.get ((world runner).bolt 1).imports 255 {}).bound = false) := by
  unfold due; and_intros <;> decide +kernel

theorem w_BootSteps (good bad : List (BitVec 8)) (h : Config.verifies good = true) (h' : Config.verifies bad = false) :
    (Config.verifies good = true ∧ Config.verifies bad = false) ∧
    (∀ x ∈ [Stage.hypervisor, .discovery], let s : State := { State.reset with boot := .recovery, bootFailed := some x }; s.boot = .recovery ∧ s.bootFailed = some x) ∧ State.reset.boot ≠ .recovery ∧
    (∀ l ∈ [[], [(1, { aLaunch with bolt := 0 })]], let s : State := { State.reset with boot := .discovery, launches := l }; s.boot = .discovery ∧ ((∃ p ∈ s.launches, p.2.bolt = 0) ↔ l ≠ [])) ∧
    (∀ w ∈ [Wait.none, .idle], let s : State := { State.reset with boot := .selfTest, threads := [(0, { runner with wait := w })] }; s.boot = .selfTest ∧
      ((∃ p ∈ s.threads, p.1 < 8192 ∧ p.2.occ ≠ .empty ∧ p.2.occ ≠ .stopped ∧ p.2.wait ≠ .idle) ↔ w = .none)) ∧
    State.reset.boot ≠ .discovery ∧ State.reset.boot ≠ .selfTest := by
  refine ⟨⟨h, h'⟩, ?_⟩; and_intros <;> decide +kernel

/-- Core 1 in the boot state with a word on its west side. -/
def routing (w : W64) (r : Router) : State := { State.reset with boot := .discovery, cores := [(1, { ports := [(3, [w])], router := r })] }
def placed1 : Router := { coord := true, x := 1, y := 0, w := 32, hgt := 32, parent := 3 }

theorem w_BootRouters : (1024 < 2048 ∧ 1024 % 1024 = 0) ∧
    (∀ c ∈ [(0x10000000000F8001, {}), (0x2000000000000000, placed1), (0x4000000000000000, placed1), (0x3000000100000000, placed1), (0x3000080000000000, placed1), (5, { placed1 with img := some (3, 2, 0) }),
        (5, { placed1 with img := some (3, 1, 0) }), (0x1000000000000000, placed1), (0x2000000000000000, {}), (0x4000000000000000, {}), (0, {}), (0x5000000000000000, {})],
      let s := routing (BitVec.ofNat 64 c.1) c.2; served s 1 3 (BitVec.ofNat 64 c.1) [] ∧ (s.core 1).router = c.2 ∧ s.fused.contains 1 = false ∧ Memory.wf (s.cluster 0).mem.cells = true) ∧
    (∀ c ∈ [(1, 1), (1, 2048)], let w := BitVec.ofNat 64 (3 * 2 ^ 60 + c.2 * 2 ^ 32); bits w.toNat 63 60 = 3 ∧ 1 ≤ bits w.toNat 47 32 ∧ bits w.toNat 47 32 ≤ 2048) ∧
    (let s := routing 0 { placed1 with holder := some 7 }; let r := (s.core 1).router; r.holder = some 7 ∧ neighbour 1 r.parent = some 0 ∧ 0 < portFree s 0 (opposite r.parent)) := by
  unfold served; decide +kernel


def linked (l : Lane) : State := { State.reset with lanes := [(7, l)] }
/-- What a press has saved of bolt 2, of a cluster, a slice and a swatch; its checkpoint, of DRAM as `m`. -/
def savedUnits : Saved := { tags := [], bolts := [(2, { live := true, clusters := [1], slices := [1], swatches := [0] })], parked := [], slices := [], launches := [], claims := [] }
def savedBolt (m : List Host.Cell) (sig : List (BitVec 8)) : Checkpoint := { digests := [(0, Config.digest (swatchBytes m 0))], sig := sig, saved := savedUnits }

/-- The signature and the bytes of reserved memory are free values, so that they verify is this witness's premise. -/
theorem w_FabricLinks (m : List Host.Cell) (sig : List (BitVec 8)) (hm : Memory.wf m = true) (hr : ∀ x ∈ Config.reservedCells savedUnits, Memory.read m x.1 = x.2)
    (h : Config.verifiesManifest (manifestBytes (savedBolt m sig).digests) sig = true) :
    (∀ f ty, (f = .memoryRequestFlit ∧ ty = 1) ∨ (f = .resendRequest ∧ ty = 6) ∨ (f = .discardedFlit ∧ ty = 0) → flitRow f ty) ∧
    -- due, with START and without; early, the lane asking already and not; again; with a bad CRC for the first time and the third, and with one more before it is sent again
    (∀ ty ∈ [0, 1, 2, 3, 4, 5, 6, 7, 15], ∀ st, flitType (flitOf ty st 0 5) = ty ∧ flitStart (flitOf ty st 0 5) = st ∧ due (linked {}) 7 (flitOf ty st 0 5)) ∧
    (∀ n ∈ [1, 127, 128, 255], let f := flitOf 1 true n 5; crc16 f = flitCrc f ∧ flitSeq f ≠ ({} : Lane).seq ∧ (128 ≤ (flitSeq f - ({} : Lane).seq).toNat ↔ 128 ≤ n)) ∧
    (({ asking := true } : Lane).asking = true ∧ ({} : Lane).asking = false ∧ ({} : Lane).outRetired = false) ∧
    (let f := flitOf 1 true 0 5 ^^^ 1; crc16 f ≠ flitCrc f ∧ flitType f = 1 ∧ flitSeq f = 0) ∧
    (∀ n ∈ [0, 2], let a := (linked { fails := [(0, n)] }).lane 7; a.retired = false ∧ a.outRetired = false ∧ (Map.get a.fails 0 0 + 1 < 3 ↔ n = 0)) ∧
    (let f := flitOf 1 true 1 5 ^^^ 1; let a := (linked { asking := true, fails := [(0, 2)] }).lane 7; crc16 f ≠ flitCrc f ∧ a.asking = true ∧ flitSeq f ≠ a.seq ∧ Map.get a.fails 0 0 + 0 < 3) ∧
    ((linked { retired := true }).lane 7).retired = true ∧
    -- a packet under way of one flit and of three; a flit asked for again, for the first time and the third
    (∀ n ∈ [1, 3], let a := (linked { joined := true, delivered := [{ type := 1, cls := 0, words := List.replicate n 5 }] }).lane 7; a.joined = true ∧ ∃ ps p, a.delivered = ps ++ [p] ∧ p.words.length = n) ∧
    (∀ n ∈ [0, 2], let x := flitOf 1 true 5 0; let a := (linked { sent := [x], asked := [(5, n)] }).lane 7; a.sent = [] ++ x :: [] ∧ a.outRetired = false ∧ flitSeq x = (flitPayload (flitOf 6 true 0 5)).setWidth 8 ∧
      (Map.get a.asked (flitSeq x).toNat 0 + 1 < 3 ↔ n = 0)) ∧
    -- the reference and another module; an exchange that is due at once, one that is due now, one that is due a tick later
    (∀ ref ∈ [true, false], let s : State := { linked {} with reference := ref }; s.reference = ref ∧ (s.lane 7).outRetired = false) ∧
    (∀ at_ ∈ [none, some 5, some 6], let s : State := { linked {} with joined := true, refLane := 7, syncAt := at_, gtime := 2 ^ 20 + 5 }; s.joined = true ∧ s.reference = false ∧ (s.lane s.refLane).outRetired = false ∧
      (s.syncAt.all (fun x => decide (x + 2 ^ 20 ≤ s.gtime)) = true ↔ at_ ≠ some 6)) ∧
    (∀ n ∈ [(1 : Int), -1, 0], let s : State := { State.reset with gtime := 1024, behindBy := n }; s.slewAt + 1024 ≤ s.gtime ∧ s.behindBy = n ∧ State.reset.gtime < State.reset.slewAt + 1024) ∧
    (State.reset.joined = false ∧ (∀ p ∈ State.reset.bolts, p.2.live = false) ∧ ({ State.reset with joined := true } : State).joined = true ∧ ∃ p ∈ (world runner).bolts, p.2.live = true) ∧
    (let s := pressed1; (∀ b ∈ [1], (s.bolt b).live = true ∧ (s.bolt b).stopped = false ∧ ∀ p ∈ s.parked, p.bolt ≠ b) ∧ Rising s.threads ∧ s.pwords = [] ∧ (∀ p ∈ s.threads, p.2.seam = none) ∧ (s.lane 0).outRetired = false ∧
      ∀ b ∈ [1], ∀ c ∈ (s.bolt b).clusters, movable s c = true ∧ ∀ p ∈ s.threads, clusterOf (coreOf p.1) = c → p.2.occ = .resident → p.2.bolt = b ∧ p.1 < 8192) ∧
    -- a checkpoint of a bolt that is over, whose signature and digests verify, with its system cores and without
    (let c := savedBolt m sig; let s : State := { world runner with checkpoints := [c] }; s.checkpoints[0]? = some c ∧ s.checkpoints[1]? = none ∧
      (Config.verifiesManifest (manifestBytes c.digests) c.sig && c.digests.all (fun p => decide (Config.digest (swatchBytes m p.1) = p.2))) = true ∧ (∀ x ∈ Config.reservedCells c.saved, Memory.read m x.1 = x.2) ∧
      checkpointFits s c.saved [(2, 2048)] = true ∧ checkpointFits s c.saved [] = false ∧ Memory.wf m = true ∧ Memory.wf s.dram.cells = true ∧ Rising s.bolts ∧ Rising c.saved.bolts) := by
  unfold due Rising
  refine ⟨fun f ty h => ?_, ?_, ?_, ?_, ?_, ?_, ?_, ?_, fun n m => ⟨rfl, [], _, rfl, List.length_replicate⟩, ?_, ?_, ?_, ?_, ?_, ?_,
    ⟨rfl, rfl, Bool.and_eq_true_iff.mpr ⟨h, by simp [savedBolt]⟩, hr, rfl, rfl, hm, rfl, by simp [world], by simp [savedBolt, savedUnits]⟩⟩
  · unfold flitRow
    rcases h with ⟨rfl, rfl⟩ | ⟨rfl, rfl⟩ | ⟨rfl, rfl⟩ <;> simp
  all_goals decide +kernel

theorem w_ChecksInOrder :
    Ready (world runner) ∧ (world runner).t.xchg = false ∧ Ready (world inPhase1) ∧ (world inPhase1).t.xchg = true ∧
    -- a register above the allotment; a guard that holds off; a pending register; one read before its result
    (∀ r ∈ [(40 : Reg), 41], let s := world { runner with allot := 40 }; Ready s ∧ s.t.xchg = false ∧ lowest (fun r => s.t.allot ≤ r.toNat) [4, r, 41] r) ∧
    (let s := world runner; let q : Pre := { xq := true, gen := true }; ¬ Guarded q s ∧ ReadyRegs q [] [] s ∧ ∀ r ∈ [(4 : Reg), 5, 6], r.toNat < s.t.allot) ∧
    (let s := world { runner with pending := [5] }; Ready s ∧ Guarded {} s ∧ (∀ r ∈ [(4 : Reg), 5, 6], r.toNat < s.t.allot) ∧ ∃ r ∈ [(4 : Reg), 5, 6], r.toNat ∈ s.t.pending) ∧
    (let s := world { runner with check := true, due := [{ what := 6, cnt := 3, cyc := 3 }, { what := 5, cnt := 3, cyc := 3 }, { what := 4, cnt := 1, cyc := 1 }] }; Ready s ∧ Guarded {} s ∧
      (∀ r ∈ [(4 : Reg), 5, 6], r.toNat < s.t.allot ∧ r.toNat ∉ s.t.pending) ∧ s.t.check = true ∧ lowest (early {} s) [4, 5, 6] 5) ∧
    (Ready (world user) ∧ (world user).t.xchg = false ∧ (world user).t.mode = false) ∧ ((world runner).t.seamed = false ∧ (5 : Reg).toNat % 4 ≠ 0) ∧ (2048 ≤ 2048 ∧ 256 ≤ 256 ∧ 128 ≤ 128 ∧ 385 ≤ 385 ∧ 4096 ≤ 4096) := by
  dsimp only [Ready, Guarded, lowest, early]
  refine ⟨?_, ?_, ?_, ?_, ?_, ⟨?_, ⟨fun r m => (nomatch m), fun c => absurd c (by decide +kernel)⟩, ?_⟩, ?_, ?_, ?_, ?_⟩ <;> decide +kernel

/-- A thread at 0x10000 whose page holds ADDI g5, 3. -/
def atAddi : State := { paged { runner with pc := 0x10000, ecap := allCap 0x10000 } with dram := { cells := [(0x10000, 0x43), (0x10001, 0x29)] } }
def planned (s : State) : State := { s with sched := [.core 0] }




def nextOf (x : Step) : State := match x with | .next u => u | _ => State.reset
def isNext (x : Step) : Bool := match x with | .next _ => true | _ => false
theorem next_of {x : Step} (h : isNext x = true) : x = .next (nextOf x) := by cases x <;> simp_all [isNext, nextOf]
def fetched (s : State) : State × Instr := match fetch s with | .ok p => p | .error _ => (s, .addi {} 0 0)
theorem fetched_of {s : State} (h : isOk (fetch s) = true) : fetch s = .ok ((fetched s).1, (fetched s).2) := by unfold fetched; cases h' : fetch s <;> simp_all [isOk]

theorem addi_fetched : fetch atAddi = .ok ((fetched atAddi).1, (fetched atAddi).2) := fetched_of (by decide +kernel)
theorem addi_runs : let r := exec (fetched atAddi).2 (fetched atAddi).1; r = .next (nextOf r) ∧ ((nextOf r).thread 0).seam = none := ⟨next_of (by decide +kernel), by decide +kernel⟩

/-- What the thread does in its turn, what its core does, at once and at the time of a step. -/
def tried (s : State) : State := nextOf (attempt 0 s)
def due1 (s : State) : State := { passTime s with sched := [] }

/-- A thread whose turn comes next, and a second one of its core. -/
def stalled : State := { atAddi with threads := [(0, { runner with pc := 0x10000, ecap := allCap 0x10000, pending := [5] })] }
def twoReady : State := { atAddi with threads := [(0, { runner with pc := 0x10000, ecap := allCap 0x10000 }), (1, { runner with pc := 0x10000, ecap := allCap 0x10000 })] }

theorem w_StepRuns :
    (let s := atAddi; isSystem s.curCore = false ∧ decode [0x2943] = .ok (.addi {} 5 3, []) ∧ derefCheck 0 true s.t.ecap (!capLoc s.t.ecap && !capDam s.t.ecap) [permX] s.t.pc.toNat 2 = .ok () ∧
      ∃ s1, fetchParcel s s.t.bolt s.curCore s.t.pc.toNat = .ok (s1, 0x2943)) ∧
    -- a thread whose instruction can be fetched, and one whose cannot
    (∀ s ∈ [atAddi, world runner], follows (s.thread 0) = false ∧ (s.thread 0).late = [] ∧ (s.thread 0).acqDue = false ∧ (∀ sc, (s.thread 0).wait ≠ .streamRelease sc)) ∧
    (∃ s2 i u, fetch atAddi = .ok (s2, i) ∧ exec i s2 = .next u ∧ (u.thread 0).seam = none) ∧ (∃ x, fetch (world runner) = .error x) ∧
    -- a core with one thread that issues, one that only waits, none, two
    (candidates atAddi 0 = [0] ∧ attempt 0 atAddi = .next (tried atAddi) ∧ (issuedAt atAddi 0 (.next (tried atAddi))).isSome = true) ∧
    (candidates stalled 0 = [0] ∧ attempt 0 stalled = .next (tried stalled) ∧ issuedAt stalled 0 (.next (tried stalled)) = none) ∧ candidates State.reset 0 = [] ∧
    (candidates twoReady 0 = [0, 1] ∧ ∀ x ∈ candidates twoReady 0, (issuedAt twoReady 0 (attempt x twoReady)).isSome = true) ∧
    -- a step: the plan's core, the next core, a member's forwarded instruction, the plan's event
    (let s := planned atAddi; s.forward = none ∧ stopDueBolt (passTime s) = none ∧ s.sched = [.core 0] ∧ ∃ u, coreStep 0 (due1 s) = .next u) ∧
    (let s := atAddi; s.forward = none ∧ stopDueBolt (passTime s) = none ∧ s.sched = [] ∧ eventStep (passTime s) = none ∧ nextCore (passTime s) = some 0 ∧ ∃ u, coreStep 0 (passTime s) = .next u) ∧
    (let s := { seamOf (headOf twoForwarded) [(4, memberAt 1 0)] with forward := some (4, 0, .addi {} 5 3, true) }; s.forward = some (4, 0, .addi {} 5 3, true) ∧
      (let s1 := { passTime s with cur := 4 }; s1.t.acqDue = false ∧ (∀ sc, s1.t.wait ≠ .streamRelease sc) ∧ ∃ u, exec (.addi {} 5 3) (atIndex s1 4 0) = .next u)) ∧
    (let s := { world runner with sched := [.event (.watchdog 1)] }; s.forward = none ∧ stopDueBolt (passTime s) = none ∧ encode (.watchdog 1) = [] ∧ ∃ u, exec (.watchdog 1) (due1 s) = .next u) := by
  refine ⟨⟨by decide +kernel, rfl, ok_of (by decide +kernel), ?_⟩, fun s h => ⟨?_, ?_, ?_, fun sc => ?_⟩, ⟨(fetched atAddi).1, (fetched atAddi).2, _, addi_fetched, addi_runs⟩,
    exists_error (by decide +kernel), ⟨by decide +kernel, next_of (by decide +kernel), by decide +kernel⟩, ⟨by decide +kernel, next_of (by decide +kernel), by decide +kernel⟩, by decide +kernel, by decide +kernel,
    ⟨by decide +kernel, by decide +kernel, rfl, _, next_of (by decide +kernel)⟩, ⟨by decide +kernel, by decide +kernel, rfl, by decide +kernel, by decide +kernel, _, next_of (by decide +kernel)⟩,
    ⟨rfl, ⟨by decide +kernel, ⟨(fun sc h => nomatch h), ⟨_, next_of (by decide +kernel)⟩⟩⟩⟩, ⟨rfl, by decide +kernel, by decide +kernel, _, next_of (by decide +kernel)⟩⟩
  · obtain ⟨p, h⟩ := exists_ok (x := fetchParcel atAddi atAddi.t.bolt atAddi.curCore atAddi.t.pc.toNat) (by decide +kernel)
    have e : p.2 = 0x2943 := by
      have : (match fetchParcel atAddi atAddi.t.bolt atAddi.curCore atAddi.t.pc.toNat with | .ok p => p.2 | .error _ => 0) = 0x2943 := by decide +kernel
      rwa [h] at this
    exact ⟨p.1, by rw [h, ← e]⟩
  all_goals (simp only [List.mem_cons, List.not_mem_nil, or_false] at h; rcases h with rfl | rfl <;> first | rfl | exact fun h => nomatch h)

theorem w_RoundTrip : (Instr.addi plain 5 3).wellFormed = true ∧ (Instr.watchdog 1).isEvent = true := by decide +kernel

theorem w_DramInvariant : DramForm atAddi ∧ ∃ t, step (planned atAddi) = .next t := by
  unfold DramForm; exact ⟨by decide +kernel, _, next_of (by decide +kernel)⟩

theorem w_StoresInvariant : StoreForm (planned atAddi) ∧ UnitForm (planned atAddi) ∧ ∃ t, step (planned atAddi) = .next t := by
  have h1 : ∀ p ∈ (planned atAddi).bolts, p.2.template = none := by decide +kernel
  have h2 : ∀ p ∈ (planned atAddi).bolts, p.2.newSlices = none := by decide +kernel
  have h3 : ∀ p ∈ (planned atAddi).bolts, (∀ c ∈ p.2.clusters, c < 256) ∧ ∀ h ∈ p.2.slices, h < 128 := by decide +kernel
  have h4 : ∀ p ∈ (planned atAddi).clusters, ClusterForm p.2 := by unfold ClusterForm; decide +kernel
  have h5 : ∀ p ∈ (planned atAddi).slices, p.2.ways = [] := by decide +kernel
  unfold StoreForm UnitForm Rising
  refine ⟨⟨h4, by decide +kernel, fun p h m n e => ?_, (fun _ h => nomatch h), fun _ h => nomatch h⟩, ⟨by decide +kernel, by decide +kernel, by decide +kernel, by decide +kernel, by decide +kernel, fun p h => by rw [h5 p h]; trivial,
    fun p h => ⟨(h3 p h).1, (h3 p h).2, fun l e => ?_⟩, fun _ h => nomatch h⟩, _, next_of (by decide +kernel)⟩
  · rw [h1 p h] at e; cases e
  · rw [h2 p h] at e; cases e

/-! ## Witnesses: the further clauses of these statements -/

theorem w_CapabilityFaults :
    -- CSETB and CPERM with the operand in a register: untagged, malformed, and past 2^64
    (Executes {} [4, 6, 5] [] (world runner) ∧ ((world runner).t.reg 4).tag = false) ∧
    (let s := world (withRegs [(3, badCap)]); Executes {} [3, 6, 5] [] s ∧ (s.t.reg 3).tag = true ∧ 45 ≤ capE (s.t.reg 3)) ∧
    (let s := world (withRegs [(6, Val.ofW 0xFFFFFFFFFFFF0001)]); Executes {} [3, 6, 5] [] s ∧ (s.t.reg 3).tag = true ∧ capE (s.t.reg 3) ≤ 44 ∧ 2 ^ 64 < (valOf s 3).toNat + (valOf s 6).toNat) :=
  ⟨⟨executes_of _ (by decide +kernel), by decide +kernel⟩, ⟨executes_of _ (by decide +kernel), by decide +kernel⟩, ⟨executes_of _ (by decide +kernel), by decide +kernel⟩⟩

def aRing : Ring := { seq := sq 7, tid := 0, slot := 3, pc := 0x1002, page := 15, major := 63, m := 3, fault := true }
/-- Core 0 with a ring entry of number 7 and a target in CPRI. -/
def target (n : Nat) (t : Thread) : State := (world t).setCore 0 { live := true, ring := [aRing], cpri := BitVec.ofNat 16 n }

theorem w_RingTargets :
    ringOf (target 0 runner).c 7 = some aRing ∧ ringOf (target 0 runner).c 255 = none ∧ (aRing.slot < 4 ∧ aRing.page < 16 ∧ aRing.major < 64 ∧ aRing.m < 4) ∧
    (∀ n ∈ [0xFF, 0x300, 0x7FF, 0x810, 0xFFF, 0x1100, 0x1FFF, 0x2400, 0x2FFF, 0x3003, 0x3FFF, 0x4003, 0x4FFF, 0x5006], n < 0x100 ∨ (0x2FF < n ∧ n < 0x800) ∨ (0x80F < n ∧ n < 0x1000) ∨ (0x10FF < n ∧ n < 0x2000) ∨
      (0x23FF < n ∧ n < 0x3000) ∨ (0x3002 < n ∧ n < 0x4000) ∨ (0x4002 < n ∧ n < 0x5000) ∨ 0x5005 < n) ∧
    -- a write in user mode to a target with a rule of its own; one that is ignored; each in supervisor mode
    (∀ n ∈ [0x800, 0x80F, 0x2000, 0x23FF, 0x3000, 0x3002, 0x5000, 0x5005], let s := target n user; Executes {} [5] [] s ∧ s.t.mode = false ∧ s.c.cpri.toNat = n) ∧
    (∀ n ∈ [0, 0x7FF, 0x810, 0xFFF, 0x1100, 0x1FFF, 0x2400, 0x2FFF, 0x3003, 0x4000, 0x4FFF, 0x5006], ∀ t ∈ [user, runner], let s := target n t; Executes {} [5] [] s ∧ s.c.cpri.toNat = n) ∧
    (∀ n ∈ [0x3000, 0x3001, 0x3002, 0x5001, 0x5004, 0x800, 0x80F], let s := target n runner; Executes {} [5] [] s ∧ s.t.mode = true ∧ s.c.cpri.toNat = n ∧ s.cl.lq = [] ∧ s.cl.gq = [] ∧
      ∀ c ∈ liveCores s s.curCluster, ∀ r ∈ (s.core c).mq, r.windowed = false) := by
  refine ⟨by decide +kernel, by decide +kernel, by decide +kernel, by decide +kernel, fun n h => ⟨executes_of _ (by revert n; decide +kernel), by revert n; decide +kernel⟩,
    fun n h t ht => ⟨executes_of _ (by revert n t; decide +kernel), by revert n t; decide +kernel⟩, fun n h => ⟨executes_of _ (by revert n; decide +kernel), by revert n; decide +kernel⟩⟩

/-- BIND's group in g4: elements of width code `w` from offset `o`, with a stride. -/
def bindGroup (v : Val) (st n g : Nat) : State := world (withRegs [(4, v), (5, Val.ofNat st), (6, Val.ofNat n), (7, Val.ofNat g)])
/-- Core 7, whose neighbour to the east lies in another cluster, and a fused core's neighbour. -/
def atSeven : State := { world runner with threads := [(28, runner)], cur := 28 }
def heldSide : State := { world runner with threads := [(0, runner), (1, bound 8 (.port true 1))] }

theorem w_BindingFaults :
    (∀ g ∈ [6, 7], let s := bindGroup (winCap 0) 4 8 g; Runs {} [4, 5, 6, 7, 8] [] s ∧ Unbound [4, 5, 6, 7] s ∧ 6 ≤ (valOf s 7).toNat % 8) ∧
    (∀ c ∈ [(damCap 0, 3), (allCap 0, 0)], let s := bindGroup c.1 4 8 c.2; Runs {} [4, 5, 6, 7, 8] [] s ∧ Unbound [4, 5, 6, 7] s ∧ (valOf s 7).toNat % 8 < 6 ∧
      (capDam (s.t.reg 4) = true ∨ ((valOf s 7).toNat % 8 = 0 ∧ capLoc (s.t.reg 4) = false)) ∧ (s.t.reg 4).tag = true) ∧
    -- the first element fails; the second
    (∀ c ∈ [(winCap 65534, 4), (winCap 0, 65534)], let s := bindGroup c.1 c.2 8 3; Runs {} [4, 5, 6, 7, 8] [] s ∧ Unbound [4, 5, 6, 7] s ∧ (valOf s 7).toNat % 8 < 6 ∧ capDam (s.t.reg 4) = false ∧
      (valOf s 6).toNat % 2 ^ 32 = 8 ∧ ∃ k, k < 8 ∧ (∀ j, j < k → elementCheck s 4 (s.t.reg 4) ((valOf s 5).toInt) 3 false j = .ok ()) ∧ ∃ x, elementCheck s 4 (s.t.reg 4) ((valOf s 5).toInt) 3 false k = .error x) ∧
    -- BINDP towards a fused core, towards a cluster not permitted, to a side that is held
    (let s := { world runner with fused := [1] }; Runs {} [9] [] s ∧ neighbour s.curCore 1 = some 1 ∧ 1 ∈ s.fused) ∧
    (Runs {} [9] [] atSeven ∧ neighbour atSeven.curCore 1 = some 8 ∧ clusterOf 8 ≠ atSeven.curCluster ∧ clusterOf 8 ∉ atSeven.cl.permt) ∧
    (let s := heldSide; Runs {} [9] [] s ∧ neighbour s.curCore 1 = some 1 ∧ 1 ∉ s.fused ∧ clusterOf 1 = s.curCluster ∧ ∃ j ∈ residents s s.curCore, holdsPort (s.thread j) (if j = s.cur then some (9 : Reg).toNat else none) true 1 = true) := by
  refine ⟨fun g h => ⟨runs_of _ (by revert g; decide +kernel), unbound_of (by revert g; decide +kernel), by revert g; decide +kernel⟩,
    fun c h => ⟨runs_of _ (by revert c; decide +kernel), unbound_of (by revert c; decide +kernel), by revert c; decide +kernel⟩,
    fun c h => ⟨runs_of _ (by revert c; decide +kernel), unbound_of (by revert c; decide +kernel), by revert c; decide +kernel, by revert c; decide +kernel, by revert c; decide +kernel, ?_⟩,
    ⟨runs_of _ (by decide +kernel), by decide +kernel⟩, ⟨runs_of _ (by decide +kernel), by decide +kernel⟩, ⟨runs_of _ (by decide +kernel), by decide +kernel⟩⟩
  simp only [List.mem_cons, List.not_mem_nil, or_false] at h
  rcases h with rfl | rfl
  · exact ⟨0, by omega, fun j h => by omega, exists_error (by decide +kernel)⟩
  · exact ⟨1, by omega, fun j h => (show j = 0 by omega) ▸ ok_of (by decide +kernel), exists_error (by decide +kernel)⟩

/-- A stream on g8 of 32-bit elements, its answers, an element of local memory refused. -/
def elements (w : Bool) (cap : Val) (pol : BitVec 32) (t : Thread) (l : List Pull) : State :=
  answers (threadKey 0 8) l (world { t with binds := [(8, .stream w cap 4 8 3 false pol 0 [])] })
/-- The kinds of answer to a read. -/
def answered (x : Except (Option Ask) (State × Pull)) : Option Bool := match x with | .ok (_, p) => some p.fault.isSome | .error _ => none

theorem w_StreamElements :
    (∀ w, Map.find (elements w (winCap 0) 0 runner []).t.binds (8 : Reg).toNat = some (.stream w (winCap 0) 4 8 3 false 0 0 [])) ∧ capLoc (winCap 0) = true ∧ capLoc (allCap 0x10000) = false ∧ (elementAt (winCap 0) 4 3 0).1 = 0 ∧
    (∀ w, checkWindow (elements w (winCap 0) 0 runner []) 0 0 4 (!w) w = .ok ()) ∧ (∀ w, ∃ x, checkWindow (guardedPages (elements w (winCap 0) 0 runner [])) 0 0 4 (!w) w = .error x) ∧
    (let s := elements false (winCap 0) 0 runner []; (∀ x ∈ s.cl.lq, x.tid = s.cur → x.store = false) ∧ windowOut s s.cur = false) ∧
    -- an element of global memory: asked for, come, failed
    (∀ c ∈ [([], none), ([anAnswer 0x10000 4 0 [7]], some false), ([failed (anAnswer 0x10000 4 0 [])], some true)], let s := elements false (allCap 0x10000) 0 runner c.1
      answered (pull s (threadKey s.cur (8 : Reg).toNat) 0 (threadWho s s.cur 0) s.cur (elementAt (allCap 0x10000) 4 3 0).1 4 none false) = c.2) ∧
    (0xFF < 2 ^ widthBits 1 ∧ 2 ^ 64 - 1 < 2 ^ widthBits 4) ∧
    -- a write past the count; to global memory with a release to come, made, and without one
    Map.find (bound 8 (.stream true (winCap 0) 4 8 3 false 0 8 [])).binds (8 : Reg).toNat = some (.stream true (winCap 0) 4 8 3 false 0 8 []) ∧
    (∀ c ∈ [(0, false), (0x20000000, false), (0x20000000, true)], let p := BitVec.ofNat 32 c.1; let s := elements true (allCap 0x10000) p { runner with relOk := c.2 } []
      afterLocal s 0x10000 4 = .ok () ∧ sendRoom s 2 true = .ok () ∧ (polReleases p = true ↔ c.1 ≠ 0) ∧ s.t.relOk = c.2) := by
  refine ⟨by decide +kernel, by decide +kernel, by decide +kernel, by decide +kernel, fun w => ok_of (by revert w; decide +kernel), fun w => exists_error (by revert w; decide +kernel), by decide +kernel, by decide +kernel, by decide +kernel, by decide +kernel,
    fun c h => ⟨ok_of (by revert c; decide +kernel), ok_of (by revert c; decide +kernel), by revert c; decide +kernel, by revert c; decide +kernel⟩⟩

/-- Local memory, its protection unit refusing the second page of the window. -/
def secondPage (s : State) : State := s.setCluster 0 { s.cluster 0 with lpreg := [(0, 0x8000001100000011)] }

theorem w_LocalFaults :
    (∀ v ∈ [capOf 0 0xBF 0 0x100 0x200, capOf 0 0xBF 0 0 131072], v.tag = true ∧ capLoc v = true ∧ capDam v = false ∧ bitAt (capPerm v) 0 = true ∧ bitAt (capPerm v) 1 = true ∧ capE v ≤ 44) ∧
    -- a byte below the base, one above the top, one past the window, the last byte of a page that is refused and the first
    (let b := capBounds (capOf 0 0xBF 0 0x100 0x200); ((0xFF : Nat) : Int) < b.base ∧ b.base ≤ ((0x1FD : Nat) : Int) ∧ b.top < ((0x1FD + 4 : Nat) : Int)) ∧
    (let b := capBounds (capOf 0 0xBF 0 0 131072); b.base ≤ ((65533 : Nat) : Int) ∧ ((65533 + 4 : Nat) : Int) ≤ b.top ∧ (windowOf (world runner) 0).2.1 < 65533 + 4) ∧
    (let s := secondPage (world runner); let w := windowOf s 0; let refused := fun (a : Nat) => puRefuses (s.cluster (clusterOf (coreOf 0))) (s.thread 0).mode true false (a / 4096)
      0xFFE + 4 ≤ w.2.1 ∧ refused (w.1 + 0x1000) = true ∧ (∀ y, y < 0x1000 → 0xFFE ≤ y → refused (w.1 + y) = false)) := by
  refine ⟨by decide +kernel, by decide +kernel, by decide +kernel, by decide +kernel, by decide +kernel, fun y h h' => ?_⟩
  have : ∀ y ∈ [0xFFE, 0xFFF], puRefuses ((secondPage (world runner)).cluster (clusterOf (coreOf 0))) ((secondPage (world runner)).thread 0).mode true false (((windowOf (secondPage (world runner)) 0).1 + y) / 4096) = false := by decide +kernel
  exact this y (by simp only [List.mem_cons, List.not_mem_nil, or_false]; omega)

theorem w_GlobalFaults :
    (let v := capOf 0 0xDF 45 0 256; v.tag = true ∧ capLoc v = false ∧ capDam v = false ∧ (∀ k ∈ [permR], bitAt (capPerm v) k = true) ∧ 45 ≤ capE v) ∧
    (let v := capOf 0 0xDF 0 0x100 0x200; v.tag = true ∧ capLoc v = false ∧ capDam v = false ∧ (∀ k ∈ [permR], bitAt (capPerm v) k = true) ∧ capE v ≤ 44 ∧ let b := capBounds v
      ((0xFF : Nat) : Int) < b.base ∧ b.base ≤ ((0x1FD : Nat) : Int) ∧ b.top < ((0x1FD + 4 : Nat) : Int)) ∧
    -- the addresses that name nothing: the first of them, the last, the first past the address space
    ∀ a ∈ [0xF000400000000, 2 ^ 52 - 4, 2 ^ 52], let v := capOf 0 0xDF 44 0 257; let b := capBounds v; v.tag = true ∧ capLoc v = false ∧ capDam v = false ∧ (∀ k ∈ [permR], bitAt (capPerm v) k = true) ∧ capE v ≤ 44 ∧
      b.base ≤ ((a : Nat) : Int) ∧ ((a + 4 : Nat) : Int) ≤ b.top ∧ (2 ^ 52 ≤ a ∨ (0xF000400000000 ≤ a ∧ a < 2 ^ 52)) := by decide +kernel

/-- A bolt whose tables lead from the root by two tables to a leaf, the words at their first places; it owns swatch 12. -/
def word8 (a e : Nat) : List Host.Cell := ((List.range 8).map (fun i => (a + i, BitVec.ofNat 8 (e / 2 ^ (8 * i))))).filter (fun c => decide (c.2 ≠ 0))
def tabled (e1 e2 e3 : Nat) : State :=
  let s := (world runner).setBolt 1 { live := true, clusters := [0], slices := [0], root := 0x300000000, swatches := [12] }
  { s.setSlice 0 { owner := .bolt 1, swmask := [12] } with dram := { cells := word8 0x300000000 e1 ++ word8 0x300008000 e2 ++ word8 0x300010000 e3 } }
def mapped (leaf : Nat) : State := tabled 0x300008001 0x300010001 leaf
/-- A leaf of 64 KiB in swatch 12, readable, writable. -/
def leaf1 : Nat := 0x300020033

theorem w_Translations :
    -- an entry that is not valid, malformed, of no memory, of a swatch not owned, a leaf, a table
    (∀ c ∈ [(0, 0), (2 ^ 63 + 1, 2), (2 ^ 39 + 1, 3), (0x340008001, 4), (leaf1, 5), (0x300008001, 6)], let s := tabled c.1 0 0; let e := readEntry s (0x300000000 + 8 * bits 0 (63 - 12 * 3) (52 - 12 * 3)); let p := bits e 47 15 * 2 ^ 15
      e = c.1 ∧ (c.2 = 0 ↔ e.testBit 0 = false) ∧ (c.2 = 2 ↔ e.testBit 0 = true ∧ malformed e (if c.2 = 5 then 3 else 2) = true) ∧ (noMemory p = true ↔ c.2 = 3) ∧ (c.2 ≠ 0 → c.2 ≠ 2 → c.2 ≠ 3 → (bits p 38 30 ∉ [12] ↔ c.2 = 4))) ∧
    (leaf1 < 2 ^ 64 ∧ leaf1.testBit 0 = true) ∧
    -- a leaf that the cache holds; a walk that fails, one whose leaf refuses, one that another's claim refuses, one that is claimed
    (((paged runner).slice 0).xlat.find? (fun x => decide (x.bolt = 1) && decide (x.page ≤ 0x10000 / 2 ^ 16) && decide (0x10000 / 2 ^ 16 < x.page + x.pages)) = some { bolt := 1, page := 1, pages := 1, leaf := 0x100F3 }) ∧
    (∀ s ∈ [tabled 0 0 0, mapped leaf1, { mapped leaf1 with claims := [(0x30002, (7, 2))] }], (s.slice 0).xlat = []) ∧
    (∃ tv, walkLevels (tabled 0 0 0) [12] 0 [1, 2, 3] 0x300000000 = .error tv) ∧ (∀ s ∈ [mapped leaf1, { mapped leaf1 with claims := [(0x30002, (7, 2))] }], walkLevels s [12] 0 [1, 2, 3] 0x300000000 = .ok (leaf1, 3)) ∧
    (permits leaf1 .fetch = false ∧ permits leaf1 .rd = true) ∧ claim { mapped leaf1 with claims := [(0x30002, (7, 2))] } 1 leaf1 0 = none ∧ (claim (mapped leaf1) 1 leaf1 0).isSome = true ∧
    -- claims: of the same frame, of a larger one, of a smaller one within
    (bits leaf1 3 2 = 0 ∧ bits (leaf1 + 4) 3 2 = 1 ∧ ∀ c ∈ [(2 ^ 40 + 0x300020000 / 2 ^ 21, 0), (2 * 2 ^ 40 + 12, 0), (0x30002, 1)], let k := c.2; let f := 0x30002
      let size := fun (c : Nat) => if c = 0 then 1 else if c = 1 then 2 ^ 5 else 2 ^ 14
      (∃ x, x ≤ 2 ∧ k < x ∧ c.1 = x * 2 ^ 40 + f / size x) ∨ ∃ x, x < k ∧ c.1 / 2 ^ 40 = x ∧ c.1 % 2 ^ 40 * size x / size k = f / size k) := by
  refine ⟨by decide +kernel, by decide +kernel, by decide +kernel, by decide +kernel, exists_error (by decide +kernel), fun s h => val_of (by revert s; decide +kernel), by decide +kernel, by decide +kernel, by decide +kernel, by decide +kernel, by decide +kernel, ?_⟩
  intro c h
  simp only [List.mem_cons, List.not_mem_nil, or_false] at h
  rcases h with rfl | rfl | rfl
  · exact Or.inl ⟨1, by decide +kernel⟩
  · exact Or.inl ⟨2, by decide +kernel⟩
  · exact Or.inr ⟨0, by decide +kernel⟩

/-- The world seen from a core of another cluster, 1, with and without a PERMT bit. -/
def fromAfar (p : Bool) : State := (world runner).setCluster 1 { owner := .bolt 1, permt := if p then [0] else [] }
def away : Who := { bolt := 1, cluster := 1, core := 8, mode := true, requester := 8, pol := 0, cls := 1 }

theorem w_WindowParts :
    (let s := world runner; s.blocks.find? (fun p => decide (p.2.bolt = 1) && decide (p.2.window = bits 0xF0003FFE00000 33 21) && decide (p.2.live > 0)) = none) ∧
    (∀ p, let s := fromAfar p; ∃ b, s.blocks.find? (fun p => decide (p.2.bolt = 1) && decide (p.2.window = bits 0xF000000000FFE 33 21) && decide (p.2.live > 0)) = some (1, b) ∧ (b.cluster ≠ 1 ∧ (b.cluster ∉ (s.cluster 1).permt ↔ p = false)) ∧
      -- past the window's end, and within it
      b.ws < 65533 + 4 ∧ bits 0xF000000000FFE 20 0 + 4 ≤ b.ws) ∧
    (let s := secondPage (fromAfar true); let refused := fun (a : Nat) => puRefuses (s.cluster 0) away.mode true false (a / 4096); refused (0x10000 + 0xFFE + 2) = true ∧ ∀ y, y < 2 → refused (0x10000 + 0xFFE + y) = false) ∧
    (let s := fromAfar true; (∀ x, x < 4 → puRefuses (s.cluster 0) away.mode true false ((0x10000 + 0xFFE + x) / 4096) = false) ∧ Memory.wf (s.cluster 0).mem.cells = true) := by
  refine ⟨by decide +kernel, fun p => ⟨_, rfl, by revert p; decide +kernel⟩, by decide +kernel, by decide +kernel⟩

/-- A thread of a saved block in DSEAL whose state has been reached. -/
theorem w_DamaskSaved : ∀ k ∈ [5, 6], let t := { sealed k with occ := .pressed }; (0, t) ∈ (slice 1 t).threads ∧ clusterOf (coreOf 0) = 0 ∧ t.occ = .pressed ∧ 5 ≤ k ∧ t.wait = .damask ∧ t.stage = k := by decide +kernel

/-- 3.0 and -1.0, whose inverses and roots are rounded; 4.0, a square; 300.0 and its negative, far from 0. -/
theorem w_FunctionTable : f32.decode 0x40400000 = .fin false 0xC00000 (-22) ∧ f32.decode 0xBF800000 = .fin true 0x800000 (-23) ∧ (0xC00000 : Nat) ≠ 0 ∧
    (f32.decode 0x40800000 = .fin false 0x800000 (-21) ∧ 2 * (-11 : Int) ≤ -21 ∧ 0x800000 * 2 ^ ((-21 : Int) - 2 * (-11)).toNat = 4096 * 4096) ∧
    (∀ b ∈ [0x43960000, 0xC3960000], f32.decode b = .fin (decide (b ≠ 0x43960000)) 0x960000 (-15) ∧ 300 * (ratioOf 0x960000 (-15)).2 ≤ (ratioOf 0x960000 (-15)).1) ∧ (Fn.sig, 0x3F800000, [0x3F3B26A8, 0x3F3B26A7, 0x3F3B26A8, 0x3F3B26A7]) ∈ workedValues := by
  refine ⟨by decide +kernel, by decide +kernel, by decide +kernel, by decide +kernel, by decide +kernel, List.mem_cons_self⟩

theorem w_HcallsAndReturns :
    -- HCALL in supervisor mode, its arguments ready; TRET into an exchange phase
    (Runs {} [4, 5, 6, 7] [] (world runner) ∧ (world runner).t.mode = true ∧ quiet (world runner) 4) ∧
    (let s := world { runner with xphase := some 1, cause := 0x300, tpc := 0x1000 }; Executes {} [] [] s ∧ s.t.mode = true ∧ inFrayHandler s.t = false ∧ s.t.tpc.getLsbD 0 = false ∧ rising s.cores ∧ s.t.cause.getLsbD 9 = true ∧ s.t.xphase ≠ none) :=
  ⟨⟨runs_of _ (by decide +kernel), rfl, quiet_world 4⟩, ⟨executes_of _ (by decide +kernel), by decide +kernel, by decide +kernel, by decide +kernel, by unfold rising rising; trivial, by decide +kernel, by decide +kernel⟩⟩

theorem w_FencesWithCommands :
    -- FENCE with a command of its engine scope pending
    (let s := world { runner with cmds := [(sq 3, 5, 2)] }; Executes {} [] [] s ∧ quiet s 4 ∧ hasStoreFault s s.cur = false ∧ ∃ c ∈ s.t.cmds, c.2.2 = 2) ∧
    -- BAR left: with a record of the group to write, and with one of another group
    (∀ j ∈ [5, 6], let s := (grouped 0 2 { member with wait := .barrier 1 5 1 }).setBolt 1 { (grouped 0 2 member).b with records := [(j, 0, allCap 0x10000, [7])] }; (s.thread 0).wait = .barrier 1 5 1 ∧ (s.thread 0).occ = .resident ∧ halted s 1 0 = false ∧
      groupGen (s.bolt 1) 5 ≠ 1 ∧ barrierSettled s 1 5 (coreOf 0) = true ∧ ((s.bolt 1).records.find? (fun x => decide (x.1 = 5)) = some (5, 0, allCap 0x10000, [7]) ↔ j = 5) ∧ ((∀ x ∈ (s.bolt 1).records, x.1 ≠ 5) ↔ j = 6)) :=
  ⟨⟨executes_of _ (by decide +kernel), quiet_of (by decide +kernel), by decide +kernel, by decide +kernel⟩, by decide +kernel⟩

theorem w_MatrixRows :
    -- K = 0; an invalid scale; an FP32 product without scales
    (∀ k ∈ [1, 2], let r := aRequest k 1 0x00101; let s := onArray r 0; granted s 0 r [] ∧ (mmShape (Val.ofNat 0x00101)).m ≠ 0 ∧ (mmShape (Val.ofNat 0x00101)).n ≠ 0 ∧ (mmShape (Val.ofNat 0x00101)).k = 0 ∧
      (mmShape (Val.ofNat 0x00101)).inTile = true ∧ Map.canon 0 none (s.core 0).tile = true) ∧
    (let r := aRequest 1 1 oneByOne; let h := mmShape (Val.ofNat oneByOne); h.m = 1 ∧ h.n = 1 ∧ h.k = 1 ∧ h.blocks = 1 ∧ r.grant ≠ 3 ∧ (∀ w ∈ [0x400, 0x800, 0], granted (onArray r (BitVec.ofNat 32 w)) 0 r []) ∧
      scaleA (onArray r 0x400) 0 r 0 0 = none ∧ scaleB (onArray r 0x800) 0 r 0 0 = none ∧ scaleA (onArray r 0) 0 r 0 0 ≠ none ∧ scaleB (onArray r 0) 0 r 0 0 ≠ none ∧ ctxAcc 0 ≠ 1 ∧
      Map.canon 0 none ((onArray r 0).core 0).tile = true) ∧
    -- drains with scales, and with CLEAR
    (∀ f ∈ [2, 3, 4], ∀ c ∈ [0, 1], let g := 0x0101 + f * 2 ^ 32 + c * 2 ^ 40; let r := aRequest 3 1 g; let s := onArray r 0; granted s 0 r [] ∧ Memory.wf (s.cluster 0).mem.cells = true ∧ (drainShape (Val.ofNat g)).m = 1 ∧
      drainScaled (drainFmt (Val.ofNat g)) = true ∧ ctxAcc 0 = 0 ∧ drainAccepts (drainFmt (Val.ofNat g)) 0 = true ∧ (drainShape (Val.ofNat g)).inTile = true ∧ (drainClear (Val.ofNat g) = true ↔ c = 1) ∧ Map.canon 0 none (s.core 0).tile = true) := by
  unfold granted; and_intros <;> decide +kernel

/-- The values of 1.0, and a product of two. -/
def one_ : FV := .fin false 1 0
theorem w_BlockSums :
    (∃ v ∈ [(FV.nan false, one_)].map (fun p => (p.1.mul p.2).1), v.isNan = true) ∧
    (FV.inf true ∈ [(FV.inf true, one_), (FV.inf false, one_)].map (fun p => (p.1.mul p.2).1) ∧ FV.inf false ∈ [(FV.inf true, one_), (FV.inf false, one_)].map (fun p => (p.1.mul p.2).1)) ∧
    FV.inf false ∉ [(FV.inf true, one_)].map (fun p => (p.1.mul p.2).1) ∧
    -- finite products: exact, and cut below the 64th bit of the largest
    (let vs := [(one_, one_)].map (fun p => (p.1.mul p.2).1); (∀ v ∈ vs, v.isNan = false) ∧ fineAs (-63) vs ∧ largest (-63) 0 vs ∧ (-63 : Int) ≤ 0 - 63) ∧
    -- scales of a block: a NaN, zeros, a number
    (drainScaled 2 = true ∧ drainScaled 4 = true ∧ (f32.decode 0x7FC00000).isNan = true ∧ (∀ v ∈ [0, 0].map f32.decode, v.isNan = false ∧ v = .fin false 0 (-149)) ∧
      fineAs (-23) ([0x3F800000].map f32.decode) ∧ largest (-23) 0 ([0x3F800000].map f32.decode)) := by
  have e : [(one_, one_)].map (fun p => (p.1.mul p.2).1) = [.fin false 1 0] := by decide +kernel
  have f : [0x3F800000].map f32.decode = [.fin false 0x800000 (-23)] := by decide +kernel
  have g : ∀ (m : Nat) (e u : Int), u ≤ e → fineAs u [.fin false m e] := fun m e u h n m' e' hm => by
    simp only [List.mem_cons, List.not_mem_nil, or_false, FV.fin.injEq] at hm; omega
  unfold largest
  refine ⟨by decide +kernel, by decide +kernel, by decide +kernel, ?_, by decide +kernel, by decide +kernel, by decide +kernel, by decide +kernel, ?_, ?_⟩
  · rw [e]; exact ⟨by decide +kernel, g _ _ _ (by decide +kernel), by decide +kernel, by decide +kernel⟩
  · rw [f]; exact g _ _ _ (by decide +kernel)
  · rw [f]; decide +kernel

/-- A walk of one row from a root, with the answers to its reads; the slice refreshes no bank at this time. -/
def aWalk (root : Nat) : MReq :=
  { aRequest 7 2 0 with regs := [winCap 0, allCap 0x10000, damCap 0, Val.ofNat 0x10001, Val.ofNat (64 * 2 ^ 32), winCap 0, winCap 4096, Val.ofNat root] }
def walkingFrom (root : Nat) (l : List Pull) : State := answers (commandKey (sq 1)) l (onArray (aWalk root) 0)
def aRow (root depth : Nat) : WRow := { node := root, depth := depth, status := 0, last := 255, proc := true }
/-- The 64 bytes of an inner node that compares two scores, and of a leaf. -/
def nodeBytes (v : Nat) : List Nat := (List.range 64).map (fun i => v / 2 ^ (8 * i) % 256)
def innerNode : Nat := 2 * 2 ^ 48 + 1 * 2 ^ 32 + 2 * 2 ^ 16 + 1 * 2 ^ 8
/-- How a read of a walk ends. -/
def readEnd (x : Except WStop (State × List (BitVec 8))) : Nat := match x with | .error .bound => 0 | .error (.fault _ _ _ _) => 1 | .error (.busy _) => 2 | .ok _ => 3
theorem read_of {x : Except WStop (State × List (BitVec 8))} {n : Nat} (h : readEnd x = n) :
    (n = 0 → x = .error .bound) ∧ (n = 1 → ∃ s c tv a, x = .error (.fault s c tv a)) ∧ (n = 2 → ∃ l, x = .error (.busy l)) ∧ (n = 3 → ∃ s bs, x = .ok (s, bs)) := by
  subst h; unfold readEnd
  split <;> simp_all
  exact ⟨_, _, rfl⟩

theorem w_Levels : ∃ v, walkLevelsOf 0 (aWalk 0) 0 1 65 { s := State.reset, rows := [] } = .ok v := exists_ok (by decide +kernel)

/-- The Damask addresses that a walk cannot read, and one that it can; a global address past its tree. -/
theorem w_Visits :
    (∀ a ∈ [2 ^ 63 + 2 ^ 25, 2 ^ 63 + 0x17FFFC1, 2 ^ 52 + 2 ^ 49], outOfReach (aWalk 0) a 64) ∧
    (let s := walkingFrom 0 []; ∀ a ∈ [2 ^ 63, 2 ^ 63 + 0x17FFFC0], bitAt a 63 = true ∧ ¬ outOfReach (aWalk 0) a 64 ∧ inRefresh s 0 (bankGroup (bits a 24 0)) = false ∧ inRefresh s 0 (bankGroup (bits a 24 0 + 64 - 1)) = false) ∧
    -- a visit: misaligned, out of reach, failed, asked for, to an inner node at the last depth and the one before, to a malformed one
    (∀ i ∈ [0], i < [aRow 1 0].length) ∧ (1 % 64 ≠ 0 ∧ (2 ^ 52 + 2 ^ 49) % 64 = 0) ∧
    (∀ c ∈ [(2 ^ 52 + 2 ^ 49, [], 0), (0x10000, [failed (anAnswer 0x10000 64 0 [])], 1), (0x10000, [], 2), (0x10000, [anAnswer 0x10000 64 0 (nodeBytes innerNode)], 3)],
      readEnd (walkRead (walkingFrom c.1 c.2.1) 0 (aWalk c.1) c.1 64) = c.2.2) ∧
    (nodeMalformed 0 1 = true ∧ nodeMalformed innerNode 1 = false ∧ (nodeOf innerNode).kind = 0 ∧ ∀ i ∈ [0], ∃ x, [aRow 0x10000 64][i]? = some x ∧ 64 ≤ x.depth) ∧
    -- a leaf whose output row fits, and does not
    ((outFmt 19).isSome = true ∧ ∀ n ∈ [16, 17], (highStride ((aWalk 0).regs.getD 4 {}) < n * 4 ↔ n = 17)) ∧
    -- an inner node: no child; a child beyond 2^64, out of reach, failed, read
    (decideChild aNode [0x7FC00000, 0x7FC00000] = none ∧ decideChild aNode [0, 0] = some 0 ∧ 2 ^ 64 ≤ (2 ^ 64 - 8) + 8 * 1 ∧ (2 ^ 64 - 8) + 8 * 0 < 2 ^ 64) ∧
    (∀ c ∈ [(2 ^ 52 + 2 ^ 49, [], 0), (0x10000, [failed (anAnswer 0x10000 8 0 [])], 1), (0x10000, [anAnswer 0x10000 8 0 [5]], 3)], readEnd (walkRead (walkingFrom 0 c.2.1) 0 (aWalk 0) c.1 8) = c.2.2) := by
  unfold outOfReach
  refine ⟨by decide +kernel, by decide +kernel, by decide +kernel, by decide +kernel, by decide +kernel, ⟨by decide +kernel, by decide +kernel, by decide +kernel, fun i h => ⟨aRow 0x10000 64, by revert i; decide +kernel, by decide +kernel⟩⟩,
    by decide +kernel, by decide +kernel, by decide +kernel⟩

/-- A walk that its first visit ends, and one that asks for its first node. -/
theorem w_WalksPerformed :
    (∀ c ∈ [(1, ([] : List Pull)), (0x10000, [])], let r := aWalk c.1; let s := walkingFrom c.1 c.2; granted s 0 r [] ∧ r.kind = 7 ∧ bits (r.regs.getD 3 {}).nat 7 0 ≠ 0 ∧ ctxAcc 0 = 0 ∧ ctxSA 0 = false ∧ ctxSB 0 = false ∧ r.grant ≠ 3 ∧
      Memory.wf (s.cluster 0).mem.cells = true) ∧
    (∃ v, walkLevelsOf 0 (aWalk 1) 0 (walkK (aWalk 1)) 66 { s := matrixBanks (walkingFrom 1 []) 0 (aWalk 1), rows := walkRows ((walkingFrom 1 []).cluster 0) (aWalk 1) } = .ok v) ∧
    (∃ l, walkLevelsOf 0 (aWalk 0x10000) 0 (walkK (aWalk 0x10000)) 66 { s := matrixBanks (walkingFrom 0x10000 []) 0 (aWalk 0x10000), rows := walkRows ((walkingFrom 0x10000 []).cluster 0) (aWalk 0x10000) } = .error l) ∧
    (0 < walkM (aWalk 1) ∧ (aWalk 1).kind = 7 ∧ { aWalk 1 with kind := 8 }.kind ≠ 7) ∧
    -- WRESUME; WSTAT with the unit out of service
    (let s := world (walkRegs 0x10001 0); Commands {} 5 (eight 16) ((eight 16).take 7) s ∧ walkChecks s 16 = .ok ()) ∧ (Executes {} [6] [] (matrixOff (world runner)) ∧ (matrixOff (world runner)).cl.matrixOut = true) := by
  refine ⟨?_, exists_ok (by decide +kernel), exists_error (by decide +kernel), by decide +kernel, ⟨commands_of (by decide +kernel), ok_of (by decide +kernel)⟩, ⟨executes_of _ (by decide +kernel), by decide +kernel⟩⟩
  unfold granted; decide +kernel

/-- R372, R384: a word on side E or S that is no PROBE or header there, one with the coordinates set or unset the wrong way, counts of 0 and above 2048, and
PROBE words whose place lies on or outside the region's edge. -/
def routingAt (side : Nat) (w : W64) (r : Router) : State := { State.reset with boot := .discovery, cores := [(1, { ports := [(side, [w])], router := r })] }

theorem w_BootDiscards :
    (∀ c ∈ [(1, 0x10000000000F8001, ({} : Router)), (2, 0x10000000000F8001, {}), (1, 0x3000000100000000, placed1), (2, 0x3000080000000000, placed1), (3, 0x3000000000000000, placed1),
        (3, 0x3000080100000000, placed1), (0, 0x3000FFFF00000000, placed1), (3, 0x3000000100000000, {}), (0, 0x10000000000F8001, placed1), (3, 0xF000000000000000, {})],
      let s := routingAt c.1 (BitVec.ofNat 64 c.2.1) c.2.2
      served s 1 c.1 (BitVec.ofNat 64 c.2.1) [] ∧ (s.core 1).router = c.2.2 ∧ c.2.2.img = none ∧
        (let op := bits c.2.1 63 60; let n := bits c.2.1 47 32
         (op = 1 ∧ (c.2.2.coord = true ∨ c.1 = 1 ∨ c.1 = 2)) ∨ (op = 2 ∧ c.2.2.coord = false) ∨ (op = 4 ∧ c.2.2.coord = false) ∨ op = 0 ∨ 4 < op ∨
          (op = 3 ∧ (c.1 = 1 ∨ c.1 = 2 ∨ c.2.2.coord = false ∨ n = 0 ∨ 2048 < n)))) ∧
    -- on the edge to the east, to the south, on both; outside to the east (X = W), to the south (Y = H)
    (∀ c ∈ [(0, 0x1000000000010801, 1, 0, 2, 2), (3, 0x1000000000010820, 0, 1, 2, 2), (0, 0x1000000000010821, 1, 1, 2, 2), (3, 0x1000000000010802, 2, 0, 2, 2), (0, 0x1000000000000820, 0, 1, 2, 1)],
      let s := routingAt c.1 (BitVec.ofNat 64 c.2.1) {}; let w := (BitVec.ofNat 64 c.2.1).toNat
      served s 1 c.1 (BitVec.ofNat 64 c.2.1) [] ∧ (s.core 1).router = {} ∧ bits w 63 60 = 1 ∧ bits w 4 0 = c.2.2.1 ∧ bits w 9 5 = c.2.2.2.1 ∧ bits w 15 11 + 1 = c.2.2.2.2.1 ∧ bits w 20 16 + 1 = c.2.2.2.2.2) := by
  unfold served; decide +kernel

/-- Numbers of no cluster that stand between and beyond the channels' own ports. -/
theorem w_NoSuchChannel : (∀ n ∈ [257, 383, 385, 511, 513, 639, 641, 1000], 256 ≤ n ∧ n ∉ [256, 384, 512, 640]) ∧ 256 ≤ 256 ∧ 256 ≤ 384 := by decide

/-! The turn of a seam's follower, a core's pick, and a member named before. -/

def addFirst : Stream := { twoForwarded with fwd := [(1, .hold {} 0, false, 10), (0, .addi {} 5 3, true, 0)] }
/-- A member in thread 4, named to execute index 0, with thread 5 of its core, which runs a program of its own. -/
def named (m o : Thread) : State :=
  { seamOf (headOf addFirst) [(4, m), (5, o)] with forward := some (4, 0, .addi {} 5 3, true), slices := atAddi.slices, dram := atAddi.dram, cores := [(0, { live := true }), (1, { live := true, cycle := 7 })] }
def freed (m o : Thread) : State := { passTime (named m o) with forward := none }
def other : Thread := { runner with pc := 0x10000, ecap := allCap 0x10000 }

theorem w_StepRuns_seam :
    -- a follower that executes its next index
    (let s := seamOf (headOf addFirst) [(4, memberAt 1 0)]; follows (s.thread 4) = true ∧ (s.thread 4).seam = some (seamAt 1) ∧ forwarded s 0 0 = some (.addi {} 5 3, true, 0) ∧ (s.thread 4).acqDue = false ∧
      (s.thread 4).wait = .none ∧ ∃ u, exec (.addi {} 5 3) (atIndex { s with cur := 4, forward := some (4, 0, .addi {} 5 3, true) } 4 0) = .next u) ∧
    -- a member that may not go on, one that stalls, one that issues first
    (mayGo (freed (memberAt 1 2) other) 4 = false) ∧
    (let s := freed { memberAt 1 0 with pending := [5] } other; mayGo s 4 = true ∧ attempt 4 s = .next (nextOf (attempt 4 s)) ∧ issuedAt s 1 (attempt 4 s) = none) ∧
    (let s := freed (memberAt 1 0) other; mayGo s 4 = true ∧ candidates s 1 = [4, 5] ∧ issuedAt s 1 (attempt 4 s) = some 8 ∧ issuedAt s 1 (attempt 5 s) = some 8 ∧ passedMost s [4, 5] = none ∧
      ∃ u, attempt 4 (countShort s 1 (s.core 1).cycle 8 (some 4)) = .next u) ∧
    -- another thread of its core that is ready earlier, or overdue, or no more so than the member
    (let s := freed { memberAt 1 0 with due := [{ what := 5, cnt := 53, cyc := 53 }] } other; mayGo s 4 = true ∧ candidates s 1 = [4, 5] ∧ issuedAt s 1 (attempt 4 s) = some 53 ∧ issuedAt s 1 (attempt 5 s) = some 8) ∧
    (let s := freed (memberAt 1 0) { other with passed := 5 }; mayGo s 4 = true ∧ candidates s 1 = [4, 5] ∧ issuedAt s 1 (attempt 4 s) = some 8 ∧ issuedAt s 1 (attempt 5 s) = some 8 ∧ passedMost s [4, 5] = some 5) ∧
    (let s := freed { memberAt 1 0 with passed := 6 } { other with passed := 5 }; mayGo s 4 = true ∧ candidates s 1 = [4, 5] ∧ issuedAt s 1 (attempt 4 s) = some 8 ∧ passedMost s [4, 5] = some 4) := by
  refine ⟨⟨?_, ?_, ?_, ?_, ?_, _, next_of (by decide +kernel)⟩, ?_, ⟨?_, next_of (by decide +kernel), ?_⟩, ⟨?_, ?_, ?_, ?_, ?_, _, next_of (by decide +kernel)⟩, ?_, ?_, ?_⟩ <;> decide +kernel

/-! ## One step each, with results the reference states -/

/-- What thread 0 holds after the instruction of some words, run at once from a state. -/
def ran (ps : List Parcel) (s : State) : State := match decode ps with | .ok (i, _) => nextOf (exec i s) | .error _ => State.reset
def from_ (l : List (Nat × Nat)) : State := world { withRegs (l.map (fun p => (p.1, Val.ofNat p.2))) with check := false }
def g (s : State) (r : Nat) : Nat := ((s.thread 0).reg (BitVec.ofNat 6 r)).nat

-- R203: the 128-bit sum
theorem test_adc : let s := from_ [(4, 0xFFFFFFFFFFFFFFFF), (5, 1), (6, 1), (7, 2)]; let s1 := ran [0x011A] s; let s2 := ran [0x015E] s1
    g s1 4 = 0 ∧ s1.t.flag 7 = true ∧ g s2 5 = 4 ∧ s2.t.flag 7 = false := by decide +kernel
-- R203: division by zero, and the most negative number by -1
theorem test_div : let a := exec (.div {} 5 5 6) (from_ [(5, 7), (6, 0)]); let b := exec (.rem {} 5 5 6) (from_ [(5, 0x8000000000000000), (6, 0xFFFFFFFFFFFFFFFF)])
    g (nextOf a) 5 = 0xFFFFFFFFFFFFFFFF ∧ g (nextOf b) 5 = 0 := by decide +kernel
-- R205: BFX g5, g6, g7 of p = 8, n = 4 with sign
theorem test_bfx : g (ran [0xF407, 0x2558] (from_ [(6, 0x0C00), (7, 0x8408)])) 5 = 0xFFFFFFFFFFFFFFFC := by decide +kernel
-- R204: EXTS.i8 g5, g6
theorem test_exts : g (ran [0xF801, 0x1D5A] (from_ [(6, 0x180)])) 5 = 0xFFFFFFFFFFFFFF80 := by decide +kernel
-- R206: CMP.LT f1, g5, g6, signed
theorem test_cmp_lt : ((ran [0xF406, 0x2055] (from_ [(5, 0xFFFFFFFFFFFFFFFF), (6, 0)])).thread 0).flag 1 = true := by decide +kernel
-- R152: g0 reads zero and discards what is written
theorem test_g0 : g (nextOf (exec (.addi {} 0 5) (from_ []))) 0 = 0 := by decide +kernel
-- R209: 1/3 in FP32 to FP16, to nearest and up; inexact counted
theorem test_fcvt : let s := ran [0xF852, 0xF413, 0x1158] (from_ [(6, 0x3EAAAAAB)]); g s 5 = 0x3555 := by decide +kernel
theorem test_fcvt_up : let t := { withRegs [(6, Val.ofNat 0x3EAAAAAB)] with frm := 2 }; (t.frm.toNat = 2) ∧ g (ran [0xF852, 0xF413, 0x1158] (world t)) 5 = 0x3556 := by decide +kernel
-- R218: SCALE.f32 g5, g6, g7 of 1,024.0 by 3 × 2^−10
theorem test_scale : g (ran [0xF853, 0xF407, 0x1D58] (from_ [(6, 0x44800000), (7, 0x3B400000)])) 5 = 0x40400000 := by decide +kernel
-- R221: VSLIDE.f32.v g8, g12, g4 with g4 = 8
theorem test_vslide : let s := ran [0xF856, 0xF404, 0x2633] (from_ [(4, 8), (12, 1), (13, 2), (14, 3), (15, 0x700000005)]); g s 8 = 3 ∧ g s 9 = 0x700000005 ∧ g s 10 = 0 ∧ g s 11 = 0 := by decide +kernel
-- R223: VSHL.i16.v g8, g12 by -2
theorem test_vshl : let s := ran [0xF842, 0x3233] (from_ [(8, 0x8004), (12, 0xFFFE)]); g s 8 = 0xE001 := by decide +kernel

/-- The capability of the worked decoding (R154): 12 KiB at 0x1234_5000, the cursor at 0x1234_5100, R and W. -/
def worked : Val := { bits := 0xA400051400000003#128 <<< 64 ||| 0x12345100#128, tag := true }
def holding (r : Nat) (v : Val) : State := world (withRegs [(r, v)])
def span (v : Val) : Int × Int := ((capBounds v).base, (capBounds v).top)
theorem test_cap_bounds : span worked = (0x12345000, 0x12348000) ∧ (capBounds worked).centre = 0x12346800 := by decide +kernel
-- inside the representable region, and out of it on either side
theorem test_cap_region : let at_ := fun (n : Int) => ((nextOf (exec (.cincReg { xr := true } 5 3 6) (world (withRegs [(3, worked), (6, Val.ofW (BitVec.ofInt 64 n))])))).thread 0).reg 5
    (at_ 0x100000).tag = true ∧ (at_ 0x100000).nat = 0x12445100 ∧ (at_ 0x200000).tag = false ∧ (at_ (-0x100000)).tag = false := by decide +kernel
-- R164: the listing's four lines
theorem test_cap_derive : let s1 := ran [0xF040, 0x7D4C] (holding 3 worked); let s2 := ran [0xF004, 0xF000, 0x8154] s1; let s3 := ran [0xF003, 0x8554] s2; let s4 := ran [0x8994] s3
    span ((s3.thread 0).reg 5) = (0x12345140, 0x12346140) ∧ capPerm ((s3.thread 0).reg 5) = 3 ∧ ((s3.thread 0).reg 5).tag = true ∧ g s4 6 = 0x12345140 := by decide +kernel

/-- The worked walk (R70): swatches 12 and 13, the root table at 0x3_0000_0000. -/
def walking : State :=
  let s := (world runner).setBolt 1 { live := true, clusters := [0], slices := [0], root := 0x300000000, swatches := [12, 13] }
  { s.setSlice 0 { owner := .bolt 1, swmask := [12, 13] } with dram := { cells := [(0x300000000, 0x01), (0x300000001, 0x80), (0x300000004, 0x03), (0x300009828, 0x01), (0x30000982A, 0x01),
    (0x30000982C, 0x03), (0x300010010, 0x33), (0x300010012, 0x67), (0x300010013, 0x45), (0x300010014, 0x03)] } }
def frame (x : Except (Cause × W64) (State × Nat × Nat)) : Option (Nat × Nat) := match x with | .ok (s, pa, _) => some (pa, s.claims.length) | .error _ => none
theorem test_walk : frame (translate walking 1 0 0x3050021A40 .rd) = some (0x345671A40, 1) := by decide +kernel

-- the Z8 bytes of the matrix unit's worked product: 1.0, 2.0, 0.5, -1.0, 3.25, 1.0, 0.1015625, 512, in 128ths
def in128ths (v : FV) : Int := match v with | .fin neg m e => (if neg then -1 else 1) * ((m * 2 ^ (e + 7).toNat : Nat) : Int) | _ => 0
theorem test_z8 : [0x60, 0x70, 0x20, 0xE0, 0x7A, 0x60, 0x1D, 0x43].map (fun b => in128ths (z8Decode b)) = [128, 256, 64, -128, 416, 128, 13, 65536] := by decide +kernel
end Sys2Proof.Tests
end

namespace Sys2Proof.InstructionWords
open Sys2Proof Sys2Proof.Machine Sys2Proof.Claims Sys2Proof.Laws

/-! ## The least of a list -/

theorem leastNat_eq_min? (l : List Nat) : leastNat l = l.min? := by
  induction l with
  | nil => rfl
  | cons a r ih =>
    rw [leastNat, ih, List.min?_cons]
    cases r.min? <;> rfl

theorem leastNat_eq_some {l : List Nat} {m : Nat} (hm : m ∈ l) (hle : ∀ x ∈ l, m ≤ x) : leastNat l = some m := by
  rw [leastNat_eq_min?, List.min?_eq_some_iff]
  exact ⟨hm, hle⟩

/-- The least number of the registers that satisfy `p`, found among any list of just those numbers. -/
theorem leastNat_of_lowest {p : Reg → Prop} {regs : List Reg} {r : Reg} {l : List Nat} (h : lowest p regs r)
    (hl : ∀ n, n ∈ l ↔ ∃ x ∈ regs, p x ∧ x.toNat = n) : leastNat l = some r.toNat := by
  obtain ⟨hr, hp, hle⟩ := h
  refine leastNat_eq_some ((hl _).2 ⟨r, hr, hp, rfl⟩) fun n hn => ?_
  obtain ⟨x, hx, hpx, rfl⟩ := (hl n).1 hn
  exact hle x hx hpx

/-! ## The decode checks of R52, the first that fails -/

section
variable {t : Thread} {q : Pre} {k : Spec}

theorem decodeChecks_exchange (hx : t.xchg = true) (hk : k.xok = false) (hk' : k.xport = false) :
    decodeChecks t q k = some (.trap .illegal (illTval q k.base)) := by
  simp [decodeChecks, hx, hk, hk']

/-- Nothing makes the instruction ILLEGAL: its encoding is accepted, no exchange phase, and no seam where it has none. -/
def Legal (t : Thread) (k : Spec) : Prop := k.ok = true ∧ t.xchg = false ∧ (k.noSeam = true → t.seamed = false)

theorem Legal.not_illegal (h : Legal t k) :
    (!k.ok || (t.xchg && !(if k.named.any (portBound t) then k.xport else k.xok)) || (t.seamed && k.noSeam && guardOn t q)) = false := by
  obtain ⟨hok, hx, hs⟩ := h
  cases hn : k.noSeam
  · simp [hok, hx]
  · simp [hok, hx, hs hn]

theorem decodeChecks_perm (h : Legal t k) (hp : k.priv = true) (hm : t.mode = false) :
    decodeChecks t q k = some (.trap .perm (k.base.setWidth 64)) := by
  rw [decodeChecks, h.not_illegal]; simp [hp, hm]

theorem decodeChecks_group (h : Legal t k) (hp : k.priv = false) {r : Nat} (hr : leastNat (misaligned k) = some r) :
    decodeChecks t q k = some (.trap .group (BitVec.ofNat 64 r)) := by
  rw [decodeChecks, h.not_illegal]; simp [hp, hr]

theorem decodeChecks_allot (h : Legal t k) (hp : k.priv = false) (hm : misaligned k = []) {r : Nat}
    (hr : leastNat (beyondAllot t k) = some r) : decodeChecks t q k = some (.trap .allot (BitVec.ofNat 64 r)) := by
  rw [decodeChecks, h.not_illegal]; simp [hp, hm, hr, leastNat]

theorem decodeChecks_pass (h : Legal t k) (hp : k.priv = false) (hm : misaligned k = []) (hb : beyondAllot t k = []) :
    decodeChecks t q k = none := by
  rw [decodeChecks, h.not_illegal]; simp [hp, hm, hb, leastNat]

end

/-! ## What issuing an instruction answers at each check -/

/-- A precise fault of an instruction that issues. -/
theorem traps_of_issue {i : Instr} {q : Pre} {k : Spec} {op : State → Res State} {s : State} {c : Cause} {v : W64}
    (hexec : exec i s = issue q k op s) (h : issue q k op s = .next (stopped s (.trap c v))) : Traps i s c v := by
  rw [Traps, hexec, h]; rfl

theorem guardOn_iff (q : Pre) (s : State) : guardOn s.t q = true ↔ Guarded q s := by
  simp [guardOn, Guarded]
  cases q.gen <;> simp

section
variable {q : Pre} {k : Spec} (op : State → Res State) {s : State}

theorem issue_refused {x : Stop} (h : decodeChecks s.t q k = some x) : issue q k op s = .next (stopped s x) := by
  simp only [issue, h]

theorem issue_pending (hd : decodeChecks s.t q k = none) (hg : Guarded q s) (hp : ∃ r ∈ k.watched, r.toNat ∈ s.t.pending) :
    issue q k op s = .next (setWait s s.cur .operand) := by
  have hany : k.watched.any (fun r => s.t.pending.contains r.toNat) = true := by simpa using hp
  simp only [issue, hd, (guardOn_iff q s).2 hg, if_true, hany]

theorem issue_early (hd : decodeChecks s.t q k = none) (hr : Ready s) (hg : Guarded q s)
    (hp : ∀ r ∈ k.watched, r.toNat ∉ s.t.pending) (hc : s.t.check = true)
    (he : earlyBy s.t (countAt q s) k.watched (guardFlags q ++ k.rflags) ≠ []) :
    issue q k op s = .next (stopped s (.trap .stallcount (stallTval (earlyBy s.t (countAt q s) k.watched (guardFlags q ++ k.rflags))))) := by
  obtain ⟨-, -, hst⟩ := hr
  have hany : k.watched.any (fun r => s.t.pending.contains r.toNat) = false := by simpa using hp
  have hcount : ∀ regs flags, (issueCycle s s.t q regs flags).1 = countAt q s := fun _ _ => rfl
  simp only [issue, hd, (guardOn_iff q s).2 hg, if_true, hany, hcount]
  simp [hc, hst, he]

/-- An instruction whose guard disables it passes: it issues and commits, and its operation does not run (R50). -/
theorem issue_disabled (hd : decodeChecks s.t q k = none) (hg : ¬ Guarded q s)
    (he : s.t.check = true → earlyBy s.t (countAt q s) [] (guardFlags q) = []) :
    issue q k op s = .next (commit (begun q { base := k.base, holdN := k.holdN } s) s.t.bolt) := by
  have hon : guardOn s.t q = false := by simpa using mt (guardOn_iff q s).1 hg
  have hearly : (s.t.check && s.t.stage == 0 && !(earlyBy s.t (countAt q s) [] (guardFlags q)).isEmpty) = false := by
    by_cases hc : s.t.check = true
    · simp [he hc]
    · simp [hc]
  have hcount : (issueCycle s s.t q [] (guardFlags q)).1 = countAt q s := rfl
  simp only [issue, hd, hon, Bool.false_eq_true, if_false, List.append_nil, List.any_nil, hcount, hearly, Bool.not_false, if_true,
    begun]
  rfl

/-- The flag of the guard is not among the results that the counts have not reached. -/
theorem guardFlag_ready {regs : List Reg} {flags : List Flag} (hd : ReadyRegs q regs flags s) (hc : s.t.check = true) {e : Due} (he : e ∈ s.t.due)
    (hcnt : countAt q s < e.cnt) {f : Flag} (hf : f ∈ guardFlags q) : 64 + f.toNat ≠ e.what := by
  obtain ⟨-, hdue⟩ := hd
  obtain ⟨-, -, hguard⟩ := hdue hc e he hcnt
  rw [guardFlags] at hf
  split at hf
  · rename_i hgen
    rw [List.mem_singleton.1 hf]
    exact hguard hgen
  · exact absurd hf List.not_mem_nil

theorem commit_starts {e t : State} (h : Starts e t) (b : Nat) : Starts (commit e b) (commit t b) := by
  obtain ⟨h1, h2, h3, h4, h5⟩ := h
  refine ⟨?_, h2, h3, h4, h5⟩
  rw [h1]; rfl

end

/-! ## The integer rows of R202: two sources, one destination -/

/-- What a two-address integer instruction says of itself to the checks: `intTwo` issues with it. -/
def twoSpec (i : Instr) (d x y : Reg) (l : Option Nat) : Spec := { base := baseParcel i, reads := [x, y], writes := [d], lat := l }

/-- Every row of `arithmetic` is a two-address integer instruction. -/
theorem exec_arithmetic {e : (Pre → Reg → Reg → Reg → Instr) × (W64 → W64 → W64)} (he : e ∈ arithmetic) (q : Pre) (d x y : Reg) :
    ∃ l f, ∀ s, exec (e.1 q d x y) s = intTwo (e.1 q d x y) q d x y l f s := by
  simp only [arithmetic, List.mem_cons, List.not_mem_nil, or_false] at he
  rcases he with rfl | rfl | rfl | rfl | rfl | rfl | rfl | rfl | rfl | rfl | rfl | rfl | rfl | rfl | rfl | rfl | rfl
  case inr.inr.inr.inr.inr.inl => exact ⟨_, _, fun s => show execAndn q d x y s = _ from rfl⟩
  rotate_left 12
  · exact ⟨_, _, fun s => show execMin q d x y s = _ from rfl⟩
  · exact ⟨_, _, fun s => show execMax q d x y s = _ from rfl⟩
  · exact ⟨_, _, fun s => show execMinn q d x y s = _ from rfl⟩
  · exact ⟨_, _, fun s => show execMaxn q d x y s = _ from rfl⟩
  all_goals exact ⟨_, _, fun _ => rfl⟩

section
variable {i : Instr} {q : Pre} {d x y : Reg} {l : Option Nat} {op : State → Res State} {s : State}

theorem twoSpec_watched : (twoSpec i d x y l).watched = [x, y, d] := rfl

theorem twoSpec_legal (hx : s.t.xchg = false) : Legal s.t (twoSpec i d x y l) := ⟨rfl, hx, fun h => nomatch h⟩

theorem mem_beyondAllot_two (n : Nat) :
    n ∈ beyondAllot s.t (twoSpec i d x y l) ↔ ∃ r ∈ [x, y, d], s.t.allot ≤ r.toNat ∧ r.toNat = n := by
  have hlist : beyondAllot s.t (twoSpec i d x y l) = ([x, y, d].map (·.toNat)).filter (s.t.allot ≤ ·) := rfl
  simp only [hlist, List.mem_filter, List.mem_map, decide_eq_true_eq]
  constructor
  · rintro ⟨⟨r, hr, rfl⟩, h⟩; exact ⟨r, hr, h, rfl⟩
  · rintro ⟨r, hr, h, rfl⟩; exact ⟨⟨r, hr, rfl⟩, h⟩

theorem two_pass (hx : s.t.xchg = false) (ha : ∀ r ∈ [x, y, d], r.toNat < s.t.allot) : decodeChecks s.t q (twoSpec i d x y l) = none :=
  decodeChecks_pass (twoSpec_legal hx) rfl rfl (allotted _ _ rfl rfl ha)

/-- The registers that STALLCOUNT looks at are those read or written too early (R56): an entry of a flag has a number from 64 up. -/
theorem mem_early_two (n : Nat) :
    n ∈ (earlyBy s.t (countAt q s) [x, y, d] (guardFlags q)).filter (· < 64) ↔ ∃ r ∈ [x, y, d], early q s r ∧ r.toNat = n := by
  simp only [earlyBy, early, List.mem_filter, List.mem_map, decide_eq_true_eq, Bool.and_eq_true, Bool.or_eq_true, List.any_eq_true]
  constructor
  · rintro ⟨⟨e, ⟨he, hcnt, ⟨r, hr, hw⟩ | ⟨f, -, hw⟩⟩, rfl⟩, hlt⟩
    · exact ⟨r, hr, ⟨e, he, hw.symm, hcnt⟩, hw⟩
    · omega
  · rintro ⟨r, hr, ⟨e, he, hw, hcnt⟩, rfl⟩
    exact ⟨⟨e, ⟨he, hcnt, .inl ⟨r, hr, hw.symm⟩⟩, hw⟩, r.isLt⟩

end

theorem stallTval_of_least {l : List Nat} {r : Nat} (h : leastNat (l.filter (· < 64)) = some r) : stallTval l = BitVec.ofNat 64 r := by
  rw [stallTval, h]

/-- The checks of a two-address integer instruction, in their order (R52). -/
theorem checks_arithmetic {e : (Pre → Reg → Reg → Reg → Instr) × (W64 → W64 → W64)} (he : e ∈ arithmetic) (q : Pre) (d x y : Reg)
    (s : State) (hr : Ready s) : let i := e.1 q d x y; let regs := [x, y, d]
    (s.t.xchg = true → Traps i s .illegal (illTval q (baseParcel i))) ∧
    (s.t.xchg = false →
      (∀ r, lowest (fun r => s.t.allot ≤ r.toNat) regs r → Traps i s .allot (BitVec.ofNat 64 r.toNat)) ∧
      ((∀ r ∈ regs, r.toNat < s.t.allot) →
        (¬ Guarded q s → ReadyRegs q [] [] s → Gives i s (afterT q s s.t)) ∧
        (Guarded q s → (∃ r ∈ regs, r.toNat ∈ s.t.pending) → exec i s = .next (setWait s s.cur .operand)) ∧
        (∀ r, Guarded q s → (∀ r ∈ regs, r.toNat ∉ s.t.pending) → s.t.check = true → lowest (early q s) regs r →
          Traps i s .stallcount (BitVec.ofNat 64 r.toNat)))) := by
  intro i regs
  obtain ⟨l, f, hexec⟩ := exec_arithmetic he q d x y
  obtain ⟨op, hop⟩ : ∃ op, exec i s = issue q (twoSpec i d x y l) op s := ⟨_, hexec s⟩
  refine ⟨fun hx => ?_, fun hx => ⟨fun r hlow => ?_, fun ha => ?_⟩⟩
  · exact traps_of_issue hop (issue_refused op (decodeChecks_exchange hx rfl rfl))
  · exact traps_of_issue hop (issue_refused op (decodeChecks_allot (twoSpec_legal hx) rfl rfl (leastNat_of_lowest hlow mem_beyondAllot_two)))
  · have hpass := two_pass (i := i) (q := q) (l := l) hx ha
    refine ⟨fun hg hd => ?_, fun hg hp => ?_, fun r hg hp hc hlow => ?_⟩
    · have hearly : s.t.check = true → earlyBy s.t (countAt q s) [] (guardFlags q) = [] := fun hc =>
        earlyBy_nil _ _ _ _ fun e he hcnt => ⟨fun _ h => absurd h List.not_mem_nil, fun f hf => guardFlag_ready hd hc he hcnt hf⟩
      refine ⟨_, hop.trans (issue_disabled op hpass hg hearly), ?_⟩
      have hst := commit_starts (begun_starts q { base := (twoSpec i d x y l).base, holdN := (twoSpec i d x y l).holdN } s hr) s.t.bolt
      rw [Matches, if_pos (by simpa [afterT] using hr.2.1)]
      simpa [afterT] using hst
    · rw [hop, issue_pending op hpass hg hp]
    · have hleast := leastNat_of_lowest hlow (mem_early_two (s := s) (q := q))
      have hne : earlyBy s.t (countAt q s) [x, y, d] (guardFlags q) ≠ [] := by
        intro h0
        rw [h0] at hleast
        exact absurd hleast (by simp [leastNat])
      have hfl : guardFlags q ++ (twoSpec i d x y l).rflags = guardFlags q := List.append_nil _
      have h := issue_early op hpass hr hg hp hc (by rw [hfl]; exact hne)
      rw [hfl, twoSpec_watched, stallTval_of_least hleast] at h
      exact traps_of_issue hop h

/-! ## The other rows: PERM, GROUP, and units that the module does not have -/

/-- XINV, TRET and IDLE are PERM in user mode, whatever the guard (R52, R84). -/
theorem perm_of_user {i : Instr} {q : Pre} {d r : Reg} {s : State} (hi : i = .xinv q d r ∨ i = .tret q ∨ i = .idle q)
    (hx : s.t.xchg = false) (hm : s.t.mode = false) : Traps i s .perm ((baseParcel i).setWidth 64) := by
  obtain ⟨k, op, hexec, hbase, hok, hseam, hpriv⟩ :
      ∃ k op, exec i s = issue q k op s ∧ k.base = baseParcel i ∧ k.ok = true ∧ k.noSeam = false ∧ k.priv = true := by
    rcases hi with rfl | rfl | rfl
    · exact ⟨_, _, show execXinv q d r s = _ from rfl, rfl, rfl, rfl, rfl⟩
    · exact ⟨_, _, show execTret q s = _ from rfl, rfl, rfl, rfl, rfl⟩
    · exact ⟨_, _, show execIdle q s = _ from rfl, rfl, rfl, rfl, rfl⟩
  rw [← hbase]
  exact traps_of_issue hexec (issue_refused op (decodeChecks_perm ⟨hok, hx, fun h => absurd h (by simp [hseam])⟩ hpriv hm))

/-- FORK of a register that starts no group of four is GROUP (R294). -/
theorem fork_group (q : Pre) (r : Reg) (s : State) (hx : s.t.xchg = false) (hs : s.t.seamed = false) (hr : r.toNat % 4 ≠ 0) :
    Traps (.fork q r) s .group (BitVec.ofNat 64 r.toNat) := by
  obtain ⟨k, op, hexec, hok, hpriv, hgroups⟩ :
      ∃ k op, exec (.fork q r) s = issue q k op s ∧ k.ok = true ∧ k.priv = false ∧ k.rgroups ++ k.wgroups = [(r, 4)] :=
    ⟨_, _, show execFork q r s = _ from rfl, rfl, rfl, rfl⟩
  have hmis : leastNat (misaligned k) = some r.toNat := by simp [misaligned, hgroups, hr, leastNat]
  exact traps_of_issue hexec (issue_refused op (decodeChecks_group ⟨hok, hx, fun _ => hs⟩ hpriv hmis))

theorem hasCore_of_ge {n : Nat} (h : 4096 ≤ n) : hasCore n = false := by
  have hsys : n / 2048 ≠ 1 := by omega
  simp [hasCore, isSystem, hsys]; omega

theorem hasPort_of_ge {n : Nat} (h : 256 ≤ n) (hn : n ∉ [256, 384, 512, 640]) : hasPort n = false := by
  have hc : decide (n < Config.clusters) = false := decide_eq_false (Nat.not_lt.2 h)
  rw [hasPort, hc, decide_eq_false hn]; rfl

/-- An event row that names a unit is a step only where the module has the unit (R2). -/
theorem no_unit {i : Instr} {s : State} (ok : Bool) (t : State) (hexec : exec i s = withUnit ok t) (hok : ok = false) :
    exec i s = .fault .noSuchUnit := by
  rw [hexec, withUnit_fault, hok]

theorem no_core {n : Nat} (h : 2048 ≤ n) (s : State) (side : BitVec 2) :
    ∀ i ∈ [Instr.mfmtContextChange n, .wstatAtHead n, .matrixRequestComplete n, .sorterAccept n, .probe n side, .ackHolderPush n],
      exec i s = .fault .noSuchUnit := by
  have hn : decide (n < 2048) = false := decide_eq_false (Nat.not_lt.2 h)
  simp only [List.mem_cons, List.not_mem_nil, or_false]
  rintro i (rfl | rfl | rfl | rfl | rfl | rfl) <;> exact no_unit (decide (n < 2048)) _ rfl hn

theorem no_cluster {n : Nat} (h : 256 ≤ n) (s : State) (k : Nat) :
    ∀ i ∈ [Instr.localBankGrant ⟨n, k⟩, .arrayGrant n, .scrub (some n) none, .throttleChange n 8], exec i s = .fault .noSuchUnit := by
  have hn : decide (n < Config.clusters) = false := decide_eq_false (Nat.not_lt.2 h)
  simp only [List.mem_cons, List.not_mem_nil, or_false]
  rintro i (rfl | rfl | rfl | rfl)
  · exact no_unit (decide (n < Config.clusters) && decide (k < 64)) _ rfl (by simp [hn])
  · exact no_unit (decide (n < Config.clusters)) _ rfl hn
  · exact no_unit ((some n).all (fun c => decide (c < Config.clusters)) && (none : Option Nat).all _) _ rfl (by simp [hn])
  · exact no_unit (decide (n < Config.clusters)) _ rfl hn

theorem no_slice {n : Nat} (h : 128 ≤ n) (s : State) (l : Nat) :
    ∀ i ∈ [Instr.homeRequest n, .retryReissue n, .shadowFetch n l, .sweeper n l, .scrub none (some n)], exec i s = .fault .noSuchUnit := by
  have hn : decide (n < Config.slices) = false := decide_eq_false (Nat.not_lt.2 h)
  simp only [List.mem_cons, List.not_mem_nil, or_false]
  rintro i (rfl | rfl | rfl | rfl | rfl)
  · exact no_unit (decide (n < Config.slices)) _ rfl hn
  · exact no_unit (decide (n < Config.slices)) _ rfl hn
  · exact no_unit (decide (n < Config.slices)) _ rfl hn
  · exact no_unit (decide (n < Config.slices)) _ rfl hn
  · exact no_unit ((none : Option Nat).all _ && (some n).all (fun h => decide (h < Config.slices))) _ rfl (by simp [hn])

/-- Settles O54: the checks of the integer rows one after another, then the rows of PERM, GROUP and absent units. -/
theorem checksInOrder : Obligations.ChecksInOrder := by
  refine ⟨fun e he q d x y s hr => checks_arithmetic he q d x y s hr, fun i q d r s hi _ hx hm => perm_of_user hi hx hm,
    fun q r s _ hx hs hr => fork_group q r s hx hs hr, fun s n side h => no_core h s side, fun s n h => ?_, fun s n k h => no_cluster h s k,
    fun s n z h hn => ?_, fun s n l h => no_slice h s l⟩
  · exact no_unit (hasCore n) _ rfl (hasCore_of_ge h)
  · exact no_unit (hasPort n) _ rfl (hasPort_of_ge h hn)

end Sys2Proof.InstructionWords

namespace Sys2Proof.InstructionWords
open Sys2Proof Sys2Proof.Machine Sys2Proof.Claims Sys2Proof.Laws

/-! ## The parcels of a fetch are decoded as they come -/

theorem scanStep_count {c c' : Scan} {p : Parcel} (h : scanStep c p = .ok c') : c.k ≠ 4 ∧ c'.k = c.k + 1 := by
  unfold scanStep at h
  by_cases hk : c.k = 4
  · rw [if_pos hk] at h; exact nomatch h
  · rw [if_neg hk] at h
    refine ⟨hk, ?_⟩
    dsimp only at h
    split at h
    · cases h; rfl
    all_goals
      split at h
      · exact nomatch h
      · cases h; rfl

/-- What decodes leaves fewer parcels. -/
theorem decodeFrom_shorter {l : List Parcel} {i : Instr} {rest : List Parcel} : ∀ {c : Scan}, decodeFrom c l = .ok (i, rest) → rest.length < l.length := by
  induction l with
  | nil => intro c h; exact nomatch h
  | cons p l ih =>
    intro c h
    rw [decodeFrom] at h
    split at h
    · split at h
      · exact Nat.lt_trans (ih h) (Nat.lt_succ_self _)
      · exact nomatch h
    · split at h
      · cases h; exact Nat.lt_succ_self _
      · exact nomatch h

/-- The parcel `j` of the instruction at `pc`, read in the state `g j` through the execute capability and its translation, no write to its
line waiting at its home; `g (j + 1)` is the state after it. -/
def Reads (bolt core : Nat) (ecap : Val) (pc : W64) (g : Nat → State) (j : Nat) (p : Parcel) : Prop :=
  let a := (pc + BitVec.ofNat 64 (2 * j)).toNat
  derefCheck 0 true ecap (!capLoc ecap && !capDam ecap) [permX] a 2 = .ok () ∧ fetchBehind (g j) bolt core a = false ∧
    fetchParcel (g j) bolt core a = .ok (g (j + 1), p)

theorem Reads.zero {bolt core : Nat} {ecap : Val} {pc : W64} {g : Nat → State} {p : Parcel} (h : Reads bolt core ecap pc g 0 p) :
    derefCheck 0 true ecap (!capLoc ecap && !capDam ecap) [permX] pc.toNat 2 = .ok () ∧ fetchBehind (g 0) bolt core pc.toNat = false ∧
      fetchParcel (g 0) bolt core pc.toNat = .ok (g 1, p) := by
  simpa [Reads] using h

theorem Reads.succ {bolt core : Nat} {ecap : Val} {pc : W64} {g : Nat → State} {j : Nat} {p : Parcel}
    (h : Reads bolt core ecap pc g (j + 1) p) : Reads bolt core ecap (pc + 2) (fun k => g (k + 1)) j p := by
  have ha : pc + 2 + BitVec.ofNat 64 (2 * j) = pc + BitVec.ofNat 64 (2 * (j + 1)) := by
    rw [BitVec.add_assoc, Nat.mul_succ, Nat.add_comm (2 * j) 2, BitVec.ofNat_add]; rfl
  simpa only [Reads, ha] using h

/-- Parcels that decode from a scan on are fetched so, with fuel for four prefixes, a fifth and a base. -/
theorem fetchFrom_of_decodeFrom {bolt core : Nat} {ecap : Val} (hcore : isSystem core = false) {rest : List Parcel} {i : Instr} (used : List Parcel) :
    ∀ (fuel : Nat) (c : Scan) (pc : W64) (g : Nat → State), c.k + fuel = 6 → c.k ≤ 4 → decodeFrom c (used ++ rest) = .ok (i, rest) →
      (∀ j, j < used.length → Reads bolt core ecap pc g j (used.getD j 0)) → fetchFrom (g 0) bolt core ecap fuel c pc = .ok (g used.length, i) := by
  induction used with
  | nil => intro fuel c pc g _ _ hdec _; exact absurd (decodeFrom_shorter hdec) (Nat.lt_irrefl _)
  | cons p used ih =>
    intro fuel c pc g hfuel hk hdec hreads
    obtain ⟨n, rfl⟩ : ∃ n, fuel = n + 1 := ⟨fuel - 1, by omega⟩
    obtain ⟨hderef, hahead, hparcel⟩ := (hreads 0 (Nat.succ_pos _)).zero
    rw [List.getD_cons_zero] at hparcel
    rw [List.cons_append, decodeFrom] at hdec
    rw [fetchFrom, hderef, hahead, hparcel]
    simp only [Bool.false_eq_true, if_false]
    split at hdec
    · rename_i hp
      rw [if_pos hp]
      split at hdec
      · rename_i c' hscan
        obtain ⟨hk4, hk'⟩ := scanStep_count hscan
        rw [hscan]
        exact ih n c' (pc + 2) (fun j => g (j + 1)) (by omega) (by omega) hdec fun j hj => (hreads (j + 1) (Nat.succ_lt_succ hj)).succ
      · exact nomatch hdec
    · rename_i hp
      rw [if_neg hp]
      split at hdec
      · rename_i j hbase
        obtain ⟨rfl, hrest⟩ : j = i ∧ used ++ rest = rest := by simpa using hdec
        obtain rfl : used = [] := by simpa using hrest
        simp [hbase, noSystem, hcore]
      · exact nomatch hdec

/-- What of the fetch clause of O55 holds: the parcels at the pc decode to the instruction that the fetch answers, where no write that has
arrived at the home of a parcel for its line is still to be performed. -/
theorem fetch_of_decode (s : State) (ps used rest : List Parcel) (i : Instr) (g : Nat → State) (hcore : isSystem s.curCore = false)
    (hdec : decode ps = .ok (i, rest)) (hps : ps = used ++ rest) (h0 : g 0 = s)
    (hreads : ∀ j, j < used.length → Reads s.t.bolt s.curCore s.t.ecap s.t.pc g j (used.getD j 0)) : fetch s = .ok (g used.length, i) := by
  subst hps
  have h := fetchFrom_of_decodeFrom hcore used 6 {} s.t.pc g rfl (by decide) hdec hreads
  rwa [h0] at h

/-! ## A thread in its turn -/

theorem beforeIssue_ready {tid : Nat} {s : State} (hacq : s.t.acqDue = false) (hwait : ∀ sc, s.t.wait ≠ .streamRelease sc) : beforeIssue tid s = .ok s := by
  unfold beforeIssue
  split
  · rename_i sc h; exact absurd h (hwait sc)
  · simp [hacq]

theorem afterHead_noSeam {s : State} {tid : Nat} (h : (s.thread tid).seam = none) (was : Thread) (i : Instr) (g : Bool) : afterHead s was tid i g = s := by
  unfold afterHead
  simp only [h]

section
variable {s : State} {tid : Nat} (hlate : (s.thread tid).late = []) (hacq : (s.thread tid).acqDue = false)
  (hwait : ∀ sc, (s.thread tid).wait ≠ .streamRelease sc)
include hlate hacq hwait

theorem threadStep_fetched {s2 u : State} {i : Instr} (hfetch : fetch { s with cur := tid } = .ok (s2, i)) (hexec : exec i s2 = .next u) :
    threadStep tid s = .next (afterHead u (s.thread tid) tid i (streamGuard (s.thread tid) i)) := by
  have hlate' : (State.thread { s with cur := tid } tid).late = [] := hlate
  simp only [threadStep, hlate', beforeIssue_ready (s := { s with cur := tid }) hacq hwait, hfetch, hexec, List.isEmpty_nil, Bool.not_true,
    Bool.false_and, Bool.false_eq_true, if_false]
  rfl

theorem threadStep_stopped {x : Stop} (hfetch : fetch { s with cur := tid } = .error x) : threadStep tid s = .next (stopped { s with cur := tid } x) := by
  have hlate' : (State.thread { s with cur := tid } tid).late = [] := hlate
  simp only [threadStep, hlate', beforeIssue_ready (s := { s with cur := tid }) hacq hwait, hfetch, List.isEmpty_nil, Bool.not_true,
    Bool.false_and, Bool.false_eq_true, if_false]

end

theorem attempt_head {s : State} {tid : Nat} (h : follows (s.thread tid) = false) : attempt tid s = threadStep tid s := by
  rw [attempt, h, if_neg Bool.false_ne_true]

theorem attempt_member {s : State} {tid : Nat} {m : Seam} {i : Instr} {g : Bool} {n : Nat} (h : follows (s.thread tid) = true)
    (hseam : (s.thread tid).seam = some m) (hfwd : forwarded s m.head m.next = some (i, g, n)) :
    attempt tid s = memberStep tid m.next i { s with forward := some (tid, m.next, i, g) } := by
  rw [attempt, h, if_pos rfl, memberTry, hseam]
  simp only [hfwd]

theorem memberStep_next {s u : State} {tid idx : Nat} {i : Instr} (hacq : (s.thread tid).acqDue = false)
    (hwait : ∀ sc, (s.thread tid).wait ≠ .streamRelease sc) (hexec : exec i (atIndex { s with cur := tid } tid idx) = .next u) :
    memberStep tid idx i s = .next (afterMember { u with forward := none } tid) := by
  simp only [memberStep, beforeIssue_ready (s := { s with cur := tid }) hacq hwait, hexec]

/-- The clause of O55 about a thread in its turn holds. -/
theorem threadRuns : ThreadRuns := by
  refine fun s tid => ⟨fun hfollow hlate hacq hwait => ⟨fun s2 i u hfetch hexec hseam => ?_, fun x hfetch => ?_⟩,
    fun m i g n u hfollow hseam hfwd hacq hwait hexec => ?_⟩
  · rw [attempt_head hfollow, threadStep_fetched hlate hacq hwait hfetch hexec, afterHead_noSeam hseam]
  · rw [attempt_head hfollow, threadStep_stopped hlate hacq hwait hfetch]
  · rw [attempt_member hfollow hseam hfwd]
    exact memberStep_next hacq hwait hexec

/-! ## A core's turn (R296) -/

theorem passedMost_mem (s : State) (l : List Nat) {t : Nat} (h : passedMost s l = some t) : t ∈ l := by
  refine List.foldlRecOn (motive := fun b => ∀ x, b = some x → x ∈ l) l _ (b := none) (fun _ h => nomatch h) (fun b hb a ha x hx => ?_) t h
  split at hx
  · exact hb x hx
  · split at hx
    · cases hx; exact ha
    · split at hx
      · cases hx; exact ha
      · exact hb x hx

theorem cyclic_subset (s : State) (c : Nat) (l : List Nat) : cyclic s c l ⊆ l := fun t ht => by
  simpa using (List.mem_filter.1 ht).2

/-- Every slot of the core comes once in the cyclic order. -/
theorem cyclic_ne_nil {s : State} {c t : Nat} {l : List Nat} (ht : t ∈ l) (hslot : ∃ k, k < 4 ∧ t = c * 4 + k) : cyclic s c l ≠ [] := by
  obtain ⟨k, hk, rfl⟩ := hslot
  have hmem : c * 4 + k ∈ cyclic s c l := by
    refine List.mem_filter.2 ⟨List.mem_map.2 ⟨(k + 3 * ((s.core c).last + 1)) % 4, List.mem_range.2 (Nat.mod_lt _ (by decide)), ?_⟩, by simpa using ht⟩
    omega
  exact List.ne_nil_of_mem hmem

/-- A core with ready threads picks one of them. -/
theorem pick_mem (s : State) (c n : Nat) {l : List Nat} (hl : l ≠ []) (hslots : ∀ t ∈ l, ∃ k, k < 4 ∧ t = c * 4 + k) :
    ∃ t ∈ l, Machine.pick s c l n = some t := by
  unfold Machine.pick
  split
  · rename_i t h; exact ⟨t, passedMost_mem s l h, rfl⟩
  · obtain ⟨t, ht⟩ := List.exists_mem_of_ne_nil l hl
    have horder := cyclic_ne_nil (s := s) ht (hslots t ht)
    have hsub := cyclic_subset s c l
    generalize cyclic s c l = order at horder hsub ⊢
    obtain ⟨l1, hl1, hne, hsub1⟩ : ∃ l1, l1 = (if (order.filter (fun t => (yieldsTo s l n t).isEmpty)).isEmpty then order
        else order.filter (fun t => (yieldsTo s l n t).isEmpty)) ∧ l1 ≠ [] ∧ l1 ⊆ order := by
      refine ⟨_, rfl, ?_⟩
      split
      · exact ⟨horder, List.Subset.refl _⟩
      · rename_i h; exact ⟨by simpa using h, fun _ hx => (List.mem_filter.1 hx).1⟩
    simp only [← hl1]
    split
    · rename_i t h; exact ⟨t, hsub (hsub1 (List.mem_of_find?_eq_some h)), rfl⟩
    · obtain ⟨t, r, rfl⟩ := List.exists_cons_of_ne_nil hne
      exact ⟨t, hsub (hsub1 List.mem_cons_self), rfl⟩

theorem candidates_slot {s : State} {c t : Nat} (h : t ∈ candidates s c) : ∃ k, k < 4 ∧ t = c * 4 + k := by
  obtain ⟨ht, -⟩ := List.mem_filter.1 h
  obtain ⟨k, hk, rfl⟩ := List.mem_map.1 ht
  exact ⟨k, List.mem_range.1 hk, rfl⟩

/-- The threads of a core that would issue in cycle `n`. -/
def readyIn (s : State) (c n : Nat) : List Nat := (candidates s c).filter (fun x => decide (issuedAt s c (attempt x s) = some n))

/-- Where every thread that may go on issues, the first cycle of one of them is the core's, and one of those ready in it issues. -/
theorem coreStep_issues {s : State} {c : Nat} (hall : ∀ x ∈ candidates s c, ∃ n, issuedAt s c (attempt x s) = some n) (hne : candidates s c ≠ []) :
    ∃ n t, t ∈ readyIn s c n ∧ (∀ x ∈ candidates s c, ∀ m, issuedAt s c (attempt x s) = some m → n ≤ m) ∧
      Machine.pick s c (readyIn s c n) n = some t ∧ coreStep c s = issueFrom c (readyIn s c n) n t s := by
  have hfind : ((candidates s c).map (fun t => (t, attempt t s))).find? (fun x => (issuedAt s c x.2).isNone) = none := by
    simp only [List.find?_eq_none, List.mem_map]
    rintro _ ⟨x, hx, rfl⟩
    obtain ⟨n, hn⟩ := hall x hx
    simp [hn]
  obtain ⟨x0, hx0⟩ := List.exists_mem_of_ne_nil _ hne
  obtain ⟨n0, hn0⟩ := hall x0 hx0
  obtain ⟨n, hn⟩ : ∃ n, leastNat ((candidates s c).filterMap (fun x => issuedAt s c (attempt x s))) = some n := by
    obtain ⟨a, r, h⟩ := List.exists_cons_of_ne_nil (List.ne_nil_of_mem (List.mem_filterMap (f := fun x => issuedAt s c (attempt x s)).2 ⟨x0, hx0, hn0⟩))
    rw [h, leastNat_eq_min?, List.min?_cons]
    exact ⟨_, rfl⟩
  have hmin := hn
  rw [leastNat_eq_min?, List.min?_eq_some_iff] at hmin
  obtain ⟨hmem, hle⟩ := hmin
  have hleast : ∀ x ∈ candidates s c, ∀ m, issuedAt s c (attempt x s) = some m → n ≤ m := fun x hx m hm => hle m (List.mem_filterMap.2 ⟨x, hx, hm⟩)
  have hready : (((candidates s c).map (fun t => (t, attempt t s))).filter (fun x => (issuedAt s c x.2).all (· ≤ n))).map (·.1) = readyIn s c n := by
    rw [List.filter_map, List.map_map]
    simp only [readyIn]
    rw [show ((fun x : Nat × Step => x.1) ∘ fun t => (t, attempt t s)) = id from rfl, List.map_id]
    refine List.filter_congr fun x hx => ?_
    obtain ⟨m, hm⟩ := hall x hx
    have hnm := hleast x hx m hm
    simp only [Function.comp, hm, Option.all_some, Option.some.injEq, decide_eq_decide]
    omega
  have hne' : readyIn s c n ≠ [] := by
    obtain ⟨x, hx, hxn⟩ := List.mem_filterMap.1 hmem
    exact List.ne_nil_of_mem (List.mem_filter.2 ⟨hx, decide_eq_true hxn⟩)
  obtain ⟨t, ht, hpick⟩ := pick_mem s c n hne' fun x hx => candidates_slot (List.mem_filter.1 hx).1
  refine ⟨n, t, ht, hleast, hpick, ?_⟩
  have hfm : ((candidates s c).map (fun t => (t, attempt t s))).filterMap (fun x => issuedAt s c x.2) =
      (candidates s c).filterMap (fun x => issuedAt s c (attempt x s)) := List.filterMap_map
  simp only [coreStep, hfind, hfm, hn, hready, hpick]

/-- The clause of O55 about a core's turn holds. -/
theorem coreRuns : CoreRuns := by
  intro s c
  refine ⟨fun tid n u hcand hatt hiss => ?_, fun tid u hcand hatt hiss => ?_, fun hcand => ?_, fun hall hne => ?_⟩
  · obtain ⟨n', t, ht, -, -, hstep⟩ := coreStep_issues (s := s) (c := c) (by simp [hcand, hatt, hiss]) (by simp [hcand])
    have hn : n = n' := by
      obtain ⟨hx, hxn⟩ := List.mem_filter.1 ht
      rw [hcand, List.mem_singleton] at hx
      subst hx
      rw [hatt, hiss] at hxn
      simpa using hxn
    subst hn
    have hready : readyIn s c n = [tid] := by simp [readyIn, hcand, hatt, hiss]
    obtain rfl : t = tid := by simpa [hready] using ht
    have hshort : countShort s c (s.core c).cycle n (some t) = s := by simp [countShort, hcand]
    rw [hstep, issueFrom, hshort, hready, hatt, onNext]
  · simp [coreStep, hcand, hatt, hiss, onNext]
  · simp [coreStep, hcand, leastNat]
  · obtain ⟨n, t, ht, hleast, hpick, hstep⟩ := coreStep_issues hall hne
    obtain ⟨hmem, hiss⟩ := List.mem_filter.1 ht
    have hiss' := of_decide_eq_true hiss
    refine ⟨n, t, hmem, ⟨t, hmem, hiss'⟩, hleast, hiss', hpick, fun u hu => ?_⟩
    rw [hstep, issueFrom, hu]
    rfl

/-! ## A step's move (R296, R309) -/

/-- Nothing but the cores of `s` is changed. -/
def OnlyCores (s t : State) : Prop := t = { s with cores := t.cores }

theorem OnlyCores.trans {s t u : State} (h : OnlyCores s t) (h' : OnlyCores t u) : OnlyCores s u := by
  rw [OnlyCores] at h h' ⊢
  rw [h', h]

theorem onlyCores_foldl {β : Type} (f : State → β → State) (hf : ∀ s b, OnlyCores s (f s b)) (l : List β) : ∀ s, OnlyCores s (l.foldl f s) := by
  induction l with
  | nil => intro s; rfl
  | cons b l ih => intro s; exact (hf s b).trans (ih _)

theorem onlyCores_countShort (s : State) (core a b : Nat) (but : Option Nat) : OnlyCores s (countShort s core a b but) :=
  onlyCores_foldl (fun s' t => countEvent s' t 3 (shortIn s core t a b)) (fun _ _ => rfl) _ s

theorem onlyCores_coreTime (n : Nat) (s : State) (c : Nat) : OnlyCores s (coreTime n s c) := by
  unfold coreTime
  dsimp only
  split
  · rfl
  · refine OnlyCores.trans (t := countCycles _ _ _ _) (OnlyCores.trans (t := ite _ _ _) ?_ (countCycles_frame _ _ _ _).1) rfl
    split
    · rfl
    · exact onlyCores_countShort _ _ _ _ _

/-- Time that passes changes GTIME, the delays still to come, the bolts' and the cores' counts, and nothing else. -/
theorem passTime_frame (s : State) :
    passTime s = { s with gtime := s.gtime + (1 + s.delays.headD 0), delays := s.delays.tail, bolts := (passTime s).bolts, cores := (passTime s).cores } := by
  have h := onlyCores_foldl (coreTime (1 + s.delays.headD 0)) (fun s c => onlyCores_coreTime _ s c) (s.cores.map (·.1))
    { s with gtime := s.gtime + (1 + s.delays.headD 0), delays := s.delays.tail, bolts := s.bolts.map (fun p => (p.1, boltTime s (1 + s.delays.headD 0) p.1 p.2)) }
  change OnlyCores _ (passTime s) at h
  rw [h]

theorem passTime_forward (s : State) : (passTime s).forward = s.forward := by rw [passTime_frame]
theorem passTime_sched (s : State) : (passTime s).sched = s.sched := by rw [passTime_frame]

theorem step_of_move {s u : State} (h : chooseMove (passTime s) = .next u) : step s = .next (traceTick (noteWakes (unstall u))) := by
  rw [step, advance, h, onNext]

theorem chooseMove_plan {s : State} {m : Move} {rest : List Move} (hf : s.forward = none) (hstop : stopDueBolt s = none) (hsched : s.sched = m :: rest) :
    chooseMove s = moveStep m { s with sched := rest } := by
  unfold chooseMove
  split
  · rename_i h; exact absurd (hf.symm.trans h) nofun
  · split
    · rename_i h; exact absurd (hstop.symm.trans h) nofun
    · split
      · rename_i h; cases hsched.symm.trans h; rfl
      · rename_i h; exact absurd (hsched.symm.trans h) nofun

/-! ## The move of a seam member whose instruction its head has forwarded (R309)

`s` is the state in which the instruction is no longer forwarded. -/

/-- The threads of the member's core that are ready no later than cycle `n`. -/
def readyBy (s : State) (c n : Nat) : List Nat := (candidates s c).filter (fun x => (issuedAt s c (attempt x s)).any (· ≤ n))

section
variable {s0 s : State} {tid : Nat} (hs : { s0 with forward := none } = s)
include hs

theorem memberMove_stays (hgo : mayGo s tid = false) : memberMove tid s0 = .next s := by
  simp only [memberMove, hs, hgo, Bool.not_false, if_true]

theorem memberMove_waits {u : State} (hgo : mayGo s tid = true) (hatt : attempt tid s = .next u) (hiss : issuedAt s (coreOf tid) (.next u) = none) :
    memberMove tid s0 = .next (wakeOuts u (coreOf tid)) := by
  simp only [memberMove, hs, hgo, Bool.not_true, Bool.false_eq_true, if_false, hatt, hiss, onNext]

theorem memberMove_issues {n : Nat} (hgo : mayGo s tid = true) (hiss : issuedAt s (coreOf tid) (attempt tid s) = some n) :
    memberMove tid s0 = if (readyBy s (coreOf tid) n).any (fun x => (issuedAt s (coreOf tid) (attempt x s)).any (· < n)) ∨
      (passedMost s (readyBy s (coreOf tid) n)).any (· ≠ tid) then .next s else issueFrom (coreOf tid) (readyBy s (coreOf tid) n) n tid s := by
  simp only [memberMove, hs, hgo, Bool.not_true, Bool.false_eq_true, if_false, hiss]
  rfl

theorem memberMove_yields {n : Nat} (hgo : mayGo s tid = true) (hiss : issuedAt s (coreOf tid) (attempt tid s) = some n)
    (hother : (∃ x ∈ readyBy s (coreOf tid) n, ∃ m, issuedAt s (coreOf tid) (attempt x s) = some m ∧ m < n) ∨
      ∃ x, passedMost s (readyBy s (coreOf tid) n) = some x ∧ x ≠ tid) : memberMove tid s0 = .next s := by
  rw [memberMove_issues hs hgo hiss, if_pos]
  simpa only [List.any_eq_true, Option.any_eq_true, decide_eq_true_eq] using hother

theorem memberMove_goes {n : Nat} {u : State} (hgo : mayGo s tid = true) (hiss : issuedAt s (coreOf tid) (attempt tid s) = some n)
    (hle : ∀ x ∈ readyBy s (coreOf tid) n, ∀ m, issuedAt s (coreOf tid) (attempt x s) = some m → n ≤ m)
    (hmost : ∀ x, passedMost s (readyBy s (coreOf tid) n) = some x → x = tid)
    (hatt : attempt tid (countShort s (coreOf tid) (s.core (coreOf tid)).cycle n (some tid)) = .next u) :
    memberMove tid s0 = .next (wakeOuts (passOver s (coreOf tid) (readyBy s (coreOf tid) n) n tid u) (coreOf tid)) := by
  rw [memberMove_issues hs hgo hiss, if_neg, issueFrom, hatt, onNext]
  simp only [List.any_eq_true, Option.any_eq_true, decide_eq_true_eq]
  rintro (⟨x, hx, m, hm, hlt⟩ | ⟨x, hx, hne⟩)
  · exact absurd (hle x hx m hm) (Nat.not_le.2 hlt)
  · exact hne (hmost x hx)

end

/-- The clause of O55 about a step's move holds. -/
theorem movesRun : MovesRun := by
  refine ⟨fun s c rest u hf hstop hsched hmove => step_of_move ?_, fun s c u hf hstop hsched hev hcore hmove => step_of_move ?_,
    fun s tid idx i g hf => ?_, fun s i rest u hf hstop hsched henc hmove => step_of_move ?_, fun s => ?_⟩
  · rw [chooseMove_plan ((passTime_forward s).trans hf) hstop ((passTime_sched s).trans hsched)]
    exact hmove
  · simp only [chooseMove, passTime_forward, hf, hstop, passTime_sched, hsched, hev, hcore, hmove]
  · have hmember : chooseMove (passTime s) = memberMove tid (passTime s) := by simp only [chooseMove, passTime_forward, hf]
    refine ⟨fun hgo => step_of_move ?_, fun u hgo hatt hiss => step_of_move ?_,
      fun n hgo hiss => ⟨fun hother => step_of_move ?_, fun u hle hmost hatt => step_of_move ?_⟩⟩ <;> rw [hmember]
    · exact memberMove_stays rfl hgo
    · exact memberMove_waits rfl hgo hatt hiss
    · exact memberMove_yields rfl hgo hiss hother
    · exact memberMove_goes rfl hgo hiss hle hmost hatt
  · rw [chooseMove_plan ((passTime_forward s).trans hf) hstop ((passTime_sched s).trans hsched), moveStep, isEvent, henc, List.isEmpty_nil, if_pos rfl]
    exact hmove
  · rw [passTime_frame]
    exact ⟨(Nat.add_assoc _ _ _).symm, rfl, rfl⟩

end Sys2Proof.InstructionWords

namespace Sys2Proof.InstructionWords
open Sys2Proof Sys2Proof.Machine Sys2Proof.Claims Sys2Proof.Laws

/-! ## A fetch behind a write: the counterexample to O55 -/

/-- A store of another core to the line at 0x1_0000 of bolt 1. -/
def storeToCode : Req :=
  { tid := 4, core := 1, bolt := 1, cls := 1, phase := 0, va := 0x10000, n := 8, off := 0, pol := 0, op := .store 0 false, mode := true, dest := 0 }

/-- Thread 0 at the word of ADDI g5, 3, whose home has received that store and not performed it. -/
def behindStore : State :=
  let s := State.withParcels State.reset [0x2943]
  s.setSlice 0 { s.slice 0 with chan := [storeToCode] }

/-- The parcel can be read through its translation. -/
theorem behindStore_parcel : ∃ s1, fetchParcel behindStore behindStore.t.bolt behindStore.curCore 0x10000 = .ok (s1, 0x2943) := by
  have hread : (fetchParcel behindStore behindStore.t.bolt behindStore.curCore 0x10000).toOption.map (·.2) = some 0x2943 := by decide +kernel
  cases hp : fetchParcel behindStore behindStore.t.bolt behindStore.curCore 0x10000 with
  | error e => rw [hp] at hread; exact nomatch hread
  | ok r =>
    rw [hp] at hread
    have hword : r.2 = 0x2943 := Option.some.inj hread
    exact ⟨r.1, congrArg (fun p => Except.ok (r.1, p)) hword⟩

theorem behindStore_core : isSystem behindStore.curCore = false := by decide

theorem behindStore_mayExecute :
    derefCheck 0 true behindStore.t.ecap (!capLoc behindStore.t.ecap && !capDam behindStore.t.ecap) [permX] 0x10000 2 = .ok () := rfl

/-- The fetch waits for its place behind the store (R92). -/
theorem fetch_behindStore : fetch behindStore = .error (.wait .place) := rfl

theorem not_fetchRuns : ¬ FetchRuns := by
  intro h
  obtain ⟨s1, hparcel⟩ := behindStore_parcel
  have hfetch := h behindStore [0x2943] [0x2943] [] (.addi plain 5 3) (fun j => if j = 0 then behindStore else s1)
    behindStore_core rfl rfl (if_pos rfl)
    (fun j hj => by
      obtain rfl : j = 0 := by simpa using hj
      exact ⟨behindStore_mayExecute, hparcel⟩)
  rw [fetch_behindStore] at hfetch
  exact nomatch hfetch

/-- Refutes O55: the fetch of `behindStore` waits behind the store that its home has received and not performed, where the fetch clause has
it answer. With no such store the fetch clause holds (`fetch_of_decode`), and so do the clauses on the thread, the core and the move
(`threadRuns`, `coreRuns`, `movesRun`). -/
theorem not_stepRuns : ¬ Obligations.StepRuns := fun ⟨hfetch, _⟩ => not_fetchRuns hfetch

end Sys2Proof.InstructionWords

namespace Sys2Proof.InstructionWords
open Sys2Proof Sys2Proof.Machine Sys2Proof.Claims Sys2Proof.Laws

/-! ## One parcel of the prefixes (R43, R52) -/

theorem parcel_toNat {n : Nat} (h : n < 65536) : (parcel n).toNat = n := by
  rw [parcel, BitVec.toNat_ofNat, Nat.mod_eq_of_lt h]

theorem not_isPrefix_parcel {n : Nat} (h : n < 0xF000) : isPrefix (parcel n) = false := by
  rw [isPrefix, parcel_toNat (by omega), decide_eq_false_iff_not]; omega

/-- The kind and the payload of such a parcel. -/
theorem isPrefix_fields {n kind v : Nat} (hn : n = 0xF000 + kind * 1024 + v) (hkind : kind < 4) (hv : v < 1024) :
    isPrefix (parcel n) = true ∧ (parcel n).toNat / 1024 % 4 = kind ∧ (parcel n).toNat % 1024 = v := by
  rw [isPrefix, parcel_toNat (by omega), decide_eq_true_eq]; omega

theorem decodeFrom_prefix {c c' : Scan} {p : Parcel} (l : List Parcel) (hp : isPrefix p = true) (h : scanStep c p = .ok c') :
    decodeFrom c (p :: l) = decodeFrom c' l := by
  rw [decodeFrom, if_pos hp, h]

section
variable {c : Scan} {n v : Nat} (hv : v < 1024) (l : List Parcel) (b : Bool)
include hv

theorem decodeFrom_xi (hk : c.k < 4) (hn : n = 0xF000 + v) :
    decodeFrom c (parcel n :: l) = decodeFrom { c with k := c.k + 1, xi := c.xi * 1024 + v, nxi := c.nxi + 1 } l := by
  obtain ⟨hp, hkind, hval⟩ := isPrefix_fields (kind := 0) (by omega) (by decide) hv
  exact decodeFrom_prefix l hp (by simp [scanStep, hkind, hval, Nat.ne_of_lt hk])

theorem decodeFrom_xr (hk : c.k + b.toNat ≤ 4) (hn : n = 0xF400 + v) (h : c.xr = none) :
    decodeFrom c ((if b then [parcel n] else []) ++ l) = decodeFrom { c with k := c.k + b.toNat, xr := if b then some v else none } l := by
  obtain ⟨hp, hkind, hval⟩ := isPrefix_fields (kind := 1) (by omega) (by decide) hv
  cases b with
  | false => simp [← h]
  | true => exact decodeFrom_prefix l hp (by simp [scanStep, hkind, hval, h, Nat.ne_of_lt hk])

theorem decodeFrom_xp (hk : c.k + b.toNat ≤ 4) (hn : n = 0xF800 + v) (h : c.xp = none) :
    decodeFrom c ((if b then [parcel n] else []) ++ l) = decodeFrom { c with k := c.k + b.toNat, xp := if b then some v else none } l := by
  obtain ⟨hp, hkind, hval⟩ := isPrefix_fields (kind := 2) (by omega) (by decide) hv
  cases b with
  | false => simp [← h]
  | true => exact decodeFrom_prefix l hp (by simp [scanStep, hkind, hval, h, Nat.ne_of_lt hk])

theorem decodeFrom_xq (hk : c.k + b.toNat ≤ 4) (hn : n = 0xFC00 + v) (h : c.xq = none) :
    decodeFrom c ((if b then [parcel n] else []) ++ l) = decodeFrom { c with k := c.k + b.toNat, xq := if b then some v else none } l := by
  obtain ⟨hp, hkind, hval⟩ := isPrefix_fields (kind := 3) (by omega) (by decide) hv
  cases b with
  | false => simp [← h]
  | true => exact decodeFrom_prefix l hp (by simp [scanStep, hkind, hval, h, Nat.ne_of_lt hk])

end

/-- The XI parcels of a number join to it, most significant first (R44). -/
theorem decodeFrom_xiParcels (u : Nat) (l : List Parcel) (n : Nat) : ∀ c : Scan, c.k + n ≤ 4 →
    decodeFrom c (xiParcels u n ++ l) = decodeFrom { c with k := c.k + n, xi := c.xi * 1024 ^ n + u % 1024 ^ n, nxi := c.nxi + n } l := by
  induction n with
  | zero => intro c _; simp [xiParcels, Nat.mod_one]
  | succ n ih =>
    intro c hk
    have hjoin : (c.xi * 1024 + u / 1024 ^ n % 1024) * 1024 ^ n + u % 1024 ^ n = c.xi * 1024 ^ (n + 1) + u % 1024 ^ (n + 1) := by
      rw [Nat.pow_succ, Nat.mod_mul, Nat.add_mul, Nat.mul_assoc, Nat.mul_comm 1024, Nat.mul_comm (u / 1024 ^ n % 1024)]; omega
    rw [xiParcels, List.cons_append, decodeFrom_xi (Nat.mod_lt _ (by decide)) _ (by omega) rfl, ih _ (by simp only; omega)]
    simp only [hjoin, Nat.add_assoc, Nat.add_comm 1 n]

/-! ## All the prefixes of an instruction -/

/-- The payload of XQ (R50). -/
def xqPayload (q : Pre) : Nat := q.h.toNat * 64 + q.gen.toNat * 32 + q.inv.toNat * 16 + q.flag.toNat * 2

/-- What the prefixes of an instruction leave in the scan. -/
def scanOf (q : Pre) (page : Nat) (f : Code) (dh sh : Nat) (t : Reg) (u : Nat) : Scan :=
  { k := q.xq.toNat + q.xp.toNat + q.xr.toNat + q.nxi, xi := u, nxi := q.nxi
    xr := if q.xr then some (dh * 256 + sh * 64 + t.toNat) else none
    xp := if q.xp then some (page * 64 + f.toNat) else none
    xq := if q.xq then some (xqPayload q) else none }

theorem xqPayload_lt (q : Pre) : xqPayload q < 1024 := by
  have := q.h.isLt; have := q.flag.isLt; have := q.gen.toNat_le; have := q.inv.toNat_le
  unfold xqPayload; omega

theorem decodeFrom_prefixes {q : Pre} {page : Nat} {f : Code} {dh sh : Nat} {t : Reg} {u : Nat} (l : List Parcel)
    (hq : q.parcels ≤ 5) (hpage : page < 16) (hdh : dh < 4) (hsh : sh < 4) (hu : u < 1024 ^ q.nxi) :
    decodeFrom {} (prefixes q page f dh sh t u ++ l) = decodeFrom (scanOf q page f dh sh t u) l := by
  have hf := f.isLt
  have ht := t.isLt
  unfold Pre.parcels at hq
  simp only [prefixes, List.append_assoc]
  rw [decodeFrom_xq (xqPayload_lt q) _ q.xq (by simp only; omega) (by unfold xqPayload; omega) rfl,
    decodeFrom_xp (v := page * 64 + f.toNat) (by omega) _ q.xp (by simp only; omega) (by omega) rfl,
    decodeFrom_xr (v := dh * 256 + sh * 64 + t.toNat) (by omega) _ q.xr (by simp only; omega) (by omega) rfl,
    decodeFrom_xiParcels u l q.nxi _ (by simp only; omega), Nat.mod_eq_of_lt hu]
  simp only [scanOf, Nat.zero_add, Nat.zero_mul]

/-! ## The base parcel under its prefixes -/

/-- The fields that the decoder finds under the prefixes of `q` and a base parcel of value `b`. -/
def rawAt (q : Pre) (page : Nat) (f : Code) (dh sh : Nat) (t : Reg) (u b : Nat) : Raw :=
  { q := q, page := page, code := f, major := b / 1024, m := b % 4, d4 := b / 64 % 16, s4 := b / 4 % 16, dh := dh, sh := sh, t := t, xi := u, low := b }

/-- The fields of absent prefixes are 0: those of XQ in `q`, the page and code without XP, high bits and t without XR. -/
structure Absent (q : Pre) (page : Nat) (f : Code) (dh sh : Nat) (t : Reg) : Prop where
  xq : q.xq = false → q.h = 0 ∧ q.gen = false ∧ q.inv = false ∧ q.flag = 0
  xp : q.xp = false → page = 0 ∧ f = 0
  xr : q.xr = false → dh = 0 ∧ sh = 0 ∧ t = 0

theorem pre_of_payload (q : Pre) : BitVec.ofNat 4 (xqPayload q / 64 % 16) = q.h ∧ decide (xqPayload q / 32 % 2 = 1) = q.gen ∧
    decide (xqPayload q / 16 % 2 = 1) = q.inv ∧ BitVec.ofNat 3 (xqPayload q / 2 % 8) = q.flag ∧ xqPayload q % 2 = 0 := by
  have hh := q.h.isLt
  have hf := q.flag.isLt
  have h1 : xqPayload q / 64 % 16 = q.h.toNat := by have := q.gen.toNat_le; have := q.inv.toNat_le; unfold xqPayload; omega
  have h2 : xqPayload q / 32 % 2 = q.gen.toNat := by have := q.gen.toNat_le; have := q.inv.toNat_le; unfold xqPayload; omega
  have h3 : xqPayload q / 16 % 2 = q.inv.toNat := by have := q.gen.toNat_le; have := q.inv.toNat_le; unfold xqPayload; omega
  have h4 : xqPayload q / 2 % 8 = q.flag.toNat := by unfold xqPayload; omega
  refine ⟨by rw [h1, BitVec.ofNat_toNat, BitVec.setWidth_eq], ?_, ?_, by rw [h4, BitVec.ofNat_toNat, BitVec.setWidth_eq], by unfold xqPayload; omega⟩
  · rw [h2]; cases q.gen <;> rfl
  · rw [h3]; cases q.inv <;> rfl

theorem isSome_if (b : Bool) (v : Nat) : (if b then some v else none).isSome = b := by cases b <;> rfl

theorem getD_if {b : Bool} {v : Nat} (h : b = false → v = 0) : (if b then some v else none).getD 0 = v := by
  cases b
  · exact (h rfl).symm
  · rfl

section
variable {q : Pre} {page : Nat} {f : Code} {dh sh : Nat} {t : Reg} {u : Nat} (ha : Absent q page f dh sh t)
include ha

theorem scanOf_xq : (scanOf q page f dh sh t u).xq.getD 0 = xqPayload q :=
  getD_if fun h => by obtain ⟨h1, h2, h3, h4⟩ := ha.xq h; simp [xqPayload, h1, h2, h3, h4]

theorem scanOf_xp : (scanOf q page f dh sh t u).xp.getD 0 = page * 64 + f.toNat :=
  getD_if fun h => by obtain ⟨h1, h2⟩ := ha.xp h; simp [h1, h2]

theorem scanOf_xr : (scanOf q page f dh sh t u).xr.getD 0 = dh * 256 + sh * 64 + t.toNat :=
  getD_if fun h => by obtain ⟨h1, h2, h3⟩ := ha.xr h; simp [h1, h2, h3]

theorem rawOf_scanOf {b : Nat} (hsh : sh < 4) (hb : b < 65536) :
    rawOf (scanOf q page f dh sh t u) (parcel b) = rawAt q page f dh sh t u b := by
  have hf := f.isLt
  have ht := t.isLt
  obtain ⟨hh, hgen, hinv, hflag, -⟩ := pre_of_payload q
  have hpage : (page * 64 + f.toNat) / 64 = page := by omega
  have hcode : (page * 64 + f.toNat) % 64 = f.toNat := by omega
  have hd : (dh * 256 + sh * 64 + t.toNat) / 256 = dh := by omega
  have hs : (dh * 256 + sh * 64 + t.toNat) / 64 % 4 = sh := by omega
  have htt : (dh * 256 + sh * 64 + t.toNat) % 64 = t.toNat := by omega
  simp only [rawOf, scanOf_xq ha, scanOf_xp ha, scanOf_xr ha, parcel_toNat hb, hh, hgen, hinv, hflag, hpage, hcode, hd, hs, htt, rawAt]
  simp only [scanOf, isSome_if, BitVec.ofNat_toNat, BitVec.setWidth_eq]

theorem decode_words {b : Nat} {j : Instr} (rest : List Parcel) (hq : q.parcels ≤ 5) (hpage : page < 16) (hdh : dh < 4) (hsh : sh < 4)
    (hu : u < 1024 ^ q.nxi) (hb : b < 0xF000) (hpick : pick (rawAt q page f dh sh t u b) = .ok j) :
    decode (prefixes q page f dh sh t u ++ [parcel b] ++ rest) = .ok (j, rest) := by
  obtain ⟨-, -, -, -, heven⟩ := pre_of_payload q
  rw [decode, List.append_assoc, decodeFrom_prefixes _ hq hpage hdh hsh hu, List.singleton_append, decodeFrom,
    if_neg (by simp [not_isPrefix_parcel hb]), decodeBase, scanOf_xq ha, rawOf_scanOf ha hsh (by omega), hpick, if_neg (by omega)]

end

theorem length_xiParcels (u n : Nat) : (xiParcels u n).length = n := by
  induction n with
  | zero => rfl
  | succ n ih => rw [xiParcels, List.length_cons, ih]

theorem length_words (q : Pre) (page : Nat) (f : Code) (dh sh : Nat) (t : Reg) (u b : Nat) :
    (prefixes q page f dh sh t u ++ [parcel b]).length = q.parcels := by
  have hopt : ∀ (b : Bool) (p : Parcel), (if b then [p] else []).length = b.toNat := fun b p => by cases b <;> rfl
  simp only [prefixes, List.length_append, hopt, length_xiParcels, List.length_singleton, Pre.parcels]

/-! ## Words that say an instruction -/

/-- The parcels decode to the instruction, whatever follows them, and are one to five. -/
def Says (ps : List Parcel) (i : Instr) : Prop := (∀ rest, decode (ps ++ rest) = .ok (i, rest)) ∧ 1 ≤ ps.length ∧ ps.length ≤ 5

/-- The code that words carry: none without XP. -/
def codeIn (q : Pre) (f : Code) : Code := if q.xp then f else 0

@[simp] theorem codeIn_zero (q : Pre) : codeIn q 0#6 = 0#6 := by cases h : q.xp <;> simp [codeIn, h]

theorem prefixes_codeIn (q : Pre) (page : Nat) (f : Code) (dh sh : Nat) (t : Reg) (u : Nat) :
    prefixes q page (codeIn q f) dh sh t u = prefixes q page f dh sh t u := by
  cases hxp : q.xp <;> simp [prefixes, codeIn, hxp]

theorem preOk_parcels {q : Pre} (hq : preOk q = true) : q.parcels ≤ 5 := by
  simp only [preOk, Bool.and_eq_true, decide_eq_true_eq] at hq
  exact hq.1

theorem absent_of {q : Pre} {page : Nat} {f : Code} {dh sh : Nat} {t : Reg} (hq : preOk q = true)
    (hxp : q.xp = true ∨ page = 0) (hxr : q.xr = true ∨ (dh = 0 ∧ sh = 0 ∧ t = 0)) : Absent q page (codeIn q f) dh sh t := by
  simp only [preOk, Bool.and_eq_true, Bool.or_eq_true, decide_eq_true_eq, beq_iff_eq, Bool.not_eq_true'] at hq
  exact ⟨fun h => by simpa [h, and_assoc] using hq.2, fun h => by simpa [h, codeIn] using hxp, fun h => by simpa [h] using hxr⟩

theorem says_words {q : Pre} {page : Nat} {f : Code} {dh sh : Nat} {t : Reg} {u b : Nat} {j : Instr} (hq : preOk q = true)
    (hxp : q.xp = true ∨ page = 0) (hxr : q.xr = true ∨ (dh = 0 ∧ sh = 0 ∧ t = 0)) (hpage : page < 16) (hdh : dh < 4) (hsh : sh < 4)
    (hu : u < 1024 ^ q.nxi) (hb : b < 0xF000) (hpick : pick (rawAt q page (codeIn q f) dh sh t u b) = .ok j) :
    Says (prefixes q page f dh sh t u ++ [parcel b]) j := by
  rw [← prefixes_codeIn]
  refine ⟨fun rest => decode_words (absent_of hq hxp hxr) rest (preOk_parcels hq) hpage hdh hsh hu hb hpick, ?_⟩
  rw [length_words]
  exact ⟨by unfold Pre.parcels; omega, preOk_parcels hq⟩

/-! ## The forms (R42) -/

/-- The fields of the words of form D. -/
def rawD (q : Pre) (page major m : Nat) (f : Code) (d s t : Reg) (i : W64) : Raw :=
  { q := q, page := page, code := codeIn q f, major := major, m := m, d4 := d.toNat % 16, s4 := s.toNat % 16, dh := d.toNat / 16, sh := s.toNat / 16
    t := t, xi := i.toNat % 1024 ^ q.nxi, low := major * 1024 + d.toNat % 16 * 64 + s.toNat % 16 * 4 + m }

section
variable {q : Pre} {page major m : Nat} {f : Code} {d s t : Reg} {i : W64}

@[simp] theorem rawD_q : (rawD q page major m f d s t i).q = q := rfl
@[simp] theorem rawD_code : (rawD q page major m f d s t i).code = codeIn q f := rfl
@[simp] theorem rawD_m : (rawD q page major m f d s t i).m = m := rfl
@[simp] theorem rawD_t : (rawD q page major m f d s t i).t = t := rfl

theorem ofNat_div_mod (r : Reg) : BitVec.ofNat 6 (r.toNat / 16 * 16 + r.toNat % 16) = r := by
  rw [Nat.div_add_mod', BitVec.ofNat_toNat, BitVec.setWidth_eq]

@[simp] theorem rawD_d : (rawD q page major m f d s t i).d = d := ofNat_div_mod d
@[simp] theorem rawD_s : (rawD q page major m f d s t i).s = s := ofNat_div_mod s

theorem says_formD {j : Instr} (hq : preOk q = true) (hxp : q.xp = true ∨ page = 0) (hxr : q.xr = true ∨ (d.toNat < 16 ∧ s.toNat < 16 ∧ t = 0))
    (hbound : page < 16 ∧ major < 60 ∧ m < 4) (hpick : pick (rawD q page major m f d s t i) = .ok j) : Says (formD q page major m f d s t i) j := by
  obtain ⟨hpage, hmajor, hm⟩ := hbound
  have hd := d.isLt
  have hs := s.isLt
  refine says_words hq hxp (hxr.imp_right fun ⟨h1, h2, h3⟩ => ⟨by omega, by omega, h3⟩) hpage (by omega) (by omega) (Nat.mod_lt _ (Nat.pow_pos (by decide))) (by omega) ?_
  rw [← hpick]
  congr 1
  simp only [rawAt, rawD, Raw.mk.injEq, true_and, and_true]
  omega

@[simp] theorem rawD_codeOr {dflt : Code} (h : q.xp = true ∨ f = dflt) : (rawD q page major m f d s t i).codeOr dflt = f := by
  cases hxp : q.xp
  · simp [Raw.codeOr, hxp, (h.resolve_left (by simp [hxp]))]
  · simp [Raw.codeOr, codeIn, hxp]

/-- The XI digits of a number above its `b` low bits, joined to them (R44). -/
theorem join_digits (u b k : Nat) : u / 2 ^ b % 1024 ^ k * 2 ^ b + u % 2 ^ b = u % 2 ^ (10 * k + b) := by
  have hpow : (2 : Nat) ^ (10 * k + b) = 2 ^ b * 1024 ^ k := by rw [Nat.pow_add, Nat.pow_mul, Nat.mul_comm]
  rw [hpow, Nat.mod_mul, Nat.mul_comm (2 ^ b), Nat.add_comm]

theorem imm_of_fits {r : Raw} {b n : Nat} (h : fits i n = true) (hn : n = 10 * r.q.nxi + b) (hxi : r.xi = i.toNat / 2 ^ b % 1024 ^ r.q.nxi)
    (hlow : r.low % 2 ^ b = i.toNat % 2 ^ b) : r.imm b = i := by
  rw [Raw.imm, hxi, hlow, join_digits, ← hn]
  exact beq_iff_eq.1 h

theorem rawD_imm (h : fits i (10 * q.nxi) = true) : (rawD q page major m f d s t i).imm 0 = i :=
  imm_of_fits h rfl (by simp [rawD]) (by simp [Nat.mod_one])

/-- The fields of the words of form I. -/
def rawI (q : Pre) (major : Nat) (d : Reg) (i : W64) : Raw :=
  let low := major * 1024 + d.toNat % 16 * 64 + i.toNat % 64
  { q := q, page := 0, code := codeIn q 0, major := major, m := low % 4, d4 := d.toNat % 16, s4 := low / 4 % 16, dh := d.toNat / 16, sh := 0, t := 0
    xi := i.toNat / 64 % 1024 ^ q.nxi, low := low }

@[simp] theorem rawI_d : (rawI q major d i).d = d := ofNat_div_mod d
theorem rawI_imm (h : fits i (6 + 10 * q.nxi) = true) : (rawI q major d i).imm 6 = i :=
  imm_of_fits h (Nat.add_comm _ _) rfl (by simp only [rawI]; omega)

theorem says_formI {j : Instr} (hq : preOk q = true) (hxr : q.xr = true ∨ d.toNat < 16)
    (hmajor : major < 60) (hpick : pick (rawI q major d i) = .ok j) : Says (formI q major d i) j := by
  have hd := d.isLt
  refine says_words hq (.inr rfl) (hxr.imp_right fun h => ⟨by omega, rfl, rfl⟩) (by decide) (by omega) (by decide) (Nat.mod_lt _ (Nat.pow_pos (by decide))) (by omega) ?_
  rw [← hpick]
  congr 1
  simp only [rawAt, rawI, Raw.mk.injEq, true_and, and_true]
  omega

/-- The fields of the words of forms J and Z: `n` in the base parcel's low ten bits, `u` in XI. -/
def rawJ (q : Pre) (page major n u : Nat) : Raw :=
  { q := q, page := page, code := codeIn q 0, major := major, m := n % 4, d4 := n / 64 % 16, s4 := n / 4 % 16, dh := 0, sh := 0, t := 0
    xi := u, low := major * 1024 + n }

theorem says_rawJ {j : Instr} {n u : Nat} (hq : preOk q = true) (hxp : q.xp = true ∨ page = 0) (hbound : page < 16 ∧ major < 60) (hn : n < 1024)
    (hu : u < 1024 ^ q.nxi) (hpick : pick (rawJ q page major n u) = .ok j) : Says (prefixes q page 0 0 0 0 u ++ [parcel (major * 1024 + n)]) j := by
  obtain ⟨hpage, hmajor⟩ := hbound
  refine says_words hq hxp (.inr ⟨rfl, rfl, rfl⟩) hpage (by decide) (by decide) hu (by omega) ?_
  rw [← hpick]
  congr 1
  simp only [rawAt, rawJ, Raw.mk.injEq, true_and, and_true]
  omega

theorem rawJ_imm (h : fits i (10 + 10 * q.nxi) = true) : (rawJ q page major (i.toNat % 1024) (i.toNat / 1024 % 1024 ^ q.nxi)).imm 10 = i :=
  imm_of_fits h (Nat.add_comm _ _) rfl (by simp only [rawJ]; omega)

end

/-! ## The heads of well-formedness -/

/-- What precedes the operands in the test of a row of a page: prefixes that can be, with XP for a page other than 0. -/
def Heads (a : Bool) (q : Pre) (page : Nat) : Prop := a = true → preOk q = true ∧ (q.xp = true ∨ page = 0)

theorem heads_zero {q : Pre} : Heads (preOk q) q 0 := fun h => ⟨h, .inr rfl⟩
theorem heads_paged {q : Pre} {page : Nat} : Heads (q.xp && preOk q) q page := fun h => by
  obtain ⟨hxp, hq⟩ := Bool.and_eq_true_iff.1 h
  exact ⟨hq, .inl hxp⟩

section
variable {a : Bool} {q : Pre} {page major m : Nat} {f : Code} {d s t x y : Reg} {i : W64}

theorem heads_noXi {w : Bool} (ha : Heads a q page) (h : (a && q.nxi == 0 && w) = true) :
    preOk q = true ∧ (q.xp = true ∨ page = 0) ∧ q.nxi = 0 ∧ w = true := by
  simp only [Bool.and_eq_true, beq_iff_eq] at h
  obtain ⟨⟨h, hn⟩, hw⟩ := h
  obtain ⟨hq, hxp⟩ := ha h
  exact ⟨hq, hxp, hn, hw⟩

/-- A typed row of page 0 has its default code without XP. -/
theorem typed_zero {b ok : Bool} {dflt : Code} (h : (b && (q.xp || f == dflt) && ok) = true) : b = true ∧ (q.xp = true ∨ f = dflt) := by
  simp only [Bool.and_eq_true, Bool.or_eq_true, beq_iff_eq] at h
  exact h.1

/-- A typed row of another page has XP. -/
theorem typed_paged {b n w ok : Bool} {dflt : Code} (h : (q.xp && b && n && w && ok) = true) :
    (q.xp && b && n && w) = true ∧ (q.xp = true ∨ f = dflt) := by
  simp only [Bool.and_eq_true] at h ⊢
  exact ⟨h.1, .inl h.1.1.1.1⟩

theorem within_iff : within q d s = true ↔ q.xr = true ∨ (d.toNat < 16 ∧ s.toNat < 16) := by simp [within]

theorem within_source (h : within q d s = true) : q.xr = true ∨ (d.toNat < 16 ∧ s.toNat < 16 ∧ (0 : Reg) = 0) :=
  (within_iff.1 h).imp_right fun ⟨h1, h2⟩ => ⟨h1, h2, rfl⟩

theorem twoAddress_noXr (hxr : q.xr = false) (h : twoAddress q d x y = true) : x = d ∧ d.toNat < 16 ∧ y.toNat < 16 := by
  simp only [twoAddress, within, hxr, Bool.false_or, Bool.and_eq_true, decide_eq_true_eq, beq_iff_eq] at h
  exact ⟨h.2, h.1⟩

theorem compared_fields (h : compared q x y = true) (hd : q.xr = true ∨ d.toNat < 16) :
    q.xr = true ∨ (d.toNat < 16 ∧ x.toNat < 16 ∧ y = 0) := by
  simp only [compared, Bool.or_eq_true, Bool.and_eq_true, decide_eq_true_eq, beq_iff_eq] at h
  exact h.elim .inl fun ⟨h1, h2⟩ => hd.imp_right fun h => ⟨h, h1, h2⟩

/-! ## Each operand shape says its instruction (R42, R44, R45) -/

theorem says_two (c : Pre → Reg → Reg → Reg → Instr) (ha : Heads a q page) (h : (a && q.nxi == 0 && twoAddress q d x y) = true)
    (hbound : page < 16 ∧ major < 60 ∧ m < 4 := by decide)
    (hpick : ∀ s t, pick (rawD q page major m 0 d s t 0) = shapeTwo (rawD q page major m 0 d s t 0) c := by intros; rfl) :
    Says (if q.xr then formD q page major m 0 d x y 0 else formD q page major m 0 d y 0 0) (c q d x y) := by
  obtain ⟨hq, hxp, hn, hw⟩ := heads_noXi ha h
  cases hxr : q.xr
  · obtain ⟨rfl, hd, hy⟩ := twoAddress_noXr hxr hw
    exact says_formD hq hxp (.inr ⟨hd, hy, rfl⟩) hbound (by rw [hpick]; simp [shapeTwo, checked, noXi, noType, hn, hxr])
  · exact says_formD hq hxp (.inl hxr) hbound (by rw [hpick]; simp [shapeTwo, checked, noXi, noType, hn, hxr])

theorem says_twoF (c : Pre → Code → Reg → Reg → Reg → Instr) (dflt : Code) (ha : Heads a q page)
    (h : (a && q.nxi == 0 && twoAddress q d x y) = true ∧ (q.xp = true ∨ f = dflt)) (hbound : page < 16 ∧ major < 60 ∧ m < 4 := by decide)
    (hpick : ∀ s t, pick (rawD q page major m f d s t 0) = shapeTwoF (rawD q page major m f d s t 0) dflt c := by intros; rfl) :
    Says (if q.xr then formD q page major m f d x y 0 else formD q page major m f d y 0 0) (c q f d x y) := by
  obtain ⟨h, hcode⟩ := h
  obtain ⟨hq, hxp, hn, hw⟩ := heads_noXi ha h
  cases hxr : q.xr
  · obtain ⟨rfl, hd, hy⟩ := twoAddress_noXr hxr hw
    exact says_formD hq hxp (.inr ⟨hd, hy, rfl⟩) hbound (by rw [hpick]; simp [shapeTwoF, checked, noXi, hn, hxr, hcode])
  · exact says_formD hq hxp (.inl hxr) hbound (by rw [hpick]; simp [shapeTwoF, checked, noXi, hn, hxr, hcode])

theorem says_un (c : Pre → Reg → Reg → Instr) (ha : Heads a q page) (h : (a && q.nxi == 0 && within q d s) = true)
    (hbound : page < 16 ∧ major < 60 ∧ m < 4 := by decide)
    (hpick : pick (rawD q page major m 0 d s 0 0) = shapeUn (rawD q page major m 0 d s 0 0) c := by rfl) :
    Says (formD q page major m 0 d s 0 0) (c q d s) := by
  obtain ⟨hq, hxp, hn, hw⟩ := heads_noXi ha h
  exact says_formD hq hxp (within_source hw) hbound (by rw [hpick]; simp [shapeUn, checked, noXi, noType, noT, hn])

theorem says_unF (c : Pre → Code → Reg → Reg → Instr) (dflt : Code) (ha : Heads a q page)
    (h : (a && q.nxi == 0 && within q d s) = true ∧ (q.xp = true ∨ f = dflt)) (hbound : page < 16 ∧ major < 60 ∧ m < 4 := by decide)
    (hpick : pick (rawD q page major m f d s 0 0) = shapeUnF (rawD q page major m f d s 0 0) dflt c := by rfl) :
    Says (formD q page major m f d s 0 0) (c q f d s) := by
  obtain ⟨h, hcode⟩ := h
  obtain ⟨hq, hxp, hn, hw⟩ := heads_noXi ha h
  exact says_formD hq hxp (within_source hw) hbound (by rw [hpick]; simp [shapeUnF, checked, noXi, noT, hn, hcode])

theorem says_three (c : Pre → Reg → Reg → Reg → Instr) (ha : Heads a q page) (h : (a && q.nxi == 0 && q.xr) = true)
    (hbound : page < 16 ∧ major < 60 ∧ m < 4 := by decide)
    (hpick : pick (rawD q page major m 0 d s t 0) = shapeThree (rawD q page major m 0 d s t 0) c := by rfl) :
    Says (formD q page major m 0 d s t 0) (c q d s t) := by
  obtain ⟨hq, hxp, hn, hxr⟩ := heads_noXi ha h
  exact says_formD hq hxp (.inl hxr) hbound (by rw [hpick]; simp [shapeThree, checked, noXi, noType, needXr, hn, hxr])

theorem says_threeF (c : Pre → Code → Reg → Reg → Reg → Instr) (dflt : Code) (ha : Heads a q page)
    (h : (a && q.nxi == 0 && q.xr) = true ∧ (q.xp = true ∨ f = dflt)) (hbound : page < 16 ∧ major < 60 ∧ m < 4 := by decide)
    (hpick : pick (rawD q page major m f d s t 0) = shapeThreeF (rawD q page major m f d s t 0) dflt c := by rfl) :
    Says (formD q page major m f d s t 0) (c q f d s t) := by
  obtain ⟨h, hcode⟩ := h
  obtain ⟨hq, hxp, hn, hxr⟩ := heads_noXi ha h
  exact says_formD hq hxp (.inl hxr) hbound (by rw [hpick]; simp [shapeThreeF, checked, noXi, needXr, hn, hxr, hcode])

theorem says_disp (c : Pre → Reg → Reg → W64 → Instr) (ha : Heads a q page) (h : (a && within q d s && fits i (10 * q.nxi)) = true)
    (hbound : page < 16 ∧ major < 60 ∧ m < 4 := by decide)
    (hpick : pick (rawD q page major m 0 d s 0 i) = shapeDisp (rawD q page major m 0 d s 0 i) c := by rfl) :
    Says (formD q page major m 0 d s 0 i) (c q d s i) := by
  simp only [Bool.and_eq_true] at h
  obtain ⟨⟨h, hw⟩, hi⟩ := h
  obtain ⟨hq, hxp⟩ := ha h
  exact says_formD hq hxp (within_source hw) hbound (by rw [hpick]; simp [shapeDisp, checked, noType, noT, rawD_imm hi])

theorem says_dispF (c : Pre → Code → Reg → Reg → W64 → Instr) (dflt : Code) (ha : Heads a q page)
    (h : (a && within q d s && fits i (10 * q.nxi)) = true ∧ (q.xp = true ∨ f = dflt)) (hbound : page < 16 ∧ major < 60 ∧ m < 4 := by decide)
    (hpick : pick (rawD q page major m f d s 0 i) = shapeDispF (rawD q page major m f d s 0 i) dflt c := by rfl) :
    Says (formD q page major m f d s 0 i) (c q f d s i) := by
  obtain ⟨h, hcode⟩ := h
  simp only [Bool.and_eq_true] at h
  obtain ⟨⟨h, hw⟩, hi⟩ := h
  obtain ⟨hq, hxp⟩ := ha h
  exact says_formD hq hxp (within_source hw) hbound (by rw [hpick]; simp [shapeDispF, checked, noT, hcode, rawD_imm hi])

theorem says_polF (c : Pre → Code → Reg → Reg → Reg → W64 → Instr) (dflt : Code) (ha : Heads a q page)
    (h : (a && q.xr && fits i (10 * q.nxi)) = true ∧ (q.xp = true ∨ f = dflt)) (hbound : page < 16 ∧ major < 60 ∧ m < 4 := by decide)
    (hpick : pick (rawD q page major m f d s t i) = shapePolF (rawD q page major m f d s t i) dflt c := by rfl) :
    Says (formD q page major m f d s t i) (c q f d s t i) := by
  obtain ⟨h, hcode⟩ := h
  simp only [Bool.and_eq_true] at h
  obtain ⟨⟨h, hxr⟩, hi⟩ := h
  obtain ⟨hq, hxp⟩ := ha h
  exact says_formD hq hxp (.inl hxr) hbound (by rw [hpick]; simp [shapePolF, checked, needXr, hxr, hcode, rawD_imm hi])

/-! ### Compares -/

theorem flag_toNat (k : Flag) : (k.setWidth 6).toNat = k.toNat := by
  have := k.isLt
  rw [BitVec.toNat_setWidth]; omega

theorem flag_reg (k : Flag) : (k.setWidth 6).setWidth 3 = k := by
  rw [BitVec.setWidth_setWidth_of_le _ (by decide), BitVec.setWidth_eq]

theorem flag_low (k : Flag) : (k.setWidth 6).toNat < 16 := by
  have := k.isLt
  rw [flag_toNat]; omega

theorem says_cmp {k : Flag} (c : Pre → Flag → Reg → Reg → Instr) (ha : Heads a q page) (h : (a && q.nxi == 0 && compared q x y) = true)
    (hbound : page < 16 ∧ major < 60 ∧ m < 4 := by decide)
    (hpick : pick (rawD q page major m 0 (k.setWidth 6) x y 0) = shapeCmp (rawD q page major m 0 (k.setWidth 6) x y 0) c := by rfl) :
    Says (formD q page major m 0 (k.setWidth 6) x y 0) (c q k x y) := by
  obtain ⟨hq, hxp, hn, hw⟩ := heads_noXi ha h
  have hk : (k.setWidth 6).toNat < 8 := by rw [flag_toNat]; exact k.isLt
  refine says_formD hq hxp (compared_fields hw (.inr (flag_low k))) hbound ?_
  rw [hpick, shapeCmp]
  simp only [rawD_d, rawD_s, rawD_t, rawD_q, flag_reg, checked, noXi, noType, hn, hk, rawD_code, BitVec.ofNat_eq_ofNat, codeIn_zero, decide_true, beq_self_eq_true, if_true]

theorem says_cmpF {ok : Bool} (c : Pre → Code → Reg → Reg → Reg → Instr)
    (h : (q.xp && preOk q && q.nxi == 0 && compared q x y && (f != 19 || decide (d.toNat < 8)) && (q.xr || decide (d.toNat < 16)) && ok) = true)
    (hbound : page < 16 ∧ major < 60 ∧ m < 4 := by decide)
    (hpick : pick (rawD q page major m f d x y 0) = shapeCmpF (rawD q page major m f d x y 0) 0 c := by rfl) :
    Says (formD q page major m f d x y 0) (c q f d x y) := by
  simp only [Bool.and_eq_true, beq_iff_eq] at h
  obtain ⟨⟨⟨⟨⟨⟨hxp, hq⟩, hn⟩, hw⟩, hflag⟩, hd⟩, -⟩ := h
  refine says_formD hq (.inl hxp) (compared_fields hw (by simpa using hd)) hbound ?_
  rw [hpick]
  simp only [bne_iff_ne, Bool.or_eq_true, decide_eq_true_eq] at hflag
  have hflag' : f = 19 → d.toNat < 8 := fun h => hflag.resolve_left (not_not_intro h)
  simpa [shapeCmpF, checked, noXi, hn, codeIn, hxp] using hflag'

/-! ### One operand, or none -/

section
variable (ha : Heads a q page)
include ha

theorem says_src (c : Pre → Reg → Instr) (h : (a && q.nxi == 0 && (q.xr || decide (s.toNat < 16))) = true)
    (hbound : page < 16 ∧ major < 60 ∧ m < 4 := by decide)
    (hpick : pick (rawD q page major m 0 0 s 0 0) = shapeSrc (rawD q page major m 0 0 s 0 0) c := by rfl) :
    Says (formD q page major m 0 0 s 0 0) (c q s) := by
  obtain ⟨hq, hxp, hn, hw⟩ := heads_noXi ha h
  simp only [Bool.or_eq_true, decide_eq_true_eq] at hw
  exact says_formD hq hxp (hw.imp_right fun h => ⟨by decide, h, rfl⟩) hbound (by rw [hpick]; simp [shapeSrc, checked, noXi, noType, noD, noT, hn])

theorem says_dst (c : Pre → Reg → Instr) (h : (a && q.nxi == 0 && (q.xr || decide (d.toNat < 16))) = true)
    (hbound : page < 16 ∧ major < 60 ∧ m < 4 := by decide)
    (hpick : pick (rawD q page major m 0 d 0 0 0) = shapeDst (rawD q page major m 0 d 0 0 0) c := by rfl) :
    Says (formD q page major m 0 d 0 0 0) (c q d) := by
  obtain ⟨hq, hxp, hn, hw⟩ := heads_noXi ha h
  simp only [Bool.or_eq_true, decide_eq_true_eq] at hw
  exact says_formD hq hxp (hw.imp_right fun h => ⟨h, by decide, rfl⟩) hbound (by rw [hpick]; simp [shapeDst, checked, noXi, noType, noS, noT, hn])

theorem says_dstT (c : Pre → Reg → Reg → Instr) (h : (a && q.nxi == 0 && (q.xr || (decide (d.toNat < 16) && t == 0))) = true)
    (hbound : page < 16 ∧ major < 60 ∧ m < 4 := by decide)
    (hpick : pick (rawD q page major m 0 d 0 t 0) = shapeDstT (rawD q page major m 0 d 0 t 0) c := by rfl) :
    Says (formD q page major m 0 d 0 t 0) (c q d t) := by
  obtain ⟨hq, hxp, hn, hw⟩ := heads_noXi ha h
  simp only [Bool.or_eq_true, Bool.and_eq_true, decide_eq_true_eq, beq_iff_eq] at hw
  exact says_formD hq hxp (hw.imp_right fun ⟨h, ht⟩ => ⟨h, by decide, ht⟩) hbound (by rw [hpick]; simp [shapeDstT, checked, noXi, noType, noS, hn])

theorem says_bare (c : Pre → Instr) (h : (a && q.nxi == 0) = true) (hbound : page < 16 ∧ major < 60 ∧ m < 4 := by decide)
    (hpick : pick (rawD q page major m 0 0 0 0 0) = shapeBare (rawD q page major m 0 0 0 0 0) c := by rfl) :
    Says (formD q page major m 0 0 0 0 0) (c q) := by
  simp only [Bool.and_eq_true, beq_iff_eq] at h
  obtain ⟨h, hn⟩ := h
  obtain ⟨hq, hxp⟩ := ha h
  exact says_formD hq hxp (.inr ⟨by decide, by decide, rfl⟩) hbound (by rw [hpick]; simp [shapeBare, checked, noXi, noType, noD, noS, noT, hn])

theorem says_bareNoXr (c : Pre → Instr) (h : (a && q.nxi == 0 && !q.xr) = true) (hbound : page < 16 ∧ major < 60 ∧ m < 4 := by decide)
    (hpick : pick (rawD q page major m 0 0 0 0 0) = shapeBareNoXr (rawD q page major m 0 0 0 0 0) c := by rfl) :
    Says (formD q page major m 0 0 0 0 0) (c q) := by
  obtain ⟨hq, hxp, hn, hw⟩ := heads_noXi ha h
  exact says_formD hq hxp (.inr ⟨by decide, by decide, rfl⟩) hbound
    (by rw [hpick]; simp [shapeBareNoXr, checked, noXr, noXi, noType, noD, noS, hn, (Bool.not_eq_true' _).mp hw])

/-! ### Special operands: PREF, scopes, ports, flags -/

theorem says_pref (c : Pre → Reg → Reg → W64 → Instr)
    (h : (a && (q.xr || (decide (s.toNat < 16) && t == 0)) && fits i (10 * q.nxi)) = true) (hbound : page < 16 ∧ major < 60 ∧ m < 4 := by decide)
    (hpick : pick (rawD q page major m 0 0 s t i) = shapePref (rawD q page major m 0 0 s t i) c := by rfl) :
    Says (formD q page major m 0 0 s t i) (c q s t i) := by
  simp only [Bool.and_eq_true, Bool.or_eq_true, decide_eq_true_eq, beq_iff_eq] at h
  obtain ⟨⟨h, hw⟩, hi⟩ := h
  obtain ⟨hq, hxp⟩ := ha h
  exact says_formD hq hxp (hw.imp_right fun ⟨hs, ht⟩ => ⟨by decide, hs, ht⟩) hbound (by rw [hpick]; simp [shapePref, checked, noType, noD, rawD_imm hi])

theorem says_port {port : BitVec 2} {out : Bool} (c : Pre → Reg → BitVec 2 → Bool → Instr)
    (h : (a && q.nxi == 0 && (q.xr || decide (d.toNat < 16))) = true) (hbound : page < 16 ∧ major < 60 ∧ m < 4 := by decide)
    (hpick : ∀ s, pick (rawD q page major m 0 d s 0 0) = shapePort (rawD q page major m 0 d s 0 0) c := by intros; rfl) :
    Says (formD q page major m 0 d (port.setWidth 6 + if out then 4 else 0) 0 0) (c q d port out) := by
  obtain ⟨hq, hxp, hn, hw⟩ := heads_noXi ha h
  simp only [Bool.or_eq_true, decide_eq_true_eq] at hw
  have hp := port.isLt
  have hs : (port.setWidth 6 + if out then 4 else 0 : Reg).toNat = port.toNat + 4 * out.toNat := by
    cases out <;> simp [BitVec.toNat_add, BitVec.toNat_setWidth] <;> omega
  generalize (port.setWidth 6 + if out then 4 else 0 : Reg) = r at hs ⊢
  have hside : (port.toNat + 4 * out.toNat) % 16 % 4 = port.toNat := by omega
  have hdir : (port.toNat + 4 * out.toNat) % 16 / 4 % 2 = out.toNat := by have := out.toNat_le; omega
  have hlt : port.toNat + 4 * out.toNat < 8 := by have := out.toNat_le; omega
  refine says_formD hq hxp (hw.imp_right fun h => ⟨h, by rw [hs]; omega, rfl⟩) hbound ?_
  rw [hpick, shapePort]
  simp only [rawD_s, hs, hlt, checked, noXi, noType, noT, hn, rawD_q, rawD_d, rawD_t, rawD_code, BitVec.ofNat_eq_ofNat, codeIn_zero, decide_true, beq_self_eq_true, if_true]
  simp only [rawD, hs, hside, hdir, BitVec.ofNat_toNat, BitVec.setWidth_eq]
  cases out <;> rfl

end

theorem says_scope {sc : BitVec 3} (c : Pre → BitVec 3 → Instr) (h : (q.xp && preOk q && q.nxi == 0 && decide (sc.toNat < 6)) = true)
    (hbound : page < 16 ∧ major < 60 ∧ m < 4 := by decide)
    (hpick : pick (rawD q page major m (sc.setWidth 6) 0 0 0 0) = shapeScope (rawD q page major m (sc.setWidth 6) 0 0 0 0) c := by rfl) :
    Says (formD q page major m (sc.setWidth 6) 0 0 0 0) (c q sc) := by
  simp only [Bool.and_eq_true, beq_iff_eq, decide_eq_true_eq] at h
  obtain ⟨⟨⟨hxp, hq⟩, hn⟩, hsc⟩ := h
  refine says_formD hq (.inl hxp) (.inr ⟨by decide, by decide, rfl⟩) hbound ?_
  rw [hpick, shapeScope]
  have hcode : codeIn q (sc.setWidth 6) = sc.setWidth 6 := if_pos hxp
  simp only [rawD_code, hcode, flag_toNat, flag_reg, hsc, checked, noXi, noD, noS, noT, hn, rawD_q, rawD_d, rawD_s, rawD_t, decide_true, beq_self_eq_true, if_true]

theorem says_flags {k1 k2 k3 : Flag} (c : Pre → Flag → Flag → Flag → Instr) (h : (preOk q && q.nxi == 0 && (q.xr || k2 == k1)) = true)
    (hbound : 0 < 16 ∧ major < 60 ∧ m < 4 := by decide)
    (hpick : ∀ s t, pick (rawD q 0 major m 0 (k1.setWidth 6) s t 0) = shapeFlags (rawD q 0 major m 0 (k1.setWidth 6) s t 0) c := by intros; rfl) :
    Says (if q.xr then formD q 0 major m 0 (k1.setWidth 6) (k2.setWidth 6) (k3.setWidth 6) 0 else formD q 0 major m 0 (k1.setWidth 6) (k3.setWidth 6) 0 0)
      (c q k1 k2 k3) := by
  obtain ⟨hq, hxp, hn, hw⟩ := heads_noXi heads_zero h
  have hk : ∀ k : Flag, (k.setWidth 6).toNat < 8 := fun k => by rw [flag_toNat]; exact k.isLt
  cases hxr : q.xr
  · obtain rfl : k2 = k1 := by simpa [hxr] using hw
    refine says_formD hq hxp (.inr ⟨flag_low _, flag_low _, rfl⟩) hbound ?_
    rw [hpick, shapeFlags]
    simp only [rawD_d, rawD_s, rawD_t, rawD_q, flag_reg, checked, noXi, noType, hn, hk, rawD_code, BitVec.ofNat_eq_ofNat, codeIn_zero, hxr]
    rfl
  · refine says_formD hq hxp (.inl hxr) hbound ?_
    rw [hpick, shapeFlags]
    simp only [rawD_d, rawD_s, rawD_t, rawD_q, flag_reg, checked, noXi, noType, hn, hk, rawD_code, BitVec.ofNat_eq_ofNat, codeIn_zero, hxr]
    rfl

theorem says_flag1 {k1 k2 : Flag} (c : Pre → Flag → Flag → Instr) (h : (preOk q && q.nxi == 0) = true) (hbound : 0 < 16 ∧ major < 60 ∧ m < 4 := by decide)
    (hpick : pick (rawD q 0 major m 0 (k1.setWidth 6) (k2.setWidth 6) 0 0) = shapeFlag1 (rawD q 0 major m 0 (k1.setWidth 6) (k2.setWidth 6) 0 0) c := by rfl) :
    Says (formD q 0 major m 0 (k1.setWidth 6) (k2.setWidth 6) 0 0) (c q k1 k2) := by
  simp only [Bool.and_eq_true, beq_iff_eq] at h
  obtain ⟨hq, hn⟩ := h
  have hk : ∀ k : Flag, (k.setWidth 6).toNat < 8 := fun k => by rw [flag_toNat]; exact k.isLt
  refine says_formD hq (.inr rfl) (.inr ⟨flag_low _, flag_low _, rfl⟩) hbound ?_
  rw [hpick, shapeFlag1]
  simp only [rawD_d, rawD_s, rawD_t, rawD_q, flag_reg, checked, noXi, noType, noT, hn, hk, rawD_code, BitVec.ofNat_eq_ofNat, codeIn_zero]
  rfl

/-! ### Conversions and atomics -/

theorem says_convert {vec ok ok' : Bool} (h : (q.xp && preOk q && q.nxi == 0 && q.xr && ok && ok') = true) :
    Says (formD q 1 0x04 vec.toNat f d s t 0) (.fcvt q f vec d s t) := by
  simp only [Bool.and_eq_true, beq_iff_eq] at h
  obtain ⟨⟨⟨⟨⟨hxp, hq⟩, hn⟩, hxr⟩, -⟩, -⟩ := h
  have hpick : pick (rawD q 1 0x04 vec.toNat f d s t 0) = convert (rawD q 1 0x04 vec.toNat f d s t 0) vec := by cases vec <;> rfl
  refine says_formD hq (.inl hxp) (.inl hxr) ⟨by decide, by decide, by have := vec.toNat_le; omega⟩ ?_
  rw [hpick]
  simp [convert, checked, noXi, needXr, hn, hxr, codeIn, hxp]

theorem okWidth_lt {op : Nat} {w : BitVec 2} (h : okWidth op w = true) : w.toNat < 3 := by
  have hw : w = 0 ∨ w = 1 ∨ w = 2 := by
    unfold okWidth at h
    split at h
    · exact .inr (.inl (beq_iff_eq.1 h))
    · split at h
      · exact .inl (beq_iff_eq.1 h)
      · simp only [Bool.or_eq_true, Bool.and_eq_true, beq_iff_eq] at h
        exact h.elim (fun h => h.elim .inl fun h1 => .inr (.inl h1)) fun h2 => .inr (.inr h2.1)
  rcases hw with rfl | rfl | rfl <;> decide

theorem says_atom {w : BitVec 2} (c : Pre → BitVec 2 → Reg → Reg → Reg → Instr) (h : (q.xp && preOk q && q.nxi == 0 && q.xr) = true) (hw : w.toNat < 3)
    (hatom : ∀ r : Raw, r.code = f → r.m = w.toNat → atomPick r = .ok (c r.q (BitVec.ofNat 2 r.m) r.d r.s r.t) := by
      intro r h h'; simp [atomPick, h, h']) :
    Says (formD q 2 0 w.toNat f d s t 0) (c q w d s t) := by
  simp only [Bool.and_eq_true, beq_iff_eq] at h
  obtain ⟨⟨⟨hxp, hq⟩, hn⟩, hxr⟩ := h
  refine says_formD hq (.inl hxp) (.inl hxr) ⟨by decide, by decide, by omega⟩ ?_
  show atomOp (rawD q 2 0 w.toNat f d s t 0) = _
  rw [atomOp, hatom _ (if_pos hxp) rfl]
  simp [checked, noXi, needXr, hn, hxr, hw]

theorem says_red {w : BitVec 2} (c : Pre → BitVec 2 → Reg → Reg → Instr) (h : (q.xp && preOk q && q.nxi == 0 && q.xr) = true) (hw : w.toNat < 3)
    (hred : ∀ r : Raw, r.code = f → r.m = w.toNat → redPick r = .ok (c r.q (BitVec.ofNat 2 r.m) r.s r.t) := by
      intro r h h'; simp [redPick, h, h']) :
    Says (formD q 2 1 w.toNat f 0 s t 0) (c q w s t) := by
  simp only [Bool.and_eq_true, beq_iff_eq] at h
  obtain ⟨⟨⟨hxp, hq⟩, hn⟩, hxr⟩ := h
  refine says_formD hq (.inl hxp) (.inl hxr) ⟨by decide, by decide, by omega⟩ ?_
  show redOp (rawD q 2 1 w.toNat f 0 s t 0) = _
  rw [redOp, hred _ (if_pos hxp) rfl]
  simp [checked, noXi, needXr, noD, hn, hxr, hw]

/-! ### Forms I, J and Z -/

theorem says_imm (c : Pre → Reg → W64 → Instr) (h : (preOk q && (q.xr || decide (d.toNat < 16)) && fits i (6 + 10 * q.nxi)) = true)
    (hmajor : major < 60 := by decide) (hpick : pick (rawI q major d i) = shapeImm (rawI q major d i) c := by rfl) :
    Says (formI q major d i) (c q d i) := by
  simp only [Bool.and_eq_true, Bool.or_eq_true, decide_eq_true_eq] at h
  obtain ⟨⟨hq, hd⟩, hi⟩ := h
  refine says_formI hq hd hmajor ?_
  rw [hpick, shapeImm, rawI_imm hi, rawI_d]
  simp [checked, noType, noT, rawI]

theorem says_immOnly {ok : Bool} (c : Pre → W64 → Instr) (h : (preOk q && fits i (6 + 10 * q.nxi) && ok) = true)
    (hmajor : major < 60 := by decide) (hpick : pick (rawI q major 0 i) = shapeImmOnly (rawI q major 0 i) c := by rfl) :
    Says (formI q major 0 i) (c q i) := by
  simp only [Bool.and_eq_true] at h
  obtain ⟨⟨hq, hi⟩, -⟩ := h
  refine says_formI hq (.inr (by decide)) hmajor ?_
  rw [hpick, shapeImmOnly, rawI_imm hi]
  simp only [noD, rawI_d]
  simp [checked, noType, noT, rawI]

/-- BF and BT: the flag in the low bits of d, the sense in its bit 3 (R211). -/
theorem says_branch {k : Flag} {j : Instr} (hd : d.toNat = k.toNat ∨ d.toNat = k.toNat + 8) (h : (preOk q && fits i (6 + 10 * q.nxi)) = true)
    (hj : j = if d.toNat / 8 = 1 then .bt q k i else .bf q k i) : Says (formI q 0x14 d i) j := by
  have hk := k.isLt
  simp only [Bool.and_eq_true] at h
  obtain ⟨hq, hi⟩ := h
  refine says_formI hq (.inr (by omega)) (by decide) ?_
  show branch (rawI q 0x14 d i) = _
  have hlow : d.toNat % 16 = d.toNat := by omega
  have hhigh : d.toNat / 16 = 0 := by omega
  have hflag : BitVec.ofNat 3 (d.toNat % 8) = k := by
    rw [show d.toNat % 8 = k.toNat by omega, BitVec.ofNat_toNat, BitVec.setWidth_eq]
  rw [branch, rawI_imm hi, hj]
  simp [checked, noType, noT, rawI, hlow, hhigh, hflag]

theorem says_bf {k : Flag} (h : (preOk q && fits i (6 + 10 * q.nxi)) = true) : Says (formI q 0x14 (k.setWidth 6) i) (.bf q k i) :=
  says_branch (.inl (flag_toNat k)) h (by rw [flag_toNat, if_neg]; have := k.isLt; omega)

theorem says_bt {k : Flag} (h : (preOk q && fits i (6 + 10 * q.nxi)) = true) : Says (formI q 0x14 (k.setWidth 6 + 8) i) (.bt q k i) := by
  have hk := k.isLt
  have hd : (k.setWidth 6 + 8 : Reg).toNat = k.toNat + 8 := by
    rw [BitVec.toNat_add, flag_toNat]; show (k.toNat + 8) % 64 = _; omega
  exact says_branch (.inr hd) h (by rw [hd, if_pos]; omega)

theorem says_off (c : Pre → W64 → Instr) (h : (preOk q && !q.xr && decide (q.nxi ≤ 3) && fits i (10 + 10 * q.nxi)) = true)
    (hmajor : major < 60 := by decide) (hpick : ∀ n u, pick (rawJ q 0 major n u) = shapeOff (rawJ q 0 major n u) c := by intros; rfl) :
    Says (formJ q major i) (c q i) := by
  simp only [Bool.and_eq_true, Bool.not_eq_true', decide_eq_true_eq] at h
  obtain ⟨⟨⟨hq, hxr⟩, hn⟩, hi⟩ := h
  refine says_rawJ hq (.inr rfl) ⟨by decide, hmajor⟩ (Nat.mod_lt _ (by decide)) (Nat.mod_lt _ (Nat.pow_pos (by decide))) ?_
  rw [hpick, shapeOff, rawJ_imm hi]
  simp [checked, noXr, noType, rawJ, hxr, hn]

theorem says_formZ {fn : BitVec 10} {j : Instr} (h : (q.xp && preOk q && q.nxi == 0 && !q.xr) = true) (hmajor : major < 60)
    (hpick : q.xr = false → q.nxi = 0 → pick (rawJ q 7 major fn.toNat 0) = .ok j) : Says (formZ q major fn) j := by
  simp only [Bool.and_eq_true, beq_iff_eq, Bool.not_eq_true'] at h
  obtain ⟨⟨⟨hxp, hq⟩, hn⟩, hxr⟩ := h
  exact says_rawJ hq (.inl hxp) ⟨by decide, hmajor⟩ fn.isLt (Nat.pow_pos (by decide)) (hpick hxr hn)

theorem shapeFn_rawJ {fn : BitVec 10} (c : Pre → BitVec 10 → Instr) (hxr : q.xr = false) (hn : q.nxi = 0) :
    shapeFn (rawJ q 7 major fn.toNat 0) c = .ok (c q fn) := by
  have hfn : BitVec.ofNat 10 ((major * 1024 + fn.toNat) % 1024) = fn := by
    have := fn.isLt
    rw [show (major * 1024 + fn.toNat) % 1024 = fn.toNat by omega, BitVec.ofNat_toNat, BitVec.setWidth_eq]
  rw [shapeFn, show (rawJ q 7 major fn.toNat 0).low = major * 1024 + fn.toNat from rfl, hfn]
  simp [checked, noXr, noXi, noType, rawJ, hxr, hn]

theorem says_fn {fn : BitVec 10} (c : Pre → BitVec 10 → Instr) (h : (q.xp && preOk q && q.nxi == 0 && !q.xr) = true)
    (hmajor : major < 60 := by decide) (hpick : pick (rawJ q 7 major fn.toNat 0) = shapeFn (rawJ q 7 major fn.toNat 0) c := by rfl) :
    Says (formZ q major fn) (c q fn) :=
  says_formZ h hmajor fun hxr hn => by rw [hpick, shapeFn_rawJ c hxr hn]

theorem says_fn0 (c : Pre → Instr) (h : (q.xp && preOk q && q.nxi == 0 && !q.xr) = true)
    (hmajor : major < 60 := by decide) (hpick : pick (rawJ q 7 major 0 0) = shapeFn0 (rawJ q 7 major 0 0) c := by rfl) :
    Says (formZ q major 0) (c q) :=
  says_formZ h hmajor fun hxr hn => by
    show pick (rawJ q 7 major 0 0) = _
    rw [hpick]
    simp [shapeFn0, checked, noXr, noXi, noType, rawJ, hxr, hn]

/-- HCALL with a function that has an entry of its own (R348, R350, R374). -/
theorem says_hcallEntry {fn : BitVec 10} (c : Pre → Instr) (h : (q.xp && preOk q && q.nxi == 0 && !q.xr) = true)
    (hentry : ∀ r : Raw, r.low % 1024 = fn.toNat → hcallFn r = shapeFn r (fun q _ => c q) := by intro r h; simp [hcallFn, h]) :
    Says (formZ q 0x02 fn) (c q) :=
  says_formZ h (by decide) fun hxr hn => by
    have hlow : (rawJ q 7 2 fn.toNat 0).low % 1024 = fn.toNat := by have := fn.isLt; simp only [rawJ]; omega
    show hcallFn (rawJ q 7 2 fn.toNat 0) = _
    rw [hentry _ hlow, shapeFn_rawJ (fun q _ => c q) hxr hn]

/-- HCALL with a function that has no entry of its own (R348, R350, R374). -/
theorem hcallFn_other {fn : BitVec 10} (hfn : ¬ (0x200 ≤ fn.toNat ∧ fn.toNat ≤ 0x203)) :
    hcallFn (rawJ q 7 2 fn.toNat 0) = shapeFn (rawJ q 7 2 fn.toNat 0) .hcall := by
  have := fn.isLt
  have hlow : (rawJ q 7 2 fn.toNat 0).low % 1024 = fn.toNat := by simp only [rawJ]; omega
  unfold hcallFn
  split
  · omega
  · omega
  · omega
  · omega
  · rfl

theorem says_hcall {fn : BitVec 10}
    (h : (q.xp && preOk q && q.nxi == 0 && !q.xr && !(decide (0x200 ≤ fn.toNat) && decide (fn.toNat ≤ 0x203))) = true) :
    Says (formZ q 0x02 fn) (.hcall q fn) := by
  obtain ⟨h, hfn⟩ := Bool.and_eq_true_iff.1 h
  simp only [Bool.not_eq_true', Bool.and_eq_false_iff, decide_eq_false_iff_not] at hfn
  refine says_formZ h (by decide) fun hxr hn => ?_
  show hcallFn (rawJ q 7 2 fn.toNat 0) = _
  rw [hcallFn_other (by omega), shapeFn_rawJ .hcall hxr hn]

end

/-- Every well-formed instruction, in its own words. -/
theorem says_encode (i : Instr) (hrow : i.isEvent = false) (h : i.wellFormed = true) : Says (encode i) i := by
  cases i with
  | add q d x y => exact says_two .add heads_zero h
  | sub q d x y => exact says_two .sub heads_zero h
  | adc q d x y => exact says_two .adc heads_zero h
  | sbc q d x y => exact says_two .sbc heads_zero h
  | and q d x y => exact says_two .and heads_zero h
  | or q d x y => exact says_two .or heads_zero h
  | xor q d x y => exact says_two .xor heads_zero h
  | andn q d x y => exact says_two .andn heads_zero h
  | shl q d x y => exact says_two .shl heads_zero h
  | shr q d x y => exact says_two .shr heads_zero h
  | sar q d x y => exact says_two .sar heads_zero h
  | ror q d x y => exact says_two .ror heads_zero h
  | mul q d x y => exact says_two .mul heads_zero h
  | mulh q d x y => exact says_two .mulh heads_zero h
  | mulhn q d x y => exact says_two .mulhn heads_zero h
  | mulw q d x y => exact says_two .mulw heads_zero h
  | div q d x y => exact says_two .div heads_zero h
  | divn q d x y => exact says_two .divn heads_zero h
  | rem q d x y => exact says_two .rem heads_zero h
  | remn q d x y => exact says_two .remn heads_zero h
  | min q d x y => exact says_two .min heads_zero h
  | max q d x y => exact says_two .max heads_zero h
  | minn q d x y => exact says_two .minn heads_zero h
  | maxn q d x y => exact says_two .maxn heads_zero h
  | clz q d s => exact says_un .clz heads_zero h
  | ctz q d s => exact says_un .ctz heads_zero h
  | popc q d s => exact says_un .popc heads_zero h
  | brev q d s => exact says_un .brev heads_zero h
  | mov q d s => exact says_un .mov heads_zero h
  | sel q d x y => exact says_two .sel heads_zero h
  | exts q f d s => exact says_unF .exts 3 heads_zero (typed_zero h)
  | extz q f d s => exact says_unF .extz 11 heads_zero (typed_zero h)
  | cmpEq q k x y => exact says_cmp .cmpEq heads_zero h
  | cmpLt q k x y => exact says_cmp .cmpLt heads_zero h
  | cmpLtn q k x y => exact says_cmp .cmpLtn heads_zero h
  | cmpTst q k x y => exact says_cmp .cmpTst heads_zero h
  | bfx q d s t => exact says_three .bfx heads_zero h
  | bfi q d s t => exact says_three .bfi heads_zero h
  | addi q d i => exact says_imm .addi h
  | andi q d i => exact says_imm .andi h
  | ori q d i => exact says_imm .ori h
  | xori q d i => exact says_imm .xori h
  | shli q d i => exact says_imm .shli h
  | shri q d i => exact says_imm .shri h
  | sari q d i => exact says_imm .sari h
  | li q d i => exact says_imm .li h
  | hold q i => exact says_immOnly .hold h
  | jmp q i => exact says_off .jmp h
  | bf q k i => exact says_bf h
  | bt q k i => exact says_bt h
  | call q i => exact says_off .call h
  | jr q s => exact says_src heads_zero .jr h
  | callr q s => exact says_src heads_zero .callr h
  | ret q => exact says_bare heads_zero .ret h
  | loop q d i => exact says_imm .loop (Bool.and_eq_true_iff.1 h).1
  | fand q d x y => exact says_flags .fand h
  | flagOr q d x y => exact says_flags .flagOr h
  | fxor q d x y => exact says_flags .fxor h
  | fnot q d s => exact says_flag1 .fnot h
  | rdc q d i => exact says_imm .rdc (Bool.and_eq_true_iff.1 h).1
  | wrc q d i => exact says_imm .wrc (Bool.and_eq_true_iff.1 h).1
  | ldl q f d s i => exact says_dispF .ldl 52 heads_zero (typed_zero h)
  | ldlIndex q f d s t => exact says_threeF .ldlIndex 52 heads_zero (typed_zero h)
  | stl q f d s i => exact says_dispF .stl 52 heads_zero (typed_zero h)
  | stlIndex q f d s t => exact says_threeF .stlIndex 52 heads_zero (typed_zero h)
  | ldg q f d s i => exact says_dispF .ldg 52 heads_zero (typed_zero h)
  | ldgPolicy q f d s t i => exact says_polF .ldgPolicy 52 heads_zero (typed_zero h)
  | ldgIndex q f d s t => exact says_threeF .ldgIndex 52 heads_zero (typed_zero h)
  | stg q f d s i => exact says_dispF .stg 52 heads_zero (typed_zero h)
  | stgPolicy q f d s t i => exact says_polF .stgPolicy 52 heads_zero (typed_zero h)
  | stgIndex q f d s t => exact says_threeF .stgIndex 52 heads_zero (typed_zero h)
  | cinc q d s i => exact says_disp .cinc heads_zero h
  | cincReg q d s t => exact says_three .cincReg heads_zero h
  | csetb q d s i => exact says_disp .csetb heads_zero h
  | csetbReg q d s t => exact says_three .csetbReg heads_zero h
  | cperm q d s i => exact says_disp .cperm heads_zero h
  | cpermReg q d s t => exact says_three .cpermReg heads_zero h
  | cgetBase q d s => exact says_un .cgetBase heads_zero h
  | cgetTop q d s => exact says_un .cgetTop heads_zero h
  | cgetPerm q d s => exact says_un .cgetPerm heads_zero h
  | cgetTag q d s => exact says_un .cgetTag heads_zero h
  | fadd q f d x y => exact says_twoF .fadd 0 heads_paged (typed_paged h)
  | fsub q f d x y => exact says_twoF .fsub 0 heads_paged (typed_paged h)
  | fmul q f d x y => exact says_twoF .fmul 0 heads_paged (typed_paged h)
  | fdiv q f d x y => exact says_twoF .fdiv 0 heads_paged (typed_paged h)
  | fma q f d s t => exact says_threeF .fma 0 heads_paged (typed_paged h)
  | fms q f d s t => exact says_threeF .fms 0 heads_paged (typed_paged h)
  | fnma q f d s t => exact says_threeF .fnma 0 heads_paged (typed_paged h)
  | fnms q f d s t => exact says_threeF .fnms 0 heads_paged (typed_paged h)
  | fmin q f d x y => exact says_twoF .fmin 0 heads_paged (typed_paged h)
  | fmax q f d x y => exact says_twoF .fmax 0 heads_paged (typed_paged h)
  | fabs q f d s => exact says_unF .fabs 0 heads_paged (typed_paged h)
  | fneg q f d s => exact says_unF .fneg 0 heads_paged (typed_paged h)
  | fcmpEq q f d x y => exact says_cmpF .fcmpEq h
  | fcmpLt q f d x y => exact says_cmpF .fcmpLt h
  | fcmpLe q f d x y => exact says_cmpF .fcmpLe h
  | fcmpUn q f d x y => exact says_cmpF .fcmpUn h
  | fcvt q f vec d s src => exact says_convert h
  | frcp q f d s => exact says_unF .frcp 0 heads_paged (typed_paged h)
  | frsq q f d s => exact says_unF .frsq 0 heads_paged (typed_paged h)
  | fexp2 q f d s => exact says_unF .fexp2 0 heads_paged (typed_paged h)
  | flog2 q f d s => exact says_unF .flog2 0 heads_paged (typed_paged h)
  | fsig q f d s => exact says_unF .fsig 0 heads_paged (typed_paged h)
  | fsqrt q f d s => exact says_unF .fsqrt 0 heads_paged (typed_paged h)
  | ftanh q f d s => exact says_unF .ftanh 0 heads_paged (typed_paged h)
  | scale q f d s t => exact says_threeF .scale 0 heads_paged (typed_paged h)
  | vredAdd q f d s => exact says_unF .vredAdd 0 heads_paged (typed_paged h)
  | vredMin q f d s => exact says_unF .vredMin 0 heads_paged (typed_paged h)
  | vredMax q f d s => exact says_unF .vredMax 0 heads_paged (typed_paged h)
  | vredAddx q f d s => exact says_unF .vredAddx 0 heads_paged (typed_paged h)
  | vbcast q f d s => exact says_unF .vbcast 0 heads_paged (typed_paged h)
  | vperm q f d s t => exact says_threeF .vperm 0 heads_paged (typed_paged h)
  | vshuf q f d s t => exact says_threeF .vshuf 0 heads_paged (typed_paged h)
  | vslide q f d s t => exact says_threeF .vslide 0 heads_paged (typed_paged h)
  | vsel q f d s t => exact says_threeF .vsel 0 heads_paged (typed_paged h)
  | viadd q f d x y => exact says_twoF .viadd 0 heads_paged (typed_paged h)
  | visub q f d x y => exact says_twoF .visub 0 heads_paged (typed_paged h)
  | vimul q f d x y => exact says_twoF .vimul 0 heads_paged (typed_paged h)
  | vimac q f d s t => exact says_threeF .vimac 0 heads_paged (typed_paged h)
  | vand q f d x y => exact says_twoF .vand 0 heads_paged (typed_paged h)
  | vor q f d x y => exact says_twoF .vor 0 heads_paged (typed_paged h)
  | vxor q f d x y => exact says_twoF .vxor 0 heads_paged (typed_paged h)
  | vshl q f d x y => exact says_twoF .vshl 0 heads_paged (typed_paged h)
  | vldl q f d s i => exact says_dispF .vldl 0 heads_paged (typed_paged h)
  | vstl q f d s i => exact says_dispF .vstl 0 heads_paged (typed_paged h)
  | vgath q f d s t => exact says_threeF .vgath 0 heads_paged (typed_paged h)
  | vscat q f d s t => exact says_threeF .vscat 0 heads_paged (typed_paged h)
  | atomAdd q m d s t => exact says_atom .atomAdd (Bool.and_eq_true_iff.1 h).1 (okWidth_lt (Bool.and_eq_true_iff.1 h).2)
  | atomMin q m d s t => exact says_atom .atomMin (Bool.and_eq_true_iff.1 h).1 (okWidth_lt (Bool.and_eq_true_iff.1 h).2)
  | atomMax q m d s t => exact says_atom .atomMax (Bool.and_eq_true_iff.1 h).1 (okWidth_lt (Bool.and_eq_true_iff.1 h).2)
  | atomMinn q m d s t => exact says_atom .atomMinn (Bool.and_eq_true_iff.1 h).1 (okWidth_lt (Bool.and_eq_true_iff.1 h).2)
  | atomMaxn q m d s t => exact says_atom .atomMaxn (Bool.and_eq_true_iff.1 h).1 (okWidth_lt (Bool.and_eq_true_iff.1 h).2)
  | atomAnd q m d s t => exact says_atom .atomAnd (Bool.and_eq_true_iff.1 h).1 (okWidth_lt (Bool.and_eq_true_iff.1 h).2)
  | atomOr q m d s t => exact says_atom .atomOr (Bool.and_eq_true_iff.1 h).1 (okWidth_lt (Bool.and_eq_true_iff.1 h).2)
  | atomXor q m d s t => exact says_atom .atomXor (Bool.and_eq_true_iff.1 h).1 (okWidth_lt (Bool.and_eq_true_iff.1 h).2)
  | atomXchg q m d s t => exact says_atom .atomXchg (Bool.and_eq_true_iff.1 h).1 (okWidth_lt (Bool.and_eq_true_iff.1 h).2)
  | atomCas q m d s t => exact says_atom .atomCas (Bool.and_eq_true_iff.1 h).1 (okWidth_lt (Bool.and_eq_true_iff.1 h).2)
  | atomMinp q d s t => exact says_atom (w := 1) (fun q _ d s t => .atomMinp q d s t) h (by decide)
  | atomSt4 q d s t => exact says_atom (w := 0) (fun q _ d s t => .atomSt4 q d s t) h (by decide)
  | redAdd q m s t => exact says_red .redAdd (Bool.and_eq_true_iff.1 h).1 (okWidth_lt (Bool.and_eq_true_iff.1 h).2)
  | redMin q m s t => exact says_red .redMin (Bool.and_eq_true_iff.1 h).1 (okWidth_lt (Bool.and_eq_true_iff.1 h).2)
  | redMax q m s t => exact says_red .redMax (Bool.and_eq_true_iff.1 h).1 (okWidth_lt (Bool.and_eq_true_iff.1 h).2)
  | redMinn q m s t => exact says_red .redMinn (Bool.and_eq_true_iff.1 h).1 (okWidth_lt (Bool.and_eq_true_iff.1 h).2)
  | redMaxn q m s t => exact says_red .redMaxn (Bool.and_eq_true_iff.1 h).1 (okWidth_lt (Bool.and_eq_true_iff.1 h).2)
  | redAnd q m s t => exact says_red .redAnd (Bool.and_eq_true_iff.1 h).1 (okWidth_lt (Bool.and_eq_true_iff.1 h).2)
  | redOr q m s t => exact says_red .redOr (Bool.and_eq_true_iff.1 h).1 (okWidth_lt (Bool.and_eq_true_iff.1 h).2)
  | redXor q m s t => exact says_red .redXor (Bool.and_eq_true_iff.1 h).1 (okWidth_lt (Bool.and_eq_true_iff.1 h).2)
  | redXchg q m s t => exact says_red .redXchg (Bool.and_eq_true_iff.1 h).1 (okWidth_lt (Bool.and_eq_true_iff.1 h).2)
  | redMinp q s t => exact says_red (w := 1) (fun q _ s t => .redMinp q s t) h (by decide)
  | redSt4 q s t => exact says_red (w := 0) (fun q _ s t => .redSt4 q s t) h (by decide)
  | gath q f d s => exact says_unF .gath 0 heads_paged (typed_paged h)
  | prefSlice q s t i => exact says_pref heads_paged .prefSlice h
  | prefStage q s t i => exact says_pref heads_paged .prefStage h
  | fence q sc => exact says_scope .fence h
  | rel q sc => exact says_scope .rel h
  | acq q sc => exact says_scope .acq h
  | ldgv q d s i => exact says_disp .ldgv heads_paged h
  | stgv q d s i => exact says_disp .stgv heads_paged h
  | copyLin q d s => exact says_un .copyLin heads_paged h
  | copy2d q d s => exact says_un .copy2d heads_paged h
  | copyList q d s => exact says_un .copyList heads_paged h
  | copyFill q d s => exact says_un .copyFill heads_paged h
  | dload q d s => exact says_un .dload heads_paged h
  | dseal q s => exact says_src heads_paged .dseal h
  | dopen q s => exact says_src heads_paged .dopen h
  | dstat q d => exact says_dst heads_paged .dstat h
  | dwin q d s => exact says_un .dwin heads_paged h
  | recv q d t => exact says_dstT heads_paged .recv h
  | sendm q d s t => exact says_three .sendm heads_paged h
  | mfmt q d s => exact says_un .mfmt heads_paged h
  | mm q d s => exact says_un .mm heads_paged h
  | mmz q d s => exact says_un .mmz heads_paged h
  | mdrain q d s => exact says_un .mdrain heads_paged h
  | maccLoad q s => exact says_src heads_paged .maccLoad h
  | maccStore q s => exact says_src heads_paged .maccStore h
  | maccClear q => exact says_bare heads_paged .maccClear h
  | walk q d s => exact says_un .walk heads_paged h
  | wresume q d s => exact says_un .wresume heads_paged h
  | wstat q d => exact says_dst heads_paged .wstat h
  | sort q d s => exact says_un .sort heads_paged h
  | sortc q d s => exact says_un .sortc heads_paged h
  | allot q d s => exact says_un .allot heads_paged h
  | shrink q d s => exact says_un .shrink heads_paged h
  | bind q d s => exact says_un .bind heads_paged (Bool.and_eq_true_iff.1 h).1
  | bindp q d port out => exact says_port heads_paged .bindp (Bool.and_eq_true_iff.1 h).1
  | unbind q d => exact says_dst heads_paged .unbind (Bool.and_eq_true_iff.1 h).1
  | bstat q d s => exact says_un .bstat heads_paged (Bool.and_eq_true_iff.1 h).1
  | launch q d s => exact says_un .launch heads_paged h
  | fork q s => exact says_src heads_paged .fork h
  | join q s => exact says_src heads_paged .join h
  | bar q d s => exact says_un .bar heads_paged h
  | barx q s => exact says_src heads_paged .barx h
  | xsel q d s t => exact says_three .xsel heads_paged h
  | xsend q s => exact says_src heads_paged .xsend h
  | xend q => exact says_bare heads_paged .xend h
  | waitv q d s t => exact says_three .waitv heads_paged h
  | yield q => exact says_bare heads_paged .yield h
  | seam q d s => exact says_un .seam heads_paged h
  | panel q d s => exact says_un .panel heads_paged h
  | seamend q => exact says_bare heads_paged .seamend h
  | spos q d => exact says_dst heads_paged .spos h
  | sresume q => exact says_bareNoXr heads_paged .sresume h
  | trap q fn => exact says_fn .trap h
  | tret q => exact says_fn0 .tret h
  | hcall q fn => exact says_hcall h
  | hcallSystem q fn => exact (nomatch h)
  | hcallResize q => exact says_hcallEntry .hcallResize h
  | hcallReturnSwatch q => exact says_hcallEntry .hcallReturnSwatch h
  | hcallAttest q => exact says_hcallEntry .hcallAttest h
  | hcallDamaskTemplate q => exact says_hcallEntry .hcallDamaskTemplate h
  | mark q fn => exact says_fn .mark h
  | xinv q d s => exact says_un .xinv heads_paged h
  | idle q => exact says_fn0 .idle h
  | _ => exact Bool.noConfusion hrow

end Sys2Proof.InstructionWords

namespace Sys2Proof.InstructionWords
open Sys2Proof Sys2Proof.Machine Sys2Proof.Claims Sys2Proof.Laws

/-- Settles O56: each listing decodes to its instruction, by running the decoder on its words. -/
theorem decodeWords : Obligations.DecodeWords := by
  unfold Obligations.DecodeWords
  refine ⟨?_, ?_, ?_, ?_, ?_, ?_, ?_, ?_, ?_, ?_, ?_, ?_, ?_, ?_, ?_⟩ <;> rfl

/-- What of O57 holds: the words of every well-formed instruction that is no event row decode to it, and are one to five parcels. -/
theorem decode_encode {i : Instr} (hrow : i.isEvent = false) (h : i.wellFormed = true) :
    (∀ rest, decode (encode i ++ rest) = .ok (i, rest)) ∧ 1 ≤ (encode i).length ∧ (encode i).length ≤ 5 :=
  says_encode i hrow h

/-- Refutes O57: `wellFormed` answers true for an event row, WATCHDOG of bolt 1, where the statement has it false. The event rows are
the only ones it fails on (`decode_encode`). -/
theorem not_roundTrip : ¬ Obligations.RoundTrip := by
  rintro ⟨-, -, hevent⟩
  obtain ⟨-, hwf⟩ := hevent (.watchdog 1) rfl
  exact absurd hwf (by decide)

end Sys2Proof.InstructionWords

namespace Sys2Proof.FabricGrants
open Sys2Proof Sys2Proof.Machine Sys2Proof.Claims Sys2Proof.Laws

/-! ## What a request's arrival changes -/

section
variable (s : State) (h : Nat) (r : Req)

theorem chan_arriveAt (hr : r.cls ≠ 0) : ((arriveAt s h r).slice h).chan = (s.slice h).chan ++ [{ r with at_ := s.pkts }] := by
  simp only [arriveAt, slice_setSlice_self]
  rw [if_neg hr]

theorem slice_arriveAt_ne {j : Nat} (hj : j ≠ h) : (arriveAt s h r).slice j = s.slice j := by
  simp only [arriveAt, slice_setSlice, if_neg hj]; rfl

end

/-- Bytes within one line are one part (R108). -/
theorem lineParts_within_line {va n : Nat} (hn : 0 < n) (h : va % 64 + n ≤ 64) : lineParts va n = [(va, n)] := by
  have hline : (va + n - 1) / 64 + 1 - va / 64 = 1 := by omega
  have hlo : max va (va / 64 * 64) = va := by omega
  have hhi : min (va + n) ((va / 64 + 1) * 64) = va + n := by omega
  rw [lineParts, if_neg (by omega), hline]
  simp [hlo, hhi]

/-! ## A peer module's request for a grant (R82, R83, R105) -/

theorem exec_fabricExportRequest (s : State) (peer k off n op : Nat) (v : BitVec 512) (c : BitVec 128) :
    exec (.fabricExportRequest ⟨peer, k⟩ off n op ⟨v, c⟩) s = .next (fabricExportRequest s peer k off n op v c) := rfl

/-- The request as it enters the channel of its home: a part within one line, of a live grant. -/
def peerReq (s : State) (g : Grant) (peer off n op : Nat) (v : BitVec 512) (c : BitVec 128) : Req :=
  { tid := peerTid, bolt := g.bolt, cls := 1, phase := 0, va := g.base + off, n := n, off := 0, pol := 0, op := peerOp op n v c 0
    mode := false, dest := homeSlice s g.bolt (g.base + off), acc := s.accs, no := s.pkts, core := firstPeer + peer }

theorem peerOp_zero_offset (op n : Nat) (v : BitVec 512) (c : BitVec 128) : peerOp op n v c 0 =
    if op = 0 then .load false else if op = 1 then .store v false else .atom (op % 16) (8 * n) (v.setWidth 128) c (decide (op < 32)) := by
  simp [peerOp]

/-- The numbers of peer modules lie where no agent has a die, so that a request's home sees it is a peer's. -/
theorem peer_of_core {r : Req} {peer : Nat} (hp : peer < 2 ^ 23) (hr : r.core = firstPeer + peer) : r.peer = true := by
  have hcore : ¬ (r.core < firstPeer ∨ 2 ^ 24 ≤ r.core) := by rw [hr, firstPeer]; omega
  simp only [Req.peer, agentDie, ge_iff_le, if_neg hcore, Option.isNone_none]

section
variable {s : State} {k off n : Nat} {g : Grant} (peer op : Nat) (v : BitVec 512) (c : BitVec 128)

theorem fabricExportRequest_unknown (hg : Map.find s.grants k = none) : fabricExportRequest s peer k off n op v c = refusePeer s off := by
  simp only [fabricExportRequest, hg]

theorem fabricExportRequest_recalled (hg : Map.find s.grants k = some g) (hs : g.state ≠ 0) : fabricExportRequest s peer k off n op v c =
    refusePeer { s with grants := Map.set s.grants k { g with refusals := g.refusals + 1 } } off := by
  simp only [fabricExportRequest, hg, if_pos hs]

theorem fabricExportRequest_beyond (hg : Map.find s.grants k = some g) (hs : g.state = 0)
    (hb : n = 0 ∨ 64 < n ∨ g.len < off + n ∨ regionOf (g.base + off) ≠ .ordinary ∨ regionOf (g.base + off + n - 1) ≠ .ordinary) :
    fabricExportRequest s peer k off n op v c = refusePeer s off := by
  simp only [fabricExportRequest, hg, hs, ne_eq, not_true_eq_false, if_false]
  exact if_pos hb

theorem fabricExportRequest_live (hg : Map.find s.grants k = some g) (hs : g.state = 0) (hn : 0 < n) (hlen : off + n ≤ g.len)
    (hline : (g.base + off) % 64 + n ≤ 64) (hfirst : regionOf (g.base + off) = .ordinary) (hlast : regionOf (g.base + off + n - 1) = .ordinary) :
    fabricExportRequest s peer k off n op v c =
      { arriveAt s (homeSlice s g.bolt (g.base + off)) (peerReq s g peer off n op v c) with accs := s.accs + 1 } := by
  have hin : ¬ (n = 0 ∨ n > 64 ∨ off + n > g.len ∨ regionOf (g.base + off) ≠ .ordinary ∨ regionOf (g.base + off + n - 1) ≠ .ordinary) := by
    simp only [hfirst, hlast, ne_eq, not_true_eq_false, or_false]; omega
  simp only [fabricExportRequest, hg, hs, ne_eq, not_true_eq_false, if_false]
  rw [if_neg hin, lineParts_within_line hn hline]
  simp only [List.foldl_cons, List.foldl_nil, Nat.sub_self]
  rfl

end

/-! ## The recall of a grant (R83) -/

theorem exec_grantRecall (s : State) (k : Nat) : exec (.grantRecall k) s = .next (grantRecall s k) := rfl
theorem exec_recallAck (s : State) (b slot : Nat) : exec (.recallAck b slot) s = .next (recallAck s b slot) := rfl
theorem exec_recallTimeout (s : State) (k : Nat) : exec (.recallTimeout k) s = .next (recallTimeout s k) := rfl

section
variable {s : State} {k : Nat} {g : Grant} (hg : Map.find s.grants k = some g)
include hg

theorem grantRecall_live (hs : g.state = 0) :
    grantRecall s k = { s with grants := Map.set s.grants k { g with state := 1, tick := s.gtime } } := by
  simp only [grantRecall, hg, if_pos hs]

theorem recallAck_in_time (hs : g.state = 1) (ht : s.gtime ≤ g.tick + 100000) :
    recallAck s 0 k = { s with grants := Map.set s.grants k { g with state := 3 } } := by
  have hlate : ¬ s.gtime > g.tick + 100000 := by omega
  simp only [recallAck, hg, hs, ne_eq, not_true_eq_false, if_true, if_false, if_neg hlate]

theorem recallAck_late (hs : g.state = 1) (ht : g.tick + 100000 < s.gtime) : recallAck s 0 k = retireGrant s k g := by
  simp only [recallAck, hg, hs, ne_eq, not_true_eq_false, if_true, if_false]
  exact if_pos ht

theorem recallTimeout_due (hs : g.state = 1) (ht : g.tick + 100000 ≤ s.gtime) : recallTimeout s k = retireGrant s k g := by
  simp only [recallTimeout, hg]
  exact if_pos ⟨hs, ht⟩

theorem recallTimeout_early (ht : s.gtime < g.tick + 100000) : recallTimeout s k = s := by
  have hearly : ¬ (g.state = 1 ∧ s.gtime ≥ g.tick + 100000) := by omega
  simp only [recallTimeout, hg]
  exact if_neg hearly

end

/-- The requests of bolt `b` to the fabric window of its import slot `slot`. -/
def ofSlot (b slot : Nat) (r : Req) : Bool := decide (r.bolt = b) && decide (regionOf r.va = .fabric) && decide (bits r.va 47 40 = slot)

section
variable {s : State} {b slot : Nat} (hb : b ≠ 0)
include hb

theorem recallAck_busy (hw : onTheWay s (ofSlot b slot) = true) : recallAck s b slot = s := by
  rw [recallAck, if_neg hb]; exact if_pos hw

theorem recallAck_idle {i : Import} (hi : Map.find (s.bolt b).imports slot = some i) (hw : onTheWay s (ofSlot b slot) = false) :
    recallAck s b slot = s.setBolt b { s.bolt b with imports := Map.set (s.bolt b).imports slot { i with bound := false } } := by
  rw [recallAck, if_neg hb]
  refine (if_neg (Bool.eq_false_iff.mp hw)).trans ?_
  simp only [hi]

end

/-! ## A grant that a packet brings (R82, R376) -/

@[simp] theorem lane_setLane_self (s : State) (l : Nat) (x : Lane) : (s.setLane l x).lane l = x := by simp [State.lane, State.setLane]
theorem setLane_setLane (s : State) (l : Nat) (x y : Lane) : (s.setLane l x).setLane l y = s.setLane l y := by simp [State.setLane, set_set]

/-- What the kernels do with a grant is done to grants and bolts alone. -/
theorem lanes_grantAct (s : State) (a : GrantAct) : (grantAct s a).lanes = s.lanes := by
  cases a with
  | none => rfl
  | make => exact (apply_ite State.lanes _ _ _).trans (ite_self _)
  | bind => exact (apply_ite State.lanes _ _ _).trans (ite_self _)

theorem lane_grantAct (s : State) (a : GrantAct) (l : Nat) : (grantAct s a).lane l = s.lane l := by
  rw [State.lane, lanes_grantAct, State.lane]

/-- A lane after the first flit of a grant packet, with nothing left to wait for. -/
def afterGrant (x : Lane) (flit : BitVec 256) : Lane :=
  { x with
    seq := flitSeq flit + 1, asking := false, acts := [], fails := Map.erase x.fails (flitSeq flit).toNat, joined := true
    delivered := x.delivered ++ [{ type := 3, cls := flitClass flit, words := [flitPayload flit] }] }

/-- A lane that waits for nothing asks for nothing after a delivery. -/
theorem askNext_idle {s : State} {l : Nat} (hu : (s.lane l).unheard = 0) (hh : (s.lane l).held = []) : askNext s l = s := by
  simp [askNext, hu, hh]

/-- The first flit of a grant packet, with its act noted, delivered: the lane goes on and the kernels act. -/
theorem deliverFlit_grant {s : State} {l : Nat} {flit : BitVec 256} {a : GrantAct} (ht : flitType flit = 3) (hs : flitStart flit = true)
    (ha : (s.lane l).acts = [(flitSeq flit, a)]) : deliverFlit s l flit = grantAct (s.setLane l (afterGrant (s.lane l) flit)) a := by
  simp [deliverFlit, flitActs, ht, hs, ha, setLane_setLane, afterGrant]

/-- A flit that is due, with none held behind it, is delivered at once (R376). -/
theorem receiveFlit_due {s : State} {l : Nat} {flit : BitVec 256} (hret : (s.lane l).retired = false) (hcrc : crc16 flit = flitCrc flit)
    (hseq : flitSeq flit = (s.lane l).seq) (hheld : (s.lane l).held = []) : receiveFlit s l flit = askNext (deliverFlit s l flit) l := by
  simp [receiveFlit, hret, hcrc, hseq, hheld, deliverHeld]

/-- The lane with what a grant flit that is due has the kernels do. -/
def noting (x : Lane) (flit : BitVec 256) (a : GrantAct) : Lane := { x with acts := [(flitSeq flit, a)] }

theorem grantFlit_due {s : State} {l : Nat} {flit : BitVec 256} (a : GrantAct) (ht : flitType flit = 3) (hs : flitStart flit = true)
    (hd : due s l flit) : grantFlit s l flit a = grantAct (s.setLane l (afterGrant (s.lane l) flit)) a := by
  obtain ⟨hret, hcrc, hseq, hheld, hun, hacts⟩ := hd
  have hnote : grantFlit s l flit a = receiveFlit (s.setLane l (noting (s.lane l) flit a)) l flit := by
    simp [grantFlit, receiveOn, noting, ht, hs, hret, hcrc, hseq, hheld, hacts]
  have hdeliver : deliverFlit (s.setLane l (noting (s.lane l) flit a)) l flit = grantAct (s.setLane l (afterGrant (s.lane l) flit)) a := by
    rw [deliverFlit_grant (a := a) ht hs (by rw [lane_setLane_self]; rfl), setLane_setLane, lane_setLane_self]; rfl
  rw [hnote, receiveFlit_due (by simpa [noting]) hcrc (by simpa [noting]) (by simpa [noting]), hdeliver]
  exact askNext_idle (by simpa [lane_grantAct, afterGrant]) (by simpa [lane_grantAct, afterGrant])

theorem exec_grantFlit_due {s : State} {l : Nat} {flit : BitVec 256} (a : GrantAct) (hl : l < laneCount) (ht : flitType flit = 3)
    (hs : flitStart flit = true) (hd : due s l flit) :
    exec (.grantOrRecallFlit l ⟨flit, a⟩) s = .next (grantAct (s.setLane l (afterGrant (s.lane l) flit)) a) := by
  rw [← grantFlit_due a ht hs hd]
  exact if_pos (decide_eq_true hl)

theorem grantAct_make {s : State} {k b : Nat} (base len : Nat) (hb : (s.bolt b).live = true) (hk : Map.find s.grants k = none) :
    grantAct s (.make k b base len) = { s with grants := Map.set s.grants k { bolt := b, base := base, len := len } } := by
  simp [grantAct, hb, hk]

theorem grantAct_bind {s : State} {b slot : Nat} (p k len : Nat) (rd w at_ : Bool) (hb : (s.bolt b).live = true) (hslot : slot < 256)
    (hf : (Map.get (s.bolt b).imports slot {}).bound = false) : grantAct s (.bind b slot p k len rd w at_) =
      s.setBolt b { s.bolt b with
        imports := Map.set (s.bolt b).imports slot { bound := true, peer := p, grant := k, len := len, rd := rd, w := w, at_ := at_ } } := by
  simp [grantAct, hb, hslot, hf]

/-- Settles O50, case by case: what a peer's request meets (R82, R105), each step of a recall (R83), and the grant that a due flit brings. -/
theorem exportedGrants : Obligations.ExportedGrants := by
  unfold Obligations.ExportedGrants
  refine ⟨fun s k g hg => ⟨?recalled, ?live, ?beyond, ?recalling, ?inTime, ?late, ?timeout, ?early⟩, ?unknown, ?refusal, ?importer, ?packet⟩
  case recalled =>
    intro peer off n op v c hs
    rw [exec_fabricExportRequest, fabricExportRequest_recalled peer op v c hg hs]
  case live =>
    intro peer off n op v c hp hs hn hlen hline hfirst hlast
    rw [exec_fabricExportRequest, fabricExportRequest_live peer op v c hg hs hn hlen hline hfirst hlast]
    exact ⟨_, _, rfl, chan_arriveAt s _ _ (by simp [peerReq]), rfl, rfl, rfl, peer_of_core hp rfl, peerOp_zero_offset op n v c, rfl, rfl,
      fun j hj => slice_arriveAt_ne s _ _ hj⟩
  case beyond =>
    intro peer off n op v c hs hb
    rw [exec_fabricExportRequest, fabricExportRequest_beyond peer op v c hg hs hb]
  case recalling => intro hs; rw [exec_grantRecall, grantRecall_live hg hs]
  case inTime => intro hs ht; rw [exec_recallAck, recallAck_in_time hg hs ht]
  case late => intro hs ht; rw [exec_recallAck, recallAck_late hg hs ht]; rfl
  case timeout => intro hs ht; rw [exec_recallTimeout, recallTimeout_due hg hs ht]; rfl
  case early => intro _ ht; rw [exec_recallTimeout, recallTimeout_early hg ht]
  case unknown =>
    intro s k off peer n op v c hg
    rw [exec_fabricExportRequest, fabricExportRequest_unknown peer op v c hg]
  case refusal => exact fun s off => ⟨_, rfl, rfl, rfl⟩
  case importer =>
    exact fun s b slot i hb hi => ⟨fun hidle => by rw [exec_recallAck, recallAck_idle hb hi hidle],
      fun hbusy => by rw [exec_recallAck, recallAck_busy hb hbusy]⟩
  case packet =>
    intro s l flit hl ht hstart hd
    refine ⟨fun k b base len hb hk => ?_, fun b slot p k len rd w at_ hb hslot hf => ?_⟩
    · rw [exec_grantFlit_due _ hl ht hstart hd, grantAct_make (s := s.setLane l _) base len hb hk]
      exact ⟨_, rfl, by simp [find_set], rfl, rfl⟩
    · rw [exec_grantFlit_due _ hl ht hstart hd, grantAct_bind (s := s.setLane l _) p k len rd w at_ hb hslot hf]
      exact ⟨_, rfl, by simp [find_set], rfl, rfl⟩

end Sys2Proof.FabricGrants

namespace Sys2Proof.DamaskStore
open Sys2Proof Sys2Proof.Machine Sys2Proof.Claims Sys2Proof.Laws

/-! ## States that differ in time alone stay so in a wait -/

theorem starts_cl {e t : State} (h : Starts e t) : t.cl = e.cl := by rw [h.1]; rfl
theorem starts_gtime {e t : State} (h : Starts e t) : t.gtime = e.gtime := by rw [h.1]

theorem begun_cl (q : Pre) (k : Spec) {s : State} (hr : Ready s) : (begun q k s).cl = s.cl := by rw [starts_cl (begun_starts q k s hr)]; rfl
theorem begun_gtime (q : Pre) (k : Spec) {s : State} (hr : Ready s) : (begun q k s).gtime = s.gtime := by rw [starts_gtime (begun_starts q k s hr)]; rfl

theorem starts_setCl {e t : State} (h : Starts e t) (c : Cluster) : Starts (e.setCl c) (t.setCl c) := by
  obtain ⟨hrest, hothers, hthread, hcores, hcore⟩ := h
  refine ⟨?_, hothers, hthread, hcores, hcore⟩
  rw [hrest]; rfl

/-- The current thread of the later state may be any that is the same but for time. -/
theorem starts_setT_right {e t : State} (h : Starts e t) {v : Thread} (hv : SameThread e.t v) : Starts e (t.setT v) := by
  have hcur := starts_cur h
  obtain ⟨hrest, hothers, -, hcores, hcore⟩ := h
  refine ⟨by rw [hrest]; rfl, fun j hj => ?_, by simpa using hv, hcores, hcore⟩
  rw [State.setT, thread_setThread, if_neg (hcur ▸ hj), hothers j hj]

/-- A new wait of the current thread, from which on it counts as blocked. -/
theorem setWait_enters {s : State} {w : Wait} (hw : w ≠ .none) (h : s.t.wait ≠ w) :
    setWait s s.cur w = s.setT { s.t with wait := w, blockedAt := s.gtime } := by
  have h' : (s.thread s.cur).wait ≠ w := h
  simp only [setWait, if_neg h', hw, false_and, if_false]
  rfl

theorem setWait_stays {s : State} {w : Wait} (h : s.t.wait = w) : setWait s s.cur w = s := if_pos h

theorem starts_setWait {e t : State} (h : Starts e t) {w : Wait} (hw : w ≠ .none) : Starts (setWait e e.cur w) (setWait t t.cur w) := by
  have hsame := starts_t h
  have hwait : t.t.wait = e.t.wait := by rw [hsame]
  by_cases heq : e.t.wait = w
  · rw [setWait_stays heq, setWait_stays (hwait.trans heq)]; exact h
  · rw [setWait_enters hw heq, setWait_enters hw (hwait ▸ heq), starts_gtime h]
    refine starts_setT h ?_
    unfold SameThread at hsame ⊢; rw [hsame]

/-- An instruction that stays at its place does so alike. -/
theorem starts_stay {e t : State} (h : Starts e t) (q : Pre) {w : Wait} (hw : w ≠ .none) (st : Nat) : Starts (stay q w st e) (stay q w st t) := by
  have hsame := starts_t h
  have hput : SameThread { e.t with pc := e.t.pc - BitVec.ofNat 64 (2 * q.parcels), stage := st }
      { t.t with pc := t.t.pc - BitVec.ofNat 64 (2 * q.parcels), stage := st } := by
    unfold SameThread at hsame ⊢; rw [hsame]
  exact starts_setWait (starts_setT h hput) hw

/-- An instruction that has issued and stays: its thread stands at it again, in the wait. -/
theorem stay_afterT (q : Pre) (w : Wait) (st : Nat) (s : State) :
    stay q w st (afterT q s s.t) = setWait (s.setT { s.t with stage := st }) s.cur w := by
  have hpc : past q s - BitVec.ofNat 64 (2 * q.parcels) = s.t.pc := by rw [past, BitVec.add_sub_cancel]
  simp only [stay, afterT, t_setT, cur_setT, hpc]
  simp [State.setT, State.setThread, set_set]

theorem wait_setWait (s : State) (w : Wait) : (setWait s s.cur w).t.wait = w := by
  have hcur : (setWait s s.cur w).cur = s.cur := by rw [(setWait_frame s s.cur w).1]
  rw [State.t, hcur, (setWait_frame s s.cur w).2, if_pos rfl]

theorem cur_stay (q : Pre) (w : Wait) (st : Nat) (s : State) : (stay q w st s).cur = s.cur := by
  rw [stay, (setWait_frame _ _ _).1]; rfl

theorem wait_stay (q : Pre) (w : Wait) (st : Nat) (s : State) : (stay q w st s).t.wait = w := wait_setWait _ w

/-! ## Issuing an instruction that reads one register, and may wait -/

/-- When the operation's state is `e` but for time, and waits in `e`, the instruction gives `e`. -/
theorem settle_waits {k : Spec} {s s' e : State} (hm : Starts e s') (hc : e.cur = s.cur) (hw : e.t.wait ≠ .none) :
    Matches e (settle k s (.ok s')) := by
  have hcur : s'.cur = s.cur := by rw [starts_cur hm, hc]
  have hsame := starts_t hm
  have hthread : s'.thread s.cur = s'.t := by rw [State.t, hcur]
  have hwait : s'.t.wait ≠ .none := by rw [hsame]; exact hw
  have hset : settle k s (.ok s') = s'.setT (scoreboard s'.t k) := by
    simp only [settle, issueEnd, hthread, if_neg hwait]
    rw [State.setT, hcur]
  rw [Matches, if_neg hw, hset]
  refine starts_setT_right hm ?_
  rw [scoreboard_same]
  unfold SameThread at hsame ⊢; rw [hsame]

/-- What DSEAL and DOPEN say of themselves to the checks. -/
def readSpec (i : Instr) (r : Reg) : Spec := { base := baseParcel i, reads := [r] }

theorem readSpec_legal {i : Instr} {r : Reg} {t : Thread} (hx : t.xchg = false) : InstructionWords.Legal t (readSpec i r) := ⟨rfl, hx, fun h => nomatch h⟩

theorem gives_of_readSpec {i : Instr} {q : Pre} {r : Reg} {op : State → Res State} {s s' e : State}
    (hexec : exec i s = issue q (readSpec i r) op s) (he : Executes q [r] [] s) (hop : op (begun q (readSpec i r) s) = .ok s') (hm : Starts e s')
    (hc : e.cur = s.cur) (hdone : e.t.wait = .none → e.t.bolt = s.t.bolt ∧ e.t.stage = 0) : Gives i s e := by
  obtain ⟨⟨hr, hx, hg, hd⟩, -⟩ := he
  have hallot : ∀ x ∈ [r], x.toNat < s.t.allot := fun x hx => (hd.1 x hx).1
  refine ⟨settle (readSpec i r) s (.ok s'), ?_, ?_⟩
  · rw [hexec, issue_runs q (readSpec i r) op s hr (by simp [hx]) hg hd rfl (fun h => nomatch h) rfl (allotted _ _ rfl rfl hallot)
      (fun _ _ h => nomatch h) (fun h => nomatch h), hop]
  · by_cases hw : e.t.wait = .none
    · obtain ⟨hbolt, hstage⟩ := hdone hw
      exact settle_matches _ s s' e hm hc hbolt hw hstage
    · exact settle_waits hm hc hw

/-- The state in which an instruction that waited goes on: it counts no second issue. -/
def resumed (q : Pre) (s : State) : State := s.setT { s.t with wait := .none, pc := past q s }

theorem stage_resumed (q : Pre) (s : State) : (resumed q s).t.stage = s.t.stage := by rw [resumed, t_setT]
theorem cl_resumed (q : Pre) (s : State) : (resumed q s).cl = s.cl := rfl

/-- An instruction in progress whose registers are ready runs its operation again. -/
theorem issue_resumes {i : Instr} {q : Pre} {r : Reg} (op : State → Res State) {s : State} (hst : s.t.stage ≠ 0) (hx : s.t.xchg = false)
    (hg : Guarded q s) (hd : ReadyRegs q [r] [] s) : issue q (readSpec i r) op s = .next (settle (readSpec i r) s (op (resumed q s))) := by
  obtain ⟨hready, -⟩ := hd
  have hpass : decodeChecks s.t q (readSpec i r) = none :=
    InstructionWords.decodeChecks_pass (readSpec_legal hx) rfl rfl (allotted _ _ rfl rfl fun x hx => (hready x hx).1)
  have hpend : (readSpec i r).watched.any (fun x => s.t.pending.contains x.toNat) = false := by
    rw [List.any_eq_false]
    intro x hx
    simpa using (hready x hx).2
  simp only [issue, hpass, (InstructionWords.guardOn_iff q s).2 hg, if_true, hpend]
  simp only [beq_eq_false_iff_ne.2 hst, hst, Bool.and_false, Bool.false_and, Bool.false_eq_true, if_false, Bool.not_true, readSpec, List.append_nil,
    List.flatMap_nil, List.any_nil]
  cases h : op (s.setT _) <;> (simp only [resumed, past, h]; rfl)

/-- The thread has passed its instruction and waits no more; no register of its own and no byte of DRAM has changed. -/
def Passed (q : Pre) (s t : State) : Prop :=
  t.t.wait = .none ∧ t.t.stage = 0 ∧ t.t.pc = past q s ∧ t.t.regs = s.t.regs ∧ t.dram = s.dram

theorem passed_settle (k : Spec) (q : Pre) (s : State) : Passed q s (settle k s (.ok (resumed q s))) := by
  have hthread : (resumed q s).thread s.cur = { s.t with wait := .none, pc := past q s } := by simp [resumed, State.setT]
  have hset : settle k s (.ok (resumed q s)) =
      commit ((resumed q s).setThread s.cur (scoreboard { s.t with wait := .none, pc := past q s, stage := 0 } k)) s.t.bolt := by
    simp [settle, issueEnd, hthread]
  have ht : (settle k s (.ok (resumed q s))).t = scoreboard { s.t with wait := .none, pc := past q s, stage := 0 } k := by
    rw [hset]
    exact thread_setThread_self (resumed q s) s.cur _
  rw [Passed, ht, scoreboard_same, hset]
  exact ⟨rfl, rfl, rfl, rfl, rfl⟩

/-! ## DSEAL and DOPEN at the controller, by the state of the slice (R120) -/

section
variable (q : Pre) {s : State}

theorem sealAt_open (h : s.cl.dstate = 0) : sealAt q s = stay q .damask sealWait (s.setCl { s.cl with dstate := 1 }) := by simp [sealAt, h]
theorem sealAt_sealing (h : s.cl.dstate = 1) : sealAt q s = stay q .damask sealWait s := by simp [sealAt, h]
theorem sealAt_sealed (h : s.cl.dstate = 2) : sealAt q s = s := by simp [sealAt, h]
theorem sealAt_opening (h : s.cl.dstate = 3) : sealAt q s = stay q .damask sealDue s := by simp [sealAt, h]
theorem openAt_open (h : s.cl.dstate = 0) : openAt q s = s := by simp [openAt, h]
theorem openAt_sealing (h : s.cl.dstate = 1) : openAt q s = stay q .damask openDue s := by simp [openAt, h]
theorem openAt_sealed (h : s.cl.dstate = 2) : openAt q s = stay q .damask openWait (s.setCl { s.cl with dstate := 3 }) := by simp [openAt, h]
theorem openAt_opening (h : s.cl.dstate = 3) : openAt q s = stay q .damask openWait s := by simp [openAt, h]

end

/-- What DSEAL does in each stage: a new one reaches the controller, and one that has seen SEALED is over. -/
theorem exec_dseal (q : Pre) (r : Reg) (s : State) : ∃ op, exec (.dseal q r) s = issue q (readSpec (.dseal q r) r) op s ∧
    (∀ u, u.t.stage = 0 → Map.find u.t.binds r.toNat = none → wholeSlice r (u.t.reg r) = .ok () → op u = .ok (sealAt q u)) ∧
    (∀ u, u.t.stage = sealSeen ∨ (u.t.stage = sealWait ∧ u.cl.dstate = 2) → op u = .ok u) := by
  refine ⟨_, show execDseal q r s = _ from rfl, fun u hst hbind hwhole => ?_, fun u hseen => ?_⟩
  · simp only [hst, sealSeen, sealWait, sealDue, readReg_unbound u r hbind]
    simp [bind, Except.bind, hwhole, pure, Except.pure]
  · rcases hseen with hst | ⟨hst, hd⟩
    · simp [hst, pure, Except.pure]
    · simp [hst, hd, sealSeen, sealWait, pure, Except.pure]

/-- What DOPEN does in each stage: a new one reaches the controller, and one that has seen OPEN is over. -/
theorem exec_dopen (q : Pre) (r : Reg) (s : State) : ∃ op, exec (.dopen q r) s = issue q (readSpec (.dopen q r) r) op s ∧
    (∀ u, u.t.stage = 0 → Map.find u.t.binds r.toNat = none → wholeSlice r (u.t.reg r) = .ok () → op u = .ok (openAt q u)) ∧
    (∀ u, u.t.stage = openSeen ∨ (u.t.stage = openWait ∧ u.cl.dstate = 0) → op u = .ok u) := by
  refine ⟨_, show execDopen q r s = _ from rfl, fun u hst hbind hwhole => ?_, fun u hseen => ?_⟩
  · simp only [hst, openSeen, openWait, openDue, readReg_unbound u r hbind]
    simp [bind, Except.bind, hwhole, pure, Except.pure]
  · rcases hseen with hst | ⟨hst, hd⟩
    · simp [hst, pure, Except.pure]
    · simp [hst, hd, openSeen, openWait, pure, Except.pure]

/-! ## A DSEAL or DOPEN that issues -/

section
variable {i : Instr} {q : Pre} {r : Reg} {op : State → Res State} {s : State} (hexec : exec i s = issue q (readSpec i r) op s)
  (he : Executes q [r] [] s)

include he in
/-- The operand of the instruction, as the operation finds it. -/
theorem begun_operand (i : Instr) : let u := begun q (readSpec i r) s
    u.t.stage = 0 ∧ Map.find u.t.binds r.toNat = none ∧ u.t.reg r = s.t.reg r ∧ u.cl = s.cl := by
  obtain ⟨⟨hr, -⟩, hunbound⟩ := he
  have hsame := begun_same q (readSpec i r) s hr
  refine ⟨?_, ?_, begun_reg q _ s hr r, begun_cl q _ hr⟩
  · rw [hsame]; exact hr.2.2
  · rw [begun_binds q _ s hr]; exact hunbound r List.mem_cons_self

include hexec he

theorem gives_done (hop : op (begun q (readSpec i r) s) = .ok (begun q (readSpec i r) s)) : Gives i s (afterT q s s.t) := by
  have hr := he.1.1
  exact gives_of_readSpec hexec he hop (begun_starts q _ s hr) rfl fun _ => ⟨by simp [afterT], by simpa [afterT] using hr.2.2⟩

theorem gives_waits {st : Nat} (hop : op (begun q (readSpec i r) s) = .ok (stay q .damask st (begun q (readSpec i r) s))) :
    Gives i s (setWait (s.setT { s.t with stage := st }) s.cur .damask) := by
  rw [← stay_afterT q]
  exact gives_of_readSpec hexec he hop (starts_stay (begun_starts q _ s he.1.1) (w := .damask) q nofun st) (cur_stay ..)
    fun h => nomatch (wait_stay ..).symm.trans h

theorem gives_moves {st : Nat} {c : Cluster} (hop : op (begun q (readSpec i r) s) = .ok (stay q .damask st ((begun q (readSpec i r) s).setCl c))) :
    Gives i s (setWait ((s.setCl c).setT { s.t with stage := st }) s.cur .damask) := by
  have hafter : stay q .damask st ((afterT q s s.t).setCl c) = setWait ((s.setCl c).setT { s.t with stage := st }) s.cur .damask :=
    stay_afterT q .damask st (s.setCl c)
  rw [← hafter]
  exact gives_of_readSpec hexec he hop (starts_stay (starts_setCl (begun_starts q _ s he.1.1) c) (w := .damask) q nofun st) (cur_stay ..)
    fun h => nomatch (wait_stay ..).symm.trans h

end

/-- R120, R125: what a DSEAL meets in each state of the slice. -/
theorem dseal_issues {q : Pre} {r : Reg} {s : State} (he : Executes q [r] [] s) (hwhole : wholeSlice r (s.t.reg r) = .ok ()) :
    (s.cl.dstate = 0 → Gives (.dseal q r) s (setWait ((s.setCl { s.cl with dstate := 1 }).setT { s.t with stage := sealWait }) s.cur .damask)) ∧
    (s.cl.dstate = 1 → Gives (.dseal q r) s (setWait (s.setT { s.t with stage := sealWait }) s.cur .damask)) ∧
    (s.cl.dstate = 2 → Gives (.dseal q r) s (afterT q s s.t)) ∧
    (s.cl.dstate = 3 → Gives (.dseal q r) s (setWait (s.setT { s.t with stage := sealDue }) s.cur .damask)) := by
  obtain ⟨op, hexec, hnew, -⟩ := exec_dseal q r s
  obtain ⟨hst, hbind, hreg, hcl⟩ := begun_operand he (.dseal q r)
  have hop := hnew _ hst hbind (hreg ▸ hwhole)
  refine ⟨fun hd => gives_moves hexec he ?_, fun hd => gives_waits hexec he ?_, fun hd => gives_done hexec he ?_,
    fun hd => gives_waits hexec he ?_⟩
  · rw [hop, sealAt_open q (hcl ▸ hd), hcl]
  · rw [hop, sealAt_sealing q (hcl ▸ hd)]
  · rw [hop, sealAt_sealed q (hcl ▸ hd)]
  · rw [hop, sealAt_opening q (hcl ▸ hd)]

/-- R120, R125: what a DOPEN meets in each state of the slice. -/
theorem dopen_issues {q : Pre} {r : Reg} {s : State} (he : Executes q [r] [] s) (hwhole : wholeSlice r (s.t.reg r) = .ok ()) :
    (s.cl.dstate = 0 → Gives (.dopen q r) s (afterT q s s.t)) ∧
    (s.cl.dstate = 1 → Gives (.dopen q r) s (setWait (s.setT { s.t with stage := openDue }) s.cur .damask)) ∧
    (s.cl.dstate = 2 → Gives (.dopen q r) s (setWait ((s.setCl { s.cl with dstate := 3 }).setT { s.t with stage := openWait }) s.cur .damask)) ∧
    (s.cl.dstate = 3 → Gives (.dopen q r) s (setWait (s.setT { s.t with stage := openWait }) s.cur .damask)) := by
  obtain ⟨op, hexec, hnew, -⟩ := exec_dopen q r s
  obtain ⟨hst, hbind, hreg, hcl⟩ := begun_operand he (.dopen q r)
  have hop := hnew _ hst hbind (hreg ▸ hwhole)
  refine ⟨fun hd => gives_done hexec he ?_, fun hd => gives_waits hexec he ?_, fun hd => gives_moves hexec he ?_,
    fun hd => gives_waits hexec he ?_⟩
  · rw [hop, openAt_open q (hcl ▸ hd)]
  · rw [hop, openAt_sealing q (hcl ▸ hd)]
  · rw [hop, openAt_sealed q (hcl ▸ hd), hcl]
  · rw [hop, openAt_opening q (hcl ▸ hd)]

/-! ## A DSEAL or DOPEN that goes on -/

section
variable {q : Pre} {r : Reg} {s : State} (hx : s.t.xchg = false) (hg : Guarded q s) (hd : ReadyRegs q [r] [] s)
include hx hg hd

theorem passes_of_operation {i : Instr} {op : State → Res State} (hexec : exec i s = issue q (readSpec i r) op s) (hst : s.t.stage ≠ 0)
    (hop : op (resumed q s) = .ok (resumed q s)) : ∃ t, exec i s = .next t ∧ Passed q s t :=
  ⟨_, by rw [hexec, issue_resumes op hst hx hg hd, hop], passed_settle _ q s⟩

theorem dseal_goes_on (hseen : s.t.stage = sealSeen ∨ (s.t.stage = sealWait ∧ s.cl.dstate = 2)) : ∃ t, exec (.dseal q r) s = .next t ∧ Passed q s t := by
  obtain ⟨op, hexec, -, hover⟩ := exec_dseal q r s
  have hst : s.t.stage ≠ 0 := by rcases hseen with h | ⟨h, -⟩ <;> rw [h] <;> decide
  exact passes_of_operation hx hg hd hexec hst (hover _ (by rwa [stage_resumed, cl_resumed]))

theorem dopen_goes_on (hseen : s.t.stage = openSeen ∨ (s.t.stage = openWait ∧ s.cl.dstate = 0)) : ∃ t, exec (.dopen q r) s = .next t ∧ Passed q s t := by
  obtain ⟨op, hexec, -, hover⟩ := exec_dopen q r s
  have hst : s.t.stage ≠ 0 := by rcases hseen with h | ⟨h, -⟩ <;> rw [h] <;> decide
  exact passes_of_operation hx hg hd hexec hst (hover _ (by rwa [stage_resumed, cl_resumed]))

end

/-! ## The slice comes to a state (R120) -/

/-- A thread of a cluster that waits in DSEAL or DOPEN at a stage; a pressed one keeps its place only where its transition has not begun. -/
def WaitsAt (cl : Nat) (p : Nat × Thread) (k : Nat) : Prop :=
  clusterOf (coreOf p.1) = cl ∧ (p.2.occ = .resident ∨ (p.2.occ = .pressed ∧ sealDue ≤ k)) ∧ p.2.wait = .damask ∧ p.2.stage = k

theorem atStage_iff {cl k : Nat} (hk : k ≤ openDue) (p : Nat × Thread) : atStage cl k p = true ↔ WaitsAt cl p k := by
  have hlate : (k = sealDue ∨ k = openDue) ↔ sealDue ≤ k := by unfold sealDue; unfold openDue at hk ⊢; omega
  simp only [atStage, WaitsAt, Bool.and_eq_true, Bool.or_eq_true, decide_eq_true_eq, hlate, and_assoc]

theorem atStage_stage {cl k : Nat} {p : Nat × Thread} (h : atStage cl k p = true) : p.2.stage = k := by
  simp only [atStage, Bool.and_eq_true, decide_eq_true_eq] at h
  exact h.2

section
variable {s : State} {cl a b : Nat} {p : Nat × Thread} (hp : p ∈ s.threads)
include hp

theorem mem_sawState_of_atStage (h : atStage cl a p = true) : (p.1, { p.2 with stage := b }) ∈ (sawState s cl a b).threads :=
  List.mem_map.2 ⟨p, hp, by rw [if_pos h]⟩

theorem mem_sawState_of_stage (h : p.2.stage ≠ a) : p ∈ (sawState s cl a b).threads :=
  List.mem_map.2 ⟨p, hp, by rw [if_neg fun h' => h (atStage_stage h')]⟩

end

section
variable (s : State) {cl wait seen due then_ : Nat} (st next : BitVec 2)

theorem dstate_reached : ((reached s cl st next wait seen due then_).cluster cl).dstate = if s.threads.any (atStage cl due) then next else st := by
  have hcl : (reached s cl st next wait seen due then_).cluster cl =
      (s.setCluster cl { s.cluster cl with dstate := if s.threads.any (atStage cl due) then next else st }).cluster cl := rfl
  rw [hcl, cluster_setCluster_self]

theorem reached_waiting {p : Nat × Thread} (hp : p ∈ s.threads) (hseen : seen ≠ due) (h : atStage cl wait p = true) :
    (p.1, { p.2 with stage := seen }) ∈ (reached s cl st next wait seen due then_).threads :=
  mem_sawState_of_stage (mem_sawState_of_atStage (s := s.setCluster cl _) hp h) hseen

theorem reached_due {p : Nat × Thread} (hp : p ∈ s.threads) (hwait : due ≠ wait) (h : atStage cl due p = true) :
    (p.1, { p.2 with stage := then_ }) ∈ (reached s cl st next wait seen due then_).threads :=
  mem_sawState_of_atStage (mem_sawState_of_stage (s := s.setCluster cl _) hp (atStage_stage h ▸ hwait)) h

/-- The slice passes on where one waits for its own transition, and comes to rest where none does; each thread that waits is told. -/
theorem reached_tells (hwait : wait ≤ openDue) (hdue : due ≤ openDue) (hne : due ≠ wait) (hseen : seen ≠ due) :
    let t := reached s cl st next wait seen due then_
    ((∃ p ∈ s.threads, WaitsAt cl p due) → (t.cluster cl).dstate = next) ∧ ((∀ p ∈ s.threads, ¬ WaitsAt cl p due) → (t.cluster cl).dstate = st) ∧
    ∀ p ∈ s.threads, (WaitsAt cl p wait → (p.1, { p.2 with stage := seen }) ∈ t.threads) ∧
      (WaitsAt cl p due → (p.1, { p.2 with stage := then_ }) ∈ t.threads) := by
  have hany : s.threads.any (atStage cl due) = true ↔ ∃ p ∈ s.threads, WaitsAt cl p due := by
    simp only [List.any_eq_true, atStage_iff hdue]
  refine ⟨fun h => ?_, fun h => ?_, fun p hp => ⟨fun h => ?_, fun h => ?_⟩⟩
  · rw [dstate_reached, if_pos (hany.2 h)]
  · rw [dstate_reached, if_neg fun h' => let ⟨p, hp, hw⟩ := hany.1 h'; h p hp hw]
  · exact reached_waiting s st next hp hseen ((atStage_iff hwait p).2 h)
  · exact reached_due s st next hp hne ((atStage_iff hdue p).2 h)

end

/-- DAMASK_SEALED of a SEALING slice into which no load is under way. -/
theorem exec_damaskSealed {s : State} {cl : Nat} (hcl : cl < 256) (hd : (s.cluster cl).dstate = 1) (hl : (s.cluster cl).loads = 0) :
    exec (.damaskSealed cl) s = .next (reached s cl 2 3 sealWait sealSeen openDue openWait) := by
  have hexec : exec (.damaskSealed cl) s = withUnit (decide (cl < Config.clusters)) (damaskSealed s cl) := rfl
  rw [hexec, withUnit_next, damaskSealed, if_pos ⟨hd, hl⟩]
  exact ⟨decide_eq_true hcl, rfl⟩

/-- DAMASK_OPENED of an OPENING slice of which no read is under way. -/
theorem exec_damaskOpened {s : State} {cl : Nat} (hcl : cl < 256) (hd : (s.cluster cl).dstate = 3) (hr : (s.cluster cl).reads = 0) :
    exec (.damaskOpened cl) s = .next (reached s cl 0 1 openWait openSeen sealDue sealWait) := by
  have hexec : exec (.damaskOpened cl) s = withUnit (decide (cl < Config.clusters)) (damaskOpened s cl) := rfl
  rw [hexec, withUnit_next, damaskOpened, if_pos ⟨hd, hr⟩]
  exact ⟨decide_eq_true hcl, rfl⟩

/-! ## DSTAT and DWIN (R125, R126) -/

theorem dstat_gives {q : Pre} {d : Reg} {s : State} (he : Executes q [d] [] s) :
    Gives (.dstat q d) s (writes q s d (Val.ofW (BitVec.ofNat 64 (s.cl.reads % 256 * 65536 + s.cl.loads % 256 * 256 + s.cl.dstate.toNat)))) := by
  refine gives_reg _ q _ _ s d _ (show execDstat q d s = _ from rfl) he rfl (fun h => nomatch h) rfl rfl rfl (fun h => nomatch h) ?_
  obtain ⟨⟨hr, -⟩, hunbound⟩ := he
  rw [begun_cl q _ hr, writeW, writeReg_unbound _ d _ (by rw [begun_binds q _ s hr]; exact hunbound d List.mem_cons_self)]

theorem dwin_gives {q : Pre} {d r : Reg} {s : State} (he : Executes q [r, d] [] s) :
    Gives (.dwin q d r) s (writes q s d (Val.ofW (dwinWord s.gtime ((valOf s r).toNat % 8)))) := by
  refine gives_reg _ q _ _ s d _ (show execDwin q d r s = _ from rfl) he rfl (fun h => nomatch h) rfl rfl rfl (fun h => nomatch h) ?_
  obtain ⟨⟨hr, -⟩, hunbound⟩ := he
  have hfree : ∀ x ∈ [r, d], Map.find (begun q { base := baseParcel (.dwin q d r), reads := [r], writes := [d] } s).t.binds x.toNat = none := by
    rw [begun_binds q _ s hr]; exact hunbound
  rw [begun_gtime q _ hr, readW_unbound _ r (hfree r (by simp)), begun_reg q _ s hr]
  exact writeReg_unbound _ d _ (hfree d (by simp))

/-- Settles O21: each of DSEAL and DOPEN by the state that it meets, then by what it has seen; the two events; DSTAT and DWIN. -/
theorem damaskStates : Obligations.DamaskStates := by
  refine ⟨fun q r s he hwhole => ?issues, fun q r s _ _ hx hg hd => ⟨dseal_goes_on hx hg hd, dopen_goes_on hx hg hd⟩,
    fun s cl hcl => ⟨fun hd hl => ?sealed, fun hd hr => ?opened⟩, fun q d s he => dstat_gives he, fun q d r s he => ?window⟩
  case issues =>
    obtain ⟨sealOpen, sealSealing, sealSealed, sealOpening⟩ := dseal_issues he hwhole
    obtain ⟨openOpen, openSealing, openSealed, openOpening⟩ := dopen_issues he hwhole
    exact ⟨sealSealed, openOpen, sealOpen, openSealed, sealSealing, openOpening, sealOpening, openSealing⟩
  case sealed => exact ⟨_, exec_damaskSealed hcl hd hl, reached_tells s 2 3 (by decide) (by decide) (by decide) (by decide)⟩
  case opened => exact ⟨_, exec_damaskOpened hcl hd hr, reached_tells s 0 1 (by decide) (by decide) (by decide) (by decide)⟩
  case window =>
    have h := dwin_gives he
    rw [dwinWord, Nat.mul_comm 65536 8] at h
    exact h

end Sys2Proof.DamaskStore
